-- ==== Sys2Proof/Word.lean ====
section
/-! DEFINITION. The byte and word types of the module and the unit of its time. -/

namespace Sys2Proof

/-- One byte. Multi-byte fields are little-endian (R8). -/
abbrev Byte := BitVec 8

/-- A byte string, first byte at the lowest address (R8). -/
abbrev Bytes := List Byte

/-- A 32-bit word: an FP32 or INT32 value of the vector engine, or a register. -/
abbrev Word := BitVec 32

/-- Module time, in units of 1/30000 ns. In this unit the tick period D / f_wc of R14, the window
half-width Tp × 100 × 10^-6 + 1 µs of R16 and the fractions 0.94, 0.95 and 0.98 of Tp of R22 and R332
are all whole numbers, so that every instant of the manual is exact. -/
abbrev Time := Nat

/-- An error code (R10): 16 bits, the class in bits [15:12]. -/
abbrev Code := Nat

end Sys2Proof
end

