-- ==== Sys2Proof/Config.lean ====
section
/-! DEFINITION. What an implementation fixes and the values the manual leaves open.
Every constant here is opaque: nothing in Lean can evaluate it, so no proof can lean on a value. -/

namespace Sys2Proof.Config

/-- The n-th free value: a value the manual leaves open, fresh for each n. State.freeCtr counts them. -/
opaque freeValue : Nat → BitVec 64

/-- SHA-384 as FIPS 180-4 defines it (R380). -/
opaque sha384 : Bytes → Bytes

/-- Ed25519 verification of R380: public key, message, signature. -/
opaque ed25519Verify : Bytes → Bytes → Bytes → Bool

/-- ML-DSA-65 verification of R380: public key, message, signature. -/
opaque mldsa65Verify : Bytes → Bytes → Bytes → Bool

/-- Ed25519 signature of R392: private seed, message. -/
opaque ed25519Sign : Bytes → Bytes → Bytes

/-- Hedged ML-DSA-65 signature of R392: private seed, message, the random input of the hedge. -/
opaque mldsa65Sign : Bytes → Bytes → BitVec 64 → Bytes

/-- Ed25519 public key of a private seed (R386). -/
opaque ed25519Public : Bytes → Bytes

/-- ML-DSA-65 public key of a seed (R386). -/
opaque mldsa65Public : Bytes → Bytes

/-- HKDF-SHA-384 with a salt of 48 zero bytes (R386): secret, info string, length. -/
opaque hkdf : Bytes → Bytes → Nat → Bytes

/-- ROOT_HASH[i] of the mask ROM (R380). -/
opaque rootHash : Nat → Bytes

/-- Revision of the mask-ROM code (R392, Table 14.14). -/
opaque romRevision : BitVec 32

/-- The root key pair i that a firmware body carries, Ed25519 key then ML-DSA-65 key (R380). -/
opaque fwRoot : Bytes → Nat → Bytes

/-- The revocation list of certificate serials that a firmware body carries (R380). -/
opaque fwRevoked : Bytes → List Nat

/-- The A5 table of function n that a firmware body carries, in the format of Table 6.5 (R170). -/
opaque fwA5Table : Bytes → Nat → Bytes

/-- The reference table of function n that a firmware body carries for the self-test of R167, in the format of Table 6.5. -/
opaque fwReferenceTable : Bytes → Nat → Bytes

/-- Fixed argument i of the self-test of function n (R167 names 4,096 of them and gives none), already reduced. -/
opaque selfTestArgument : Nat → Nat → BitVec 32

/-- Sirtistan's PCI-SIG vendor ID (Table 13.1 names it and does not give it). -/
opaque vendorId : BitVec 16

/-- The valve opening, in percent, that gives a coolant flow in 0.01 L/min (R431: the valve's flow characteristic, which
the manual names and does not give). -/
opaque valveForFlow : Nat → Nat

/-- Greatest luma picture size and luma sample rate of a level in the standard's level table (R295):
format (0 AV1, 1 HEVC), LEVEL; answers width limit, height limit, size limit, rate limit. -/
opaque levelLimits : Nat → Nat → Nat × Nat × Nat × Nat

/-- How long a fill sequence is estimated to take, in ns, from the latest 1,024 fill times of its source, its stored bytes
and its blocks (R283 names the times and no formula). -/
opaque fillEstimate : List Nat → Nat → Nat → Nat

/-- OP of the control flits by which a member reports to position 0 (R333, R335, R181), of which Table 12.4 has no row, by
kind: 0 a Dusk cause, 1 the newest committed tick, 2 the job digest. -/
opaque reportOp : Nat → Nat

/-- The host-window share in MB/s (Table 10.12), by PLAN_ID and the trained bandwidth in MB/s: no field of a plan holds it. -/
opaque windowShare : Nat → Nat → Nat

/-- What an empty attention record holds beside COUNT = 0 in a field of a PART's output (R233 names no other field): A_k, query
head, query position and field, so that a replay or another core gives the same bits (R98). -/
opaque emptyRecord : Nat → Nat → Nat → Nat → BitVec 32

/-- Δ of a row as BWD_DQ takes it, which has no DELTA tensor (R245 gives Δ to BWD_DK alone): A_k, query head and query
position. -/
opaque backwardDelta : Nat → Nat → Nat → BitVec 32

/-- What a value of a final FSUM slot holds that no contribution reached (R256): A_k, slot of the module and value. -/
opaque unsummed : Nat → Nat → Nat → BitVec 32

/-! ### Codecs (R292 to R303)

What the standards of AV1 and HEVC and the encoder's own decisions make of a frame; the manual gives neither, but says that an
access unit is a fixed function of its inputs (R303). A frame is its three planes as sample codes, a reference its samples as
the pool holds them, a block its x, y, width and height in luma samples, a vector its two parts in 1/8 luma sample, and a
coded row whatever the coder keeps of it. -/

/-- The prediction blocks of a superblock row in coding order (Table 11.3): entry; key frame, QP and row; frame, references,
rows before. -/
opaque predictionBlocks : Bytes → Bool × Nat × Nat → List (List Nat) → List Bytes → List Bytes → List (Nat × Nat × Nat × Nat)

/-- A superblock row coded with the tools of Table 11.3, and its bits: entry; key frame, QP and row; frame, references, rows
before, and the final vectors of its blocks, one for each reference. -/
opaque codeRow : Bytes → Bool × Nat × Nat → List (List Nat) → List Bytes → List Bytes
  → List ((Nat × Nat × Nat × Nat) × List (Int × Int)) → Bytes × Nat

/-- A superblock row coded as skip, and its bits: a copy of reference 0 with zero residual, or for a key frame DC prediction
at the QP given (R299): entry; key frame, QP and row; rows before. -/
opaque skipRow : Bytes → Bool × Nat × Nat → List Bytes → Bytes × Nat

/-- The reference, if any, from which a coded row predicts a block. -/
opaque rowReference : Bytes → (Nat × Nat × Nat × Nat) → Option Nat

/-- The access unit of a frame without temporal delimiter and parameter sets: entry, quantiser of the frame, level code of
the bitstream, key frame and coded rows. -/
opaque frameUnit : Bytes → Nat → Nat → Bool → List Bytes → Bytes

/-- The parameter sets that stand before an IDR of HEVC, Main tier: entry and level code (Table 11.2). -/
opaque parameterSets : Bytes → Nat → Bytes

/-- The planes that a decoder of the standard makes of coded rows, and so the encoder's references: entry, references, key
frame and coded rows. -/
opaque reconstruct : Bytes → List Bytes → Bool → List Bytes → List (List Nat)

/-- A luma sample between the samples of a reference, by the standard's interpolation filter: format, plane, width, height,
and position in 1/8 sample. -/
opaque interpolate : Nat → List Nat → Nat → Nat → Int → Int → Nat

/-- R_mv: bits of a vector's difference from its predictor in a format: the final vectors of the neighbours, and the
vector (R302). -/
opaque vectorBits : Nat → List (Int × Int) → (Int × Int) → Nat

/-- What a decoder of the standard makes of an access unit, from the entry and the references, newest first: the condition of
Table 11.9 that it detects (0 none, 1 syntax error or overrun, 2 reference missing, 3 stream outside the entry), whether the
picture is a key frame or IDR, the three planes, for each 8 × 8 luma block in raster order whether it was decoded, the
references it predicts from, and the sps_max_dec_pic_buffering of HEVC. AV1: operating point 0, film grain parsed and not
applied; HEVC: layer 0; after a condition it goes on where R306 says (R294, R306). -/
opaque decodeUnit : Bytes → Bytes → List Bytes → Nat × Bool × List (List Nat) × List Bool × List Nat × Nat

/-- ID_PART.STEPPING, per unit (R367). -/
opaque stepping : BitVec 8

/-- ID_PART.BOARD, per unit (R367). -/
opaque board : BitVec 8

/-- The Sirtistan firmware image that a module is shipped with in both slots (Table 17.11). -/
opaque shippedFirmware : Bytes

/-- The safety parameter block as shipped (R377). -/
opaque shippedSafetyBlock : Bytes

/-- The PUF check value stored at manufacture (R377, R386). -/
opaque pufCheck : Bytes

/-- The device certificate written at manufacture (R377, R382). -/
opaque shippedCertificate : Bytes

/-- What an input-declaration section says of a segment kind: required, and its greatest length (Table 14.12, type 0x0F;
the manual names the two and gives no layout). -/
opaque inputDeclaration : Bytes → Nat → Bool × Nat

/-- Where on a die the conditioning of a frame is written for the commands that read it (R29), by the plan's input-declaration
section, segment kind, stream and payload length: the manual gives no place. -/
opaque conditioningPlace : Bytes → Nat → Nat → Nat → Nat

end Sys2Proof.Config
end

