-- ==== Sys2Proof/Syntax.lean ====
section
/-! DEFINITION. The commands of the block: one constructor per row of the table of operations and events.
Every command carries the instant t at which it reaches the block or at which its event occurs, in the unit
of Sys2Proof.Time. Operands that follow t are what the outside world decides (what a host wrote, what a
sensor read, what a transfer returned); everything else a command does follows from the state. -/

namespace Sys2Proof

/-- What an error corrected in place concerns (Table 15.1). -/
inductive CorrectedKind where
  /-- One bit of a scratchpad, accumulator memory, halo buffer, cluster cache, slot or function bank. -/
  | sram
  /-- One bit of an HBM word. -/
  | hbm
  /-- One bit of a directory entry, or an entry bad in one copy. -/
  | directory
deriving DecidableEq, Repr

/-- What an uncorrectable error concerns (Table 15.1). -/
inductive UncorrectableKind where
  /-- Two or more bits of an SRAM word. -/
  | sram
  /-- Parity of a command buffer, sequencer state, event counter or staging queue. -/
  | control
  /-- A directory entry bad in both copies. -/
  | directory (entry : Nat)
  /-- An HBM word, by its physical byte address; read by a command of a core or not. -/
  | hbm (address : Nat)
  /-- The die-to-die bridge (R48). -/
  | bridge
deriving DecidableEq, Repr

/-- The sensor pairs of Table 16.5 that can disagree. -/
inductive SensorPair where
  | junction0 | junction1 | inlet | outlet | valve | connector | current | voltage | bus
deriving DecidableEq, Repr

/-- The two I3C targets of R454. -/
inductive Target where
  | management | stratus
deriving DecidableEq, Repr

/-- One set of sensor readings (Table 16.5, R431): the pairs as sensor A and sensor B.
Temperatures in 0.01 °C, current in 10 mA, voltages in 10 mV, flow in 0.01 L/min, power in W. -/
structure Readings where
  junction0 : Int × Int
  junction1 : Int × Int
  inlet     : Int × Int
  outlet    : Int × Int
  connector : Int × Int
  valve     : Nat × Nat
  current   : Nat × Nat
  voltage   : Nat × Nat
  bus       : Nat × Nat
  flow      : Nat
  loadW     : Nat
  /-- The two sense pairs of the leak rope: wet. -/
  leak      : Bool × Bool
  /-- Rise of the input power within the last 1 ms, in W. -/
  rise      : Nat
deriving DecidableEq, Repr

/-- What a self-test window meets in the hardware (R164 to R167): whether the read-back of its first write (the reference
tables) and of its second (the plan set) matches, a unit other than a special-function unit that fails, and the results of
special-function units that are not those of R159: core, function, number of the argument, result. -/
structure WindowInput where
  firstOk  : Bool := true
  secondOk : Bool := true
  failed   : Option (BitVec 32) := none
  results  : List (Nat × Nat × Nat × BitVec 32) := []
deriving DecidableEq, Repr

/-- What a JOB_START meets: its self-test window, and the checkpoint that position 0's data channel brings a member that lacks
one (R410). -/
structure StartInput where
  window  : WindowInput
  carried : Bytes := []
deriving DecidableEq, Repr

/-- A memory BAR of the function (R344). -/
inductive Bar where
  | bar0 | bar2
deriving DecidableEq, Repr

/-- An address of the host's: a BAR and an offset into it. -/
structure BarAddress where
  bar    : Bar
  offset : Nat
deriving DecidableEq, Repr

/-- What a read of the host's covers. -/
structure BarRead where
  bar    : Bar
  offset : Nat
  size   : Nat
deriving DecidableEq, Repr

/-- A trip condition as Stratus finds it: its code, and the readings on which it has held (R437). -/
structure TripInput where
  code     : Nat
  readings : Readings
deriving DecidableEq, Repr

/-- The levels of two inputs as Stratus starts (R436). -/
structure SupplyPins where
  pwrEn       : Bool
  senseClosed : Bool
deriving DecidableEq, Repr

/-- The one operand of a command, with the instant at which the command reaches the module. -/
structure Timed (α : Type) where
  time : Nat
  val  : α
deriving DecidableEq, Repr

/-- What a cold Dawn meets in the hardware (R371 to R376, Table 14.3). -/
structure DawnInput where
  /-- GA[3:0] as sampled at step 2. -/
  ga            : BitVec 4
  /-- Both removal paths pass the test of R438. -/
  pathsOk       : Bool
  /-- The secret K that the PUF reconstructs (R386). -/
  puf           : Bytes
  /-- Every counter command authenticates (R388). -/
  countersOk    : Bool
  /-- Failures of HBM training: 0, 1 (passes on retry) or more (R372). -/
  trainFailures : Nat
  /-- Failures of built-in self-test: 0, 1 or more. -/
  testFailures  : Nat
  /-- The unit that failed self-test (Table 15.13). -/
  testUnit      : BitVec 32
  /-- Table read-back matches at step 9 (R165). -/
  tablesOk      : Bool
  /-- The fault-history pages present but none valid (R419). -/
  historyBad    : Bool
  /-- Ports whose training completes (R376). -/
  portsUp       : List Nat
  /-- IDENT and PROBE flits that arrive while the ring forms (R322), in order: the port, the flit, symbol errors of the
  codeword that begins in it, and the hop delay that its port measures. -/
  linkFlits     : List (Nat × Bytes × Nat × Nat)
deriving DecidableEq, Repr

/-- The commands, in the order of the table. -/
inductive Instr where
  /-- FRAME_PULSE_EDGE (R16). A rising edge on TICK_IN from a frame-pulse source is tracked for lock,
    or accepted as boundary T(k), or ignored with 0x1902. -/
  | framePulseEdge (t : Nat)
  /-- WORD_CLOCK_EDGE (R15). A word-clock edge that completes D periods is accepted as boundary T(k)
    if it lies in its window, or is treated as missing. -/
  | wordClockEdge (t : Nat) (inTolerance : Bool)
  /-- INTERNAL_BOUNDARY (R15). The internal reference places boundary T(k) at T(k-1)+Tp, or T(0) 1.0
    ms after the admission response. -/
  | internalBoundary (t : Nat)
  /-- FLYWHEEL_BOUNDARY (R17). No edge is accepted by E(k)+W, so the module places a flywheel boundary
    from its reference and reports 0x1903. -/
  | flywheelBoundary (t : Nat)
  /-- BOUNDARY_FORWARD_TIMEOUT (R19). A ring member receives no forwarded boundary by E(k)+W+4 us,
    places a flywheel boundary and starts the common abort with 0x3A09. -/
  | boundaryForwardTimeout (t : Nat)
  /-- LOCK_LOSS_TIMEOUT (R18). Outside RUNNING and DRAINING, Tp+W passes after the newest tracked
    frame-pulse edge and the source becomes unlocked. -/
  | lockLossTimeout (t : Nat)
  /-- WORD_CLOCK_LOCK (R18). The word-clock rate has stayed within ±100 ppm for 10 ms, so the source
    becomes locked. The operand is the rate, as planClock numbers it. -/
  | wordClockLock (rate : Timed Nat)
  /-- WORD_CLOCK_UNLOCK (R18). Outside RUNNING and DRAINING, the word-clock rate averaged over 10 ms
    leaves ±100 ppm and the source becomes unlocked. -/
  | wordClockUnlock (rate : Timed Nat)
  /-- COMPUTE_CUTOFF (R23). A command of tick k is still uncommitted at T(k)+0.94 Tp; the tick is
    abandoned with 0x1905 and Squall begins. -/
  | computeCutoff (t : Nat)
  /-- TICK_COMMIT_DEADLINE (R23). The tick commit is not complete at T(k)+0.98 Tp; 0x1906 is reported
    and Squall begins. -/
  | tickCommitDeadline (t : Nat)
  /-- TICK_COMMIT (R24). Tick k commits once its staged results are released and its checkpoint is
    written in the HBM of both dies. -/
  | tickCommit (t : Nat)
  /-- DELIVERY_SLOT (R31). By T(m)+2.0 ms one output record is written for the frame accepted at
    T(m-L), or a gap record is written, or the record waits for room. -/
  | deliverySlot (t : Nat)
  /-- DRAIN_END (R37). T(e+L-1)+2.0 ms is reached in DRAINING and the job ends in IDLE. -/
  | drainEnd (t : Nat)
  /-- RECOVERY_COMPLETE (R39). Compute recovery completes: reset done, tables reloaded and the
    checkpoint of tick c restored, so resume is set for the next boundary after 1.0 ms. -/
  | recoveryComplete (t : Nat) (selfTestOk tablesOk : Bool)
  /-- RECOVERY_TIMEOUT (R414). Recovery is not complete 3 s after first detection; the job stops by
    Dusk with 0x4304, or with 0x1904 if the source is still unlocked. -/
  | recoveryTimeout (t : Nat)
  /-- TILE_MM (R109). The matrix engine computes D = A x B (+C) tile by tile over the canonical
    reduction tree and stages the output. -/
  | tileMm (t core : Nat)
  /-- TILE_CONV (R198). A convolution runs on the matrix engine through the halo buffer, stripe by
    stripe. -/
  | tileConv (t core : Nat)
  /-- FORWARD (R236). ATTN_BLOCK FORWARD computes attention over key blocks and writes the output and
    row statistics. -/
  | forward (t core : Nat)
  /-- ATTN_PART (R242). ATTN_BLOCK PART writes the partial record of one node of the key-block tree. -/
  | attnPart (t core : Nat)
  /-- MERGE (R243). ATTN_BLOCK MERGE combines part records in tree order and finishes the rows; a
    broken partition gives 0x1189. -/
  | merge (t core : Nat)
  /-- BWD_DQ (R246). ATTN_BLOCK recomputes scores and writes dQ. -/
  | bwdDq (t core : Nat)
  /-- BWD_DK (R246). ATTN_BLOCK recomputes scores and writes dK. -/
  | bwdDk (t core : Nat)
  /-- BWD_DV (R246). ATTN_BLOCK recomputes probabilities and writes dV. -/
  | bwdDv (t core : Nat)
  /-- MAP (R134). VEC_RUN MAP runs the element program once per element and writes its ST operand. -/
  | map (t core : Nat)
  /-- SCAN (R135). VEC_RUN SCAN forms exact inclusive or exclusive, optionally segmented, prefix sums,
    maxima or minima along each row. -/
  | scan (t core : Nat)
  /-- REDUCE (R137). VEC_RUN REDUCE writes the inclusive scan result of the last element of each row. -/
  | reduce (t core : Nat)
  /-- COPY (R276). MOVE COPY copies bytes unchanged between tiers. -/
  | copy (t core : Nat) (host : Option Bytes)
  /-- CONVERT (R276). MOVE CONVERT copies with format conversion by Table 3.8. -/
  | convert (t core : Nat) (host : Option Bytes)
  /-- ATOMIC_IADD (R253). MOVE stages an atomic add on cluster-cache words, applied at commit. -/
  | atomicIadd (t core : Nat)
  /-- ATOMIC_SMIN (R253). MOVE stages an atomic signed minimum. -/
  | atomicSmin (t core : Nat)
  /-- ATOMIC_SMAX (R253). MOVE stages an atomic signed maximum. -/
  | atomicSmax (t core : Nat)
  /-- ATOMIC_UMIN (R253). MOVE stages an atomic unsigned minimum. -/
  | atomicUmin (t core : Nat)
  /-- ATOMIC_UMAX (R253). MOVE stages an atomic unsigned maximum. -/
  | atomicUmax (t core : Nat)
  /-- ATOMIC_AND (R253). MOVE stages an atomic bitwise and. -/
  | atomicAnd (t core : Nat)
  /-- ATOMIC_OR (R253). MOVE stages an atomic bitwise or. -/
  | atomicOr (t core : Nat)
  /-- ATOMIC_XOR (R253). MOVE stages an atomic bitwise exclusive-or. -/
  | atomicXor (t core : Nat)
  /-- EXCH (R254). MOVE stages an atomic exchange and writes the old values to RESULT at commit. -/
  | exch (t core : Nat)
  /-- CAS (R254). MOVE stages an atomic compare-and-swap and writes the old values to RESULT at
    commit. -/
  | cas (t core : Nat)
  /-- FSUM_ADD (R256). MOVE contributes FP32 values to an ordered FSUM slot, merged in contributor
    order at commit. -/
  | fsumAdd (t core : Nat)
  /-- FSUM_READ (R256). MOVE reads a final FSUM slot, or is killed with 0x2909 and Squall when the
    slot is not final. -/
  | fsumRead (t core : Nat)
  /-- GATHER (R278). Rows of SRC named by an index tensor are copied to DST, with zero rows and 0x2907
    for indices out of range. -/
  | gather (t core : Nat)
  /-- ALLREDUCE (R330). COLL_MM combines members' parts by tree order, finishes each slice and sends
    every slice to every member. -/
  | allreduce (t core : Nat)
  /-- REDUCE_SCATTER (R330). COLL_MM leaves finished slice s of D at group index s. -/
  | reduceScatter (t core : Nat)
  /-- COLL_REDUCE (R330). COLL_MM combines every part at the root. -/
  | collReduce (t core : Nat)
  /-- SHIFT (R328). COLL_MOVE sends each member's source to the member DIST positions ahead in the
    group. -/
  | shift (t core : Nat)
  /-- BROADCAST (R328). COLL_MOVE copies the root's source to every member. -/
  | broadcast (t core : Nat)
  /-- ALLGATHER (R328). COLL_MOVE places each member's source as a slice in every member's
    destination. -/
  | allgather (t core : Nat)
  /-- COLL_GATHER (R328). COLL_MOVE places each member's source as a slice at the root only. -/
  | collGather (t core : Nat)
  /-- WAIT (R66). The control command completes once its header event and every listed event are set. -/
  | wait (t core : Nat)
  /-- SIGNAL (R66). Once every earlier command has committed, the command commits and signals each
    listed event once. -/
  | signal (t core : Nat)
  /-- COMMIT (R66). Once the commands in FIRST to LAST have finished, they are committed in index
    order and the header event is signalled. -/
  | commit (t core : Nat)
  /-- TIER_REQ (R279). A request for directory entries, due at T(k+AHEAD), is enqueued at commit
    within 2 us. -/
  | tierReq (t core : Nat)
  /-- CONVOLUTION (R214). EDGE_CONV runs a convolution with few channels on the cluster's edge engine. -/
  | convolution (t core : Nat)
  /-- MAXIMUM_POOL (R216). EDGE_CONV computes the largest value over each window. -/
  | maximumPool (t core : Nat)
  /-- AVERAGE_POOL (R216). EDGE_CONV computes the exact mean of the included taps. -/
  | averagePool (t core : Nat)
  /-- BILINEAR_RESAMPLING (R217). EDGE_CONV enlarges the input by a factor of 2, 4 or 8 with bilinear
    interpolation. -/
  | bilinearResampling (t core : Nat)
  /-- ARGMAX (R220). POST writes the index of the first-ranked score of each row. -/
  | argmax (t core : Nat)
  /-- TOP_K (R220). POST writes the indices, and optionally the scores, of the first k elements of
    each row in rank order. -/
  | topK (t core : Nat)
  /-- RNG_FILL (R193). Every output element is filled from the lane generators with the selected
    distribution. -/
  | rngFill (t core : Nat)
  /-- COMMAND_FINISH (R67). A command's engine completes its work and the command commits at once or
    stays staged. -/
  | commandFinish (t core idx : Nat) (err : BitVec 64)
  /-- COMMAND_DEADLINE (R59). A command has not committed by T(k) plus its DEADLINE; it is killed with
    0x1702 and Squall begins, or for a COLL command the common abort starts. -/
  | commandDeadline (t core idx : Nat)
  /-- CIRRUS_COMPARE (R404). Once both runs finish, the digests of the original and the duplicate are
    compared, and the original commits or arbitration starts. -/
  | cirrusCompare (t core idx : Nat) (err : BitVec 64)
  /-- CIRRUS_ARBITRATION (R404). The arbiter's third digest decides between commit, re-run or Squall. -/
  | cirrusArbitration (t core idx : Nat) (err : BitVec 64)
  /-- PARITY_FAULT (R397). A path parity error takes level 1: command kill and re-run, or Squall with
    0x4301 for a second one in a tick. -/
  | parityFault (t core idx : Nat) (duplicate : Bool)
  /-- ECC_CORRECTED (R395). A single-bit SRAM, HBM or directory error is corrected and counted. -/
  | eccCorrected (t : Nat) (kind : CorrectedKind) (partition : Nat)
  /-- UNCORRECTABLE_ERROR (R397). An uncorrectable SRAM, control-state or poisoned HBM error takes
    level 2. -/
  | uncorrectableError (t : Nat) (kind : UncorrectableKind) (unit site : BitVec 32)
  /-- MP_LOCKSTEP_FAULT (R397). A management-processor lockstep or memory fault takes level 3: Stratus
    forces a module reset. -/
  | mpLockstepFault (t : Nat)
  /-- CLOCK_LOCK_LOSS (R47). A clock loop loses lock, reported with 0x420B at level 3. -/
  | clockLockLoss (t loop : Nat)
  /-- PARTITION_FAULT (R397). A fault inside the Tier, Media or Host partition resets that partition
    alone, with 0x4303. -/
  | partitionFault (t partition : Nat) (unit site : BitVec 32)
  /-- HISTORY_WRITE (R417). A fault-history page is written 60 s after a counted error or every 10
    minutes, with 0x4401 on failure. -/
  | historyWrite (t : Nat) (ok : Bool)
  /-- WATCH_PERIOD_END (R419). Cumulative operation reaches 24,000 millihours; 0x4403 is reported and
    the Cirrus rate changes. -/
  | watchPeriodEnd (t : Nat)
  /-- FILL_START (R281). The head entry of the fill queue takes a frame, evicting if needed, and
    starts its read. -/
  | fillStart (t : Nat)
  /-- FILL_COMPLETE (R281). A segment read and decode ends, and the entry becomes resident or is
    retried or failed. -/
  | fillComplete (t : Nat) (ok : Bool) (host : Bytes)
  /-- ACCESS_UNIT_STAGED (R297). An encoder finishes a frame and the access unit commits in the Media
    partition. The frame is named by its number and by the tick in which its encode began. -/
  | accessUnitStaged (t entry frame tick : Nat)
  /-- DECODED_PICTURE_STAGED (R297). A decoder finishes a picture into set a mod 2. The picture is that of the frame which
    counts as accepted at T(tick), and set is the one that it stands in. -/
  | decodedPictureStaged (t entry frame tick set : Nat)
  /-- DATA (R326). A collective data flit is received and staged at its OFFSET. -/
  | data (t port : Nat) (flit : Bytes) (errors : Nat)
  /-- PART (R330). A flit carrying FP32 node values of a COLL_MM is received. -/
  | part (t port : Nat) (flit : Bytes) (errors : Nat)
  /-- CLEAR (R326). The receiving command has issued, so the sender may send data. -/
  | clear (t port : Nat) (flit : Bytes) (errors : Nat)
  /-- DONE (R326). Every byte for the receiver has been sent. -/
  | done (t port : Nat) (flit : Bytes) (errors : Nat)
  /-- TICK (R19). A forwarded boundary from position 0 places T(k) at the member, with ring-wide
    events. -/
  | tick (t port : Nat) (flit : Bytes) (errors : Nat)
  /-- READY (R332). A member reports its commands of tick k complete, and holding READY from all
    permits the tick commit. -/
  | ready (t port : Nat) (flit : Bytes) (errors : Nat)
  /-- ABORT (R334). A member receiving ABORT for its tick forwards it once, kills its commands and
    enters Squall, or stops under R339 for 0x3A08. -/
  | abort (t port : Nat) (flit : Bytes) (errors : Nat)
  /-- RESUME (R335). Members receive the common c and r and resume at T(r). -/
  | resume (t port : Nat) (flit : Bytes) (errors : Nat)
  /-- REQUEST (R338). A job request forwarded by position 0 is applied at the member. -/
  | request (t port : Nat) (flit : Bytes) (errors : Nat)
  /-- IDENT (R322). The peer's identity and port are received, and a port cabled wrongly is disabled
    with 0x3202. -/
  | ident (t port : Nat) (flit : Bytes) (errors : Nat) (delayNs : Nat)
  /-- PROBE (R322). A ring probe is extended with GA and forwarded, or closes the ring formation. -/
  | probe (t port : Nat) (flit : Bytes) (errors : Nat)
  /-- IDLE_FLIT (R317). An idle flit returns credits and acknowledgements. -/
  | idleFlit (t port : Nat) (flit : Bytes) (errors : Nat)
  /-- NAK (R318). A NAK makes the sender retransmit from ACK+1, and the port goes down after 8
    retransmissions of one flit. -/
  | nak (t port : Nat) (flit : Bytes) (errors : Nat)
  /-- REPLAY_STALL_TIMEOUT (R318). The replay buffer is full and ACK has not advanced for 20 us, so
    the port goes down. -/
  | replayStallTimeout (t port : Nat)
  /-- FEC_LOCK_LOSS (R318). A lane loses FEC lock for more than 1 us, so the port goes down and an
    abort starts with 0x3A03. -/
  | fecLockLoss (t port lane : Nat)
  /-- PORT_UP (R315). A port completes training with all lanes locked and the ring re-forms. -/
  | portUp (t port : Nat)
  /-- PORT_TRAINING_TIMEOUT (R313). A port fails to train within 400 ms, reported with 0x3201. -/
  | portTrainingTimeout (t port : Nat)
  /-- READY_TIMEOUT (R332). READY from every member is not held by T(k)+0.95 Tp, so the abort starts
    with 0x3A07. -/
  | readyTimeout (t : Nat)
  /-- RING_RESTORED (R335). Position 0 sees every hop up and every member restored, chooses T(r) and
    sends RESUME. -/
  | ringRestored (t : Nat)
  /-- RING_RECOVERY_TIMEOUT (R336). RESUME is not sent 3 s after detection, so the job stops by Dusk
    with 0x3A06. -/
  | ringRecoveryTimeout (t : Nat)
  /-- RING_T0_DECISION (R338). Once every member passes admission, position 0 chooses T(0) and
    forwards it; the job digests are those of positions 1 on (R181). -/
  | ringT0Decision (digests : Timed (List Bytes))
  /-- JOB_START (R35). Job-start admission runs and the job enters ARMED with T(0), or the request is
    refused. -/
  | jobStart (t : Nat) (req : Bytes) (input : StartInput)
  /-- JOB_END (R37). JOB_END is accepted and takes effect at the first boundary at least 1.0 ms later. -/
  | jobEnd (t : Nat) (req : Bytes)
  /-- JOB_PREEMPT (R38). The job stops with a retained checkpoint, or the stop is deferred until the
    Squall reset ends. -/
  | jobPreempt (t : Nat) (req : Bytes)
  /-- JOB_ABORT (R38). The job stops and its checkpoint is discarded, or ARMED returns to IDLE. -/
  | jobAbort (t : Nat) (req : Bytes)
  /-- KEYFRAME (R300). The first encode after the next boundary of the selected streams is a key
    frame. -/
  | keyframe (t : Nat) (req : Bytes)
  /-- SPLIT_EXACT (R148). Forces every RND active or returns to the commands' flags at the next
    boundary. -/
  | splitExact (t : Nat) (req : Bytes)
  /-- MAINT_ENTER (R37). IDLE passes to MAINTENANCE and the retained checkpoint is dropped. -/
  | maintEnter (t : Nat) (req : Bytes)
  /-- MAINT_EXIT (R37). MAINTENANCE returns to IDLE. -/
  | maintExit (t : Nat) (req : Bytes)
  /-- STORE_WRITE (R264). Writes host-exchange data to the weight store in MAINTENANCE. -/
  | storeWrite (t : Nat) (req : Bytes)
  /-- TABLE_LOAD (R165). Loads a plan's table set into the inactive bank in a window and swaps the
    banks. -/
  | tableLoad (t : Nat) (req : Bytes) (window : WindowInput)
  /-- SELFTEST (R167). Runs built-in self-test and reports the first failing unit, which is classified
    permanent. -/
  | selftest (t : Nat) (req : Bytes) (window : WindowInput)
  /-- ATTEST (R392). Writes a doubly signed attestation report. -/
  | attest (t : Nat) (req : Bytes)
  /-- STAGE_IMAGE (R389). Verifies, erases, programs and reads back an image into the inactive slot,
    and marks it pending. -/
  | stageImage (t : Nat) (req : Bytes) (flashOk authOk : Bool)
  /-- TELEMETRY (R366). Writes every CNT_, PWR_ and THM_ register sampled at one instant. -/
  | telemetry (t : Nat) (req : Bytes)
  /-- HISTORY_READ (R415). Writes the fault-history region exactly as stored. -/
  | historyRead (t : Nat) (req : Bytes)
  /-- MODULE_RESET (R346). Responds and then begins a module reset that restarts Dawn. -/
  | moduleReset (t : Nat) (req : Bytes)
  /-- MAILBOX_UNKNOWN_OPCODE (R365). A request with an unknown opcode is refused with 0x6201. -/
  | mailboxUnknownOpcode (t : Nat) (req : Bytes)
  /-- INPUT_RECORD (R358). An input record is picked up, validated and its payload copied to both
    dies, or held back, discarded or replaced. -/
  | inputRecord (t : Nat) (record : Bytes) (payloads : List (Option Bytes))
  /-- HQ_IN_TAIL (R358). The input doorbell publishes records, which arrive at the moment of the
    write. -/
  | hqInTail (t : Nat) (value : BitVec 32)
  /-- HQ_OUT_HEAD (R359). The host frees output records, and waiting records are written with LATE. -/
  | hqOutHead (t : Nat) (value : BitVec 32)
  /-- HQ_DATA_HEAD (R359). The host frees output data bytes, and waiting records may be written. -/
  | hqDataHead (t : Nat) (value : BitVec 32)
  /-- MBX_REQ_TAIL (R365). The mailbox doorbell publishes requests for pickup in ring order. -/
  | mbxReqTail (t : Nat) (value : BitVec 32)
  /-- MBX_RSP_HEAD (R352). The host frees mailbox responses. -/
  | mbxRspHead (t : Nat) (value : BitVec 32)
  /-- EVT_HEAD (R362). The host acknowledges events, and queued events are written. -/
  | evtHead (t : Nat) (value : BitVec 32)
  /-- HQ_BASE (R353). Sets a ring's base while it is disabled. -/
  | hqBase (t ring : Nat) (value : BitVec 64)
  /-- HQ_SIZE (R353). Sets a ring's size while it is disabled. -/
  | hqSize (t ring : Nat) (value : BitVec 32)
  /-- HQ_STATUS_BASE (R353). Places the status page while every ring is disabled. -/
  | hqStatusBase (t : Nat) (value : BitVec 64)
  /-- RING_ENABLE (R353). Enables a ring with pointers at 0, or restarts a ring stopped by a DMA
    error. -/
  | ringEnable (t ring : Nat)
  /-- RING_DISABLE (R353). Disables a ring. -/
  | ringDisable (t ring : Nat)
  /-- REGISTER_WRITE (R349, R350). A write to a register with no row of its own is ignored; through BAR2 the bytes reach
    the host-exchange region. -/
  | registerWrite (t : Nat) (addr : BarAddress) (data : Bytes)
  /-- UNSUPPORTED_BAR0_ACCESS (R349). An access of another size or alignment is ignored or reads zero,
    reported with 0x6303. -/
  | unsupportedBar0Access (t offset size : Nat) (write : Bool)
  /-- REGISTER_64_LOW_READ (R44). A read of the low word of a 64-bit register latches its high word. A read of another
    register, of 8 bytes, or through BAR2, is this command too (R349, R350). -/
  | register64LowRead (t : Nat) (read : BarRead)
  /-- ERR_ENTRY_READ (R422). A read of the first word of an ERR_ENTRY latches the whole entry. -/
  | errEntryRead (t n : Nat)
  /-- MSIX_SIGNAL (R363). An MSI-X vector is signalled at most once per 50 us after a status-page
    write. -/
  | msixSignal (t vector : Nat)
  /-- DMA_COMPLETION_ERROR (R355). A ring DMA error stops the ring with ERROR and 0x6906. -/
  | dmaCompletionError (t : Nat) (ring : Option Nat)
  /-- CONFIGURATION_REQUEST (R345). A PCIe configuration request completes with CRS during Dawn or an
    FLR, or normally otherwise. It reads the double word of configuration space at the offset given. -/
  | configurationRequest (offset : Timed Nat)
  /-- FUNCTION_LEVEL_RESET (R346). Resets the Host partition, aborts the job and discards records and
    rings. -/
  | functionLevelReset (t : Nat)
  /-- FLR_COMPLETE (R346). The Function Level Reset completes and 0x6401 is raised. -/
  | flrComplete (t : Nat)
  /-- CONVENTIONAL_RESET (R346). PERST_N or a hot reset acts as a Function Level Reset and the link
    retrains. -/
  | conventionalReset (t : Nat)
  /-- PCIE_LINK_LOSS (R347). The PCIe link is lost, records become late and the next boundary leads to
    Dusk. -/
  | pcieLinkLoss (t : Nat)
  /-- PWR_EN_ASSERT (R370). PWR_EN asserted with SENSE_N closed for 100 ms starts a cold Dawn. The
    operand says whether the input voltage lies in its operating range, 40.0 V to 50.0 V (Table 16.1). -/
  | pwrEnAssert (vinOk : Timed Bool)
  /-- PWR_EN_DEASSERT (R443). Power is removed as for a trip, without a code or FAULT_N, and valve
    drive is cut for 60 s. -/
  | pwrEnDeassert (t : Nat)
  /-- SENSE_N_OPEN (R459). Stratus disables both stages, opens the input switch and cuts valve drive
    within 100 us. -/
  | senseNOpen (t : Nat)
  /-- SENSE_N_CLOSED (R459). SENSE_N has been closed for 100 ms, so PWR_EN is evaluated again. -/
  | senseNClosed (t : Nat)
  /-- COLD_DAWN (R371). The module runs the steps of a cold Dawn through READY, with retries and
    failure outcomes. -/
  | coldDawn (t : Nat) (input : DawnInput)
  /-- DAWN_STEP_OVERRUN (R372). A Dawn step misses its bound; Stratus forces a further cold Dawn, or
    Eclipse with 0x8405. -/
  | dawnStepOverrun (t step : Nat)
  /-- WARM_DAWN (R376). After a forced reset for a management-processor fault, a shortened Dawn keeps
    HBM and partitions and writes the missed gap records. -/
  | warmDawn (t : Nat) (selfTestOk tablesOk : Bool)
  /-- STRATUS_TRIP (R437). A trip condition holds past its confirm time, so power is removed along its
    paths and valve drive is cut. -/
  | stratusTrip (t : Nat) (input : TripInput)
  /-- HW_OVERCURRENT_TRIP (R437). The hardware comparator interrupts input current at 80 A within 5
    us. -/
  | hwOvercurrentTrip (t : Nat)
  /-- POWER_STAGE_CONDUCTING (R438). The power stage still draws current 100 us after its disable, so
    the input switch opens with 0x5A0C. -/
  | powerStageConducting (t : Nat)
  /-- SAFE_STATE_EXIT (R440). PWR_EN has been cycled, 60 s have passed and no trip condition holds, so
    the safe state is left and Dawn may start. -/
  | safeStateExit (readings : Timed Readings)
  /-- SENSOR_IMPLAUSIBLE (R436). A sensor pair has disagreed beyond tolerance for 1 s, so Dusk is
    requested with 0x5909 and the latch is set. -/
  | sensorImplausible (t : Nat) (pair : SensorPair)
  /-- NIMBUS_SAMPLE (R431). Nimbus samples every sensor every 1 ms and evaluates store level and
    predictions. -/
  | nimbusSample (t : Nat) (readings : Readings)
  /-- VALVE_COMMAND_UPDATE (R431). Every 10 ms Nimbus sets the valve command from feed-forward and
    feedback. -/
  | valveCommandUpdate (t : Nat)
  /-- NIMBUS_DUSK_REQUEST (R433). A Dusk condition persists for its confirm time, so Dusk is requested
    at the next boundary with its class 0x5 code. -/
  | nimbusDuskRequest (t : Nat) (code : Nat)
  /-- WATCHDOG_SERVICE (R439). The management processor's 10 ms service reaches Stratus and is checked
    for window, sequence and CRC. -/
  | watchdogService (t seq : Nat) (crcOk : Bool)
  /-- WATCHDOG_MISS (R439). Two consecutive missed services make Stratus force a module reset with
    0x5C01. -/
  | watchdogMiss (t : Nat)
  /-- STRATUS_ANSWER_MISSING (R439). Three missing Stratus answers make the management processor
    disable the power stage with 0x5C02. -/
  | stratusAnswerMissing (t : Nat)
  /-- I3C_SETDASA (R454). A target takes a dynamic address from its static address. -/
  | i3cSetdasa (t : Nat) (target : Target) (address : BitVec 7)
  /-- I3C_ENTDAA (R454). A target takes a dynamic address by dynamic address assignment. -/
  | i3cEntdaa (t : Nat) (target : Target) (address : BitVec 7)
  /-- I3C_STATUS (R455). Returns ID_STATUS and JOB_STATE. -/
  | i3cStatus (t : Nat)
  /-- I3C_EVENT (R455). Returns and removes the oldest unread out-of-band event record. -/
  | i3cEvent (t : Nat)
  /-- I3C_TELEMETRY (R455). Returns power and thermal readings. -/
  | i3cTelemetry (t : Nat)
  /-- I3C_SAFETY (R455). Returns SAF_STATUS, the trip or hold code and the Stratus state. -/
  | i3cSafety (t : Nat)
  /-- I3C_TRIP (R455). Returns one stored trip entry. -/
  | i3cTrip (t arg : Nat)
  /-- I3C_UNKNOWN_COMMAND (R455). An unknown command, or a read without a command, returns 0xFF bytes. -/
  | i3cUnknownCommand (t : Nat) (target : Target)
  /-- IN_BAND_INTERRUPT_RETRY (R456). A refused in-band interrupt is raised again every 10 ms until
    accepted. -/
  | inBandInterruptRetry (t : Nat) (accepted : Bool)
  /-- PARTITION_RESET_COMPLETE (R396). A Compute, Media, Tier or Host partition reset finishes within
    its bound, its IN_RESET state ends and any JOB_PREEMPT or JOB_ABORT deferred in SQUALL then runs
    R38. -/
  | partitionResetComplete (t partition : Nat)
  /-- MEMBER_DUSK_CAUSE (R333). Position 0 receives a member's Dusk cause code on the control channel
    and applies it at the first boundary at least 100 us later. -/
  | memberDuskCause (t position code : Nat)
  /-- NEWEST_COMMITTED_TICK_REPORT (R335). During a ring Squall position 0 receives each member's
    newest committed tick and takes c as the least of them. -/
  | newestCommittedTickReport (t position tick : Nat) (restored : Bool)
  /-- STRATUS_SUPPLY_LOSS (R436). The 44 V input falls below 30 V, Stratus and every module output
    lose power, and the I3C dynamic addresses are lost. -/
  | stratusSupplyLoss (t : Nat)
  /-- STRATUS_SUPPLY_RETURN (R436). The 44 V input reaches 30 V, Stratus starts on standby with its
    trip memory, and PWR_EN is evaluated. -/
  | stratusSupplyReturn (t : Nat) (pins : SupplyPins) (vinOk : Bool)
  /-- PERST_N_DEASSERT (R345). PERST_N is deasserted, the endpoint leaves reset, the link trains and
    the 8 s configuration retry period starts. -/
  | perstNDeassert (t : Nat)
  /-- PCIE_LINK_TRAINED (R343). The PCI Express link completes training at some rate and width, and
    that trained bandwidth is used by job-start admission and the boundary re-checks. -/
  | pcieLinkTrained (t mbps : Nat)
  /-- REGISTER_64_HIGH_READ (R44). A read of the high word of a 64-bit register returns the value
    latched by the low-word read and releases the latch. -/
  | register64HighRead (t offset : Nat)
  /-- ERR_ENTRY_LAST_READ (R422). A read of the last word of an ERR_ENTRY returns the latched entry
    and releases the latch. -/
  | errEntryLastRead (t n : Nat)
  /-- I3C_SETMRL (R456). The management target accepts SETMRL and sets the maximum read length that
    its in-band interrupts carry. -/
  | i3cSetmrl (t : Nat) (value : BitVec 16)
deriving DecidableEq, Repr

end Sys2Proof
end

