-- ==== Sys2Proof/Decode.lean ====
section
/-! DEFINITION. The command that a word spells. The table of operations and events gives none of its rows any bits: the
commands reach the block as register writes, flits, edges and events, never as instruction words. No word spells one. -/

namespace Sys2Proof

/-- The command that a word of nbits spells by the table's bits: none, for the table gives no row any bits. -/
def decodeTableWord (_nbits _w : Nat) : Option Instr := none

end Sys2Proof
end

