-- ==== Sys2Proof/Machine/Bits.lean ====
section
/-! DEFINITION. Bit fields, little-endian fields of byte strings, sign extension, the CRC of R266 and the
units of time: what every other file reads and writes fields with. -/

namespace Sys2Proof

/-- Byte i of a byte string as a number; a byte beyond the end is zero. -/
def byteAt (b : Bytes) (i : Nat) : Nat := (b.getD i 0).toNat

/-- The number that a list of bytes spells, little-endian (R8). -/
def leValue : Bytes → Nat
  | [] => 0
  | x :: xs => x.toNat + 256 * leValue xs

/-- The little-endian field of n bytes at byte offset off (R8). -/
def le (b : Bytes) (off n : Nat) : Nat := leValue ((b.drop off).take n)

/-- v as n bytes, little-endian (R8); bits beyond n bytes are dropped. -/
def toLe : Nat → Nat → Bytes
  | 0, _ => []
  | n + 1, v => BitVec.ofNat 8 v :: toLe n (v / 256)

/-- Bits [lo + width - 1 : lo] of a number. -/
def bits (v lo width : Nat) : Nat := (v >>> lo) % 2 ^ width

/-- Bit i of a number. -/
def bitAt (v i : Nat) : Bool := v.testBit i

/-- A Boolean as a bit. -/
def bitOf (b : Bool) : Nat := if b then 1 else 0

/-- The signed value of the low `width` bits of v. -/
def signed (width v : Nat) : Int :=
  let u := v % 2 ^ width
  if 2 * u < 2 ^ width then (u : Int) else (u : Int) - (2 ^ width : Nat)

/-- The two's complement code of an integer in `width` bits. -/
def unsignedOf (width : Nat) (i : Int) : Nat := (i % ((2 ^ width : Nat) : Int)).toNat

/-- i limited to lo..hi. -/
def clampInt (lo hi i : Int) : Int := if i < lo then lo else if hi < i then hi else i

/-- Whether the n bytes at offset off are all zero (a reserved field, R9). -/
def zeroBytes (b : Bytes) (off n : Nat) : Bool := ((b.drop off).take n).all (· == 0)

/-- The n bytes at offset off, short ends filled with zero bytes. -/
def slice (b : Bytes) (off n : Nat) : Bytes :=
  let s := (b.drop off).take n
  s ++ List.replicate (n - s.length) 0

/-- n zero bytes. -/
def zeros (n : Nat) : Bytes := List.replicate n 0

/-- Quotient rounded up. -/
def ceilDiv (a b : Nat) : Nat := (a + b - 1) / b

/-- The least number of bits that hold n - 1: ⌈log2 n⌉ for n ≥ 1. -/
def ceilLog2 (n : Nat) : Nat := if n ≤ 1 then 0 else Nat.log2 (n - 1) + 1

/-- One bit of the CRC-32C register, reflected polynomial 0x82F6_3B78 (R266). -/
def crcBit (r : Nat) : Nat := if r % 2 = 1 then (r / 2) ^^^ 0x82F63B78 else r / 2

/-- One byte into the CRC-32C register (R266). -/
def crcByte (r : Nat) (b : Byte) : Nat :=
  crcBit (crcBit (crcBit (crcBit (crcBit (crcBit (crcBit (crcBit (r ^^^ b.toNat))))))))

/-- CRC-32C with initial value and final exclusive-or 0xFFFF_FFFF (R266). -/
def crc32c (b : Bytes) : Nat := (b.foldl crcByte 0xFFFFFFFF) ^^^ 0xFFFFFFFF

/-- Fields of a register, each a value at its lowest bit, truncated to its width. -/
def packFields (fs : List (Nat × Nat × Nat)) : Nat :=
  fs.foldl (fun v f => v + f.1 % 2 ^ f.2.2 * 2 ^ f.2.1) 0

/-- A signed 16-bit field. -/
def half (i : Int) : Nat := unsignedOf 16 i

/-- ASCII text as bytes. -/
def ascii (s : String) : Bytes := s.toList.map fun c => BitVec.ofNat 8 c.toNat

/-- n nanoseconds in the unit of Time. -/
def ns (n : Nat) : Time := 30000 * n

/-- n microseconds. -/
def us (n : Nat) : Time := ns (1000 * n)

/-- n milliseconds. -/
def ms (n : Nat) : Time := ns (1000000 * n)

/-- n seconds. -/
def sec (n : Nat) : Time := ns (1000000000 * n)

/-- An instant as the module's time counter shows it, in whole ns (Table 2.2). -/
def toNs (t : Time) : Nat := t / 30000

end Sys2Proof
end

