-- ==== Sys2Proof/Machine/Memory.lean ====
section
/-! DEFINITION. A memory as a canonical list of cells: addresses strictly rising, and no cell equal to what an
unlisted address reads as. -/

namespace Sys2Proof

/-- A memory: its cells, in rising address order. -/
structure Memory where
  cells : List Host.Cell
deriving DecidableEq, Repr

namespace Machine

/-- What an address that no write has reached reads as. DESIGN CHOICE (log 5): the manual gives no contents of
RAM after power-on. -/
def unwritten : Byte := 0

/-- The byte that a list of cells holds at address a. -/
def cellsRead : List Host.Cell → Nat → Byte
  | [], _ => unwritten
  | (b, v) :: rest, a => if a = b then v else cellsRead rest a

/-- A list of cells with address a holding v, in canonical form. -/
def cellsWrite : List Host.Cell → Nat → Byte → List Host.Cell
  | [], a, v => if v = unwritten then [] else [(a, v)]
  | (b, w) :: rest, a, v =>
    if a < b then (if v = unwritten then (b, w) :: rest else (a, v) :: (b, w) :: rest)
    else if a = b then (if v = unwritten then rest else (a, v) :: rest)
    else (b, w) :: cellsWrite rest a v

/-- Addresses rise strictly from above lo, and no cell holds the unwritten value. -/
def cellsWf : List Host.Cell → Option Nat → Bool
  | [], _ => true
  | (a, v) :: rest, lo =>
    (match lo with | none => true | some b => decide (b < a)) && (v != unwritten) && cellsWf rest (some a)

end Machine

/-- A memory that nothing has written. -/
def Memory.empty : Memory := ⟨[]⟩

/-- The byte at an address. -/
def Memory.read (m : Memory) (a : Nat) : Byte := Machine.cellsRead m.cells a

/-- The memory with one byte written. -/
def Memory.write (m : Memory) (a : Nat) (v : Byte) : Memory := ⟨Machine.cellsWrite m.cells a v⟩

/-- The canonical form: equal memories are equal lists. -/
def Memory.wf (m : Memory) : Bool := Machine.cellsWf m.cells none

/-- n bytes from an address on. -/
def Memory.readBytes (m : Memory) : Nat → Nat → Bytes
  | _, 0 => []
  | a, n + 1 => m.read a :: m.readBytes (a + 1) n

/-- The memory with a byte string written from an address on. -/
def Memory.writeBytes (m : Memory) : Nat → Bytes → Memory
  | _, [] => m
  | a, v :: vs => (m.write a v).writeBytes (a + 1) vs

/-- The little-endian number in the n bytes at an address (R8). -/
def Memory.readLe (m : Memory) (a n : Nat) : Nat := leValue (m.readBytes a n)

/-- The memory with a list of single-byte writes applied in order. -/
def Memory.writeAll (m : Memory) (ws : List (Nat × Byte)) : Memory :=
  ws.foldl (fun acc w => acc.write w.1 w.2) m

end Sys2Proof
end

