-- ==== Sys2Proof/Machine/Num.lean ====
section
/-! DEFINITION. Numbers: exact values, the floating-point formats, rounding, the FP32 operations and the
conversions of "Number Formats, Rounding and the Canonical Reduction" (R72 to R97, R463). -/

namespace Sys2Proof.Machine

/-- An exact value: NaN, or (-1)^neg × m × 2^e. The sign of zero is kept. -/
inductive Val where
  | nan
  | fin (neg : Bool) (m : Nat) (e : Int)
deriving DecidableEq, Repr

/-- A floating-point format by its grid: p fraction bits, the exponent of the smallest normal value, the
largest magnitude code, whether the format has a negative zero, and the canonical NaN code (Tables 3.2, 3.5). -/
structure Grid where
  p       : Nat
  emin    : Int
  maxCode : Nat
  width   : Nat
  negZero : Bool
  nanCode : Nat
deriving DecidableEq, Repr

/-- FP32 (Table 3.2). -/
def gFp32 : Grid := ⟨23, -126, 0x7F7FFFFF, 32, true, 0x7FC00000⟩
/-- F19, held in 19 bits (Table 3.2). -/
def gF19 : Grid := ⟨10, -126, 0x3FBFF, 19, true, 0x3FE00⟩
/-- BF16 (Table 3.2). -/
def gBf16 : Grid := ⟨7, -126, 0x7F7F, 16, true, 0x7FC0⟩
/-- FP16 (Table 3.2). -/
def gFp16 : Grid := ⟨10, -14, 0x7BFF, 16, true, 0x7E00⟩
/-- F8 elements (Table 3.2, R74). -/
def gF8 : Grid := ⟨3, -6, 0x7F, 8, false, 0x80⟩
/-- F4 elements (Table 3.2, R74). -/
def gF4 : Grid := ⟨1, 0, 0x7, 4, false, 0x8⟩

/-- The formats of Table 3.1. -/
inductive Fmt where
  | fp32 | f19 | bf16 | fp16 | f8 | f8s | f4s | int8 | int32 | u8 | u10p
deriving DecidableEq, Repr

/-- The format of a format code (R72); none outside 0x0 to 0xA. -/
def Fmt.ofCode : Nat → Option Fmt
  | 0x0 => some .fp32 | 0x1 => some .f19 | 0x2 => some .bf16 | 0x3 => some .fp16 | 0x4 => some .f8
  | 0x5 => some .f8s | 0x6 => some .f4s | 0x7 => some .int8 | 0x8 => some .int32 | 0x9 => some .u8
  | 0xA => some .u10p | _ => none

/-- The format code of a format (Table 3.1). -/
def Fmt.code : Fmt → Nat
  | .fp32 => 0 | .f19 => 1 | .bf16 => 2 | .fp16 => 3 | .f8 => 4 | .f8s => 5 | .f4s => 6
  | .int8 => 7 | .int32 => 8 | .u8 => 9 | .u10p => 10

/-- The grid of a floating-point format; none for an integer or pixel format. -/
def Fmt.grid : Fmt → Option Grid
  | .fp32 => some gFp32 | .f19 => some gF19 | .bf16 => some gBf16 | .fp16 => some gFp16
  | .f8 => some gF8 | .f8s => some gF8 | .f4s => some gF4 | _ => none

/-- Whether a format carries block scales (Table 3.1). -/
def Fmt.blockScaled : Fmt → Bool
  | .f8s => true | .f4s => true | _ => false

/-- Whether a format is an integer or pixel format. -/
def Fmt.isInt : Fmt → Bool
  | .int8 => true | .int32 => true | .u8 => true | .u10p => true | _ => false

/-- The range of an integer or pixel format (R84). -/
def Fmt.range : Fmt → Int × Int
  | .int8 => (-128, 127) | .int32 => (-2147483648, 2147483647) | .u8 => (0, 255) | .u10p => (0, 1023)
  | _ => (0, 0)

/-- The bits that an element takes in storage, for U10P its share of a word (Table 3.1). -/
def Fmt.storageBits : Fmt → Nat
  | .fp32 => 32 | .f19 => 32 | .bf16 => 16 | .fp16 => 16 | .f8 => 8 | .f8s => 8 | .f4s => 4
  | .int8 => 8 | .int32 => 32 | .u8 => 8 | .u10p => 10

/-! ### Decoding codes -/

/-- The magnitude that a magnitude code of a grid stands for, as m × 2^e (R73, R74). -/
def Grid.magnitude (g : Grid) (c : Nat) : Nat × Int :=
  let frac := c % 2 ^ g.p
  let ex := c / 2 ^ g.p
  if ex = 0 then (frac, g.emin - g.p) else (frac + 2 ^ g.p, g.emin - g.p + (ex - 1 : Nat))

/-- The value of a code of a grid. A code above the largest finite magnitude is an infinity, read as the
largest finite value (R75), or a NaN (R76). -/
def Grid.decode (g : Grid) (code : Nat) : Val :=
  let c := code % 2 ^ g.width
  let mag := c % 2 ^ (g.width - 1)
  let neg := decide (2 ^ (g.width - 1) ≤ c)
  if !g.negZero && c = g.nanCode then .nan
  else if g.maxCode < mag then
    if mag = g.maxCode + 1 then
      let (m, e) := g.magnitude g.maxCode
      .fin neg m e
    else .nan
  else
    let (m, e) := g.magnitude mag
    .fin neg m e

/-! ### Rounding -/

/-- num / den rounded to an integer, half to even (R86). -/
def rneDiv (num den : Nat) : Nat :=
  let q := num / den
  let r := num % den
  if 2 * r < den then q else if den < 2 * r then q + 1 else if q % 2 = 0 then q else q + 1

/-- 2^k as a numerator and a denominator. -/
def pow2 (k : Int) : Nat × Nat := if 0 ≤ k then (2 ^ k.toNat, 1) else (1, 2 ^ (-k).toNat)

/-- floor(log2 (num / den)) for num, den > 0. -/
def floorLog2 (num den : Nat) : Int :=
  let k : Int := (Nat.log2 num : Int) - (Nat.log2 den : Int)
  let (a, b) := pow2 k
  if num * b < den * a then k - 1 else k

/-- Where num / den falls on a grid: the grid step above which it lies (as the code of the representable
magnitude not above it), and the remainder over the step as a fraction. -/
def Grid.locate (g : Grid) (num den : Nat) : Nat × Nat × Nat :=
  let ex := floorLog2 num den
  let ex := if ex < g.emin then g.emin else ex
  let q := ex - g.p
  let (a, b) := pow2 q
  let n := num * b / (den * a)
  let base := (q - (g.emin - g.p)).toNat * 2 ^ g.p
  (base + n, num * b % (den * a), den * a)

/-- The magnitude code nearest num / den, ties to the even code (R86), saturating (R77). -/
def Grid.roundMag (g : Grid) (num den : Nat) : Nat :=
  if num = 0 then 0 else
    let (c, r, d) := g.locate num den
    let c' := if 2 * r < d then c else if d < 2 * r then c + 1 else if c % 2 = 0 then c else c + 1
    min c' g.maxCode

/-- The magnitude code of num / den by stochastic rounding with r bits and draw u (R87). -/
def Grid.roundSr (g : Grid) (num den r u : Nat) : Nat :=
  if num = 0 then 0 else
    let (c, rem, d) := g.locate num den
    if g.maxCode ≤ c then g.maxCode
    else
      let q := 2 ^ r * rem / d
      if 2 ^ r ≤ q + u then c + 1 else c

/-- The magnitude code of num / den truncated toward zero (R83, R170). -/
def Grid.roundTrunc (g : Grid) (num den : Nat) : Nat :=
  if num = 0 then 0 else
    let (c, _, _) := g.locate num den
    min c g.maxCode

/-- A signed code from a magnitude code: a zero of a format without negative zero is +0 (R79). -/
def Grid.withSign (g : Grid) (neg : Bool) (mag : Nat) : Nat :=
  if neg && (g.negZero || mag != 0) then mag + 2 ^ (g.width - 1) else mag

/-- A rounding of Table 3.7. -/
inductive Rounding where
  | rne
  | trunc
  /-- Stochastic with the 4 most significant bits of w0 of the draw, or 3 of them (R87, R191). -/
  | sr (w0 : Nat)
deriving DecidableEq, Repr

/-- How many random bits a stochastic rounding into a grid takes (Table 3.7). -/
def Grid.srBits (g : Grid) : Nat := if g.width = 16 then 3 else 4

/-- The draw u of R191: the r most significant bits of w0. -/
def srDraw (r w0 : Nat) : Nat := w0 / 2 ^ (32 - r)

/-- num / den with a sign, rounded into a grid. -/
def Grid.encodeRat (g : Grid) (rd : Rounding) (neg : Bool) (num den : Nat) : Nat :=
  g.withSign neg (match rd with
    | .rne => g.roundMag num den
    | .trunc => g.roundTrunc num den
    | .sr w0 => g.roundSr num den g.srBits (srDraw g.srBits w0))

/-- A value rounded into a grid; NaN becomes the canonical NaN (R76). -/
def Grid.encode (g : Grid) (rd : Rounding) : Val → Nat
  | .nan => g.nanCode
  | .fin neg m e => let (a, b) := pow2 e; g.encodeRat rd neg (m * a) b

/-! ### FP32 words -/

/-- The canonical FP32 NaN (Table 3.5). -/
def nan32 : Word := 0x7FC00000#32
/-- The largest finite FP32 value. -/
def max32 : Word := 0x7F7FFFFF#32
/-- The most negative finite FP32 value. -/
def lowest32 : Word := 0xFF7FFFFF#32
/-- FP32 +0. -/
def zero32 : Word := 0#32
/-- FP32 1.0. -/
def one32 : Word := 0x3F800000#32

/-- The value of an FP32 word (R75, R76). -/
def val32 (w : Word) : Val := gFp32.decode w.toNat

/-- A value rounded to FP32 by RNE. -/
def round32 (v : Val) : Word := BitVec.ofNat 32 (gFp32.encode .rne v)

/-- An FP32 word as it is read from memory: an infinity is the largest finite value, a NaN the canonical one (R75, R76). -/
def canon32 (w : Word) : Word := round32 (val32 w)

/-- A signed fraction rounded to FP32; `neg` gives the sign of a zero. -/
def ratio32 (rd : Rounding) (neg : Bool) (num den : Nat) : Word := BitVec.ofNat 32 (gFp32.encodeRat rd neg num den)

/-- Whether an FP32 word is a NaN. -/
def isNan32 (w : Word) : Bool := match val32 w with | .nan => true | _ => false

/-- Whether an FP32 word is a zero of either sign. -/
def isZero32 (w : Word) : Bool := w.toNat % 0x80000000 == 0

/-- Whether the sign bit of an FP32 word is set. -/
def signBit32 (w : Word) : Bool := w.msb

/-- An exact signed binary fraction i × 2^e with the sign that a zero takes. -/
structure Exact where
  i   : Int
  e   : Int
  neg : Bool
deriving DecidableEq, Repr

/-- The exact value of a finite Val. -/
def Val.exact : Val → Option Exact
  | .nan => none
  | .fin neg m e => some ⟨if neg then -(m : Int) else m, e, neg⟩

/-- i × 2^(e - k) for k ≤ e. -/
def scaleTo (i : Int) (e k : Int) : Int := i * (2 ^ (e - k).toNat : Nat)

/-- The exact sum. A zero sum is -0 only of two negative zeros (R79). -/
def Exact.add (x y : Exact) : Exact :=
  let k := min x.e y.e
  let s := scaleTo x.i x.e k + scaleTo y.i y.e k
  ⟨s, k, if s = 0 then (x.neg && y.neg && x.i = 0 && y.i = 0) else decide (s < 0)⟩

/-- The exact product; its sign is the exclusive-or of the signs (R79). -/
def Exact.mul (x y : Exact) : Exact := ⟨x.i * y.i, x.e + y.e, xor x.neg y.neg⟩

/-- The exact negation. -/
def Exact.negate (x : Exact) : Exact := ⟨-x.i, x.e, !x.neg⟩

/-- An exact value as a Val. -/
def Exact.val (x : Exact) : Val := .fin (if x.i = 0 then x.neg else decide (x.i < 0)) x.i.natAbs x.e

/-- An exact integer. -/
def Exact.ofInt (i : Int) : Exact := ⟨i, 0, decide (i < 0)⟩

/-- An exact value rounded to FP32, rounding once (R86, R77, R79). -/
def Exact.to32 (rd : Rounding) (x : Exact) : Word := BitVec.ofNat 32 (gFp32.encode rd x.val)

/-- The exact value of an FP32 word; none for a NaN. -/
def exact32 (w : Word) : Option Exact := (val32 w).exact

/-- An operation on two exact operands; a NaN operand gives NaN (R76). -/
def lift2 (f : Exact → Exact → Word) (a b : Word) : Word :=
  match exact32 a, exact32 b with
  | some x, some y => f x y
  | _, _ => nan32

/-- FP32 addition in a rounding (R93: add_rne for RNE; R170 for truncation). -/
def addR (rd : Rounding) (a b : Word) : Word := lift2 (fun x y => (x.add y).to32 rd) a b
/-- FP32 subtraction in a rounding. -/
def subR (rd : Rounding) (a b : Word) : Word := lift2 (fun x y => (x.add y.negate).to32 rd) a b
/-- FP32 multiplication in a rounding. -/
def mulR (rd : Rounding) (a b : Word) : Word := lift2 (fun x y => (x.mul y).to32 rd) a b
/-- FP32 fused multiply-add, rounding once. -/
def fmaR (rd : Rounding) (a b c : Word) : Word :=
  match exact32 a, exact32 b, exact32 c with
  | some x, some y, some z => ((x.mul y).add z).to32 rd
  | _, _, _ => nan32

/-- add_rne of R93. -/
def add32 (a b : Word) : Word := addR .rne a b
/-- FP32 subtraction by RNE. -/
def sub32 (a b : Word) : Word := subR .rne a b
/-- FP32 multiplication by RNE. -/
def mul32 (a b : Word) : Word := mulR .rne a b
/-- FP32 fused multiply-add by RNE. -/
def fma32 (a b c : Word) : Word := fmaR .rne a b c

/-- The quotient of R463, rounded once. -/
def div32 (a b : Word) : Word :=
  match val32 a, val32 b with
  | .fin s m e, .fin s' m' e' =>
    if m' = 0 then (if m = 0 then nan32 else BitVec.ofNat 32 (gFp32.withSign (xor s s') gFp32.maxCode))
    else
      let (p, q) := pow2 (e - e')
      ratio32 .rne (xor s s') (m * p) (m' * q)
  | _, _ => nan32

/-- -a (Table 5.4); NaN gives the canonical NaN. -/
def neg32 (a : Word) : Word := if isNan32 a then nan32 else round32 (match val32 a with
  | .nan => .nan | .fin s m e => .fin (!s) m e)

/-- |a| (Table 5.4). -/
def abs32 (a : Word) : Word := if isNan32 a then nan32 else round32 (match val32 a with
  | .nan => .nan | .fin _ m e => .fin false m e)

/-- The order of two values that are not NaN: -1, 0 or 1; -0 and +0 are equal (R131). -/
def cmpExact (x y : Exact) : Int :=
  let k := min x.e y.e
  let d := scaleTo x.i x.e k - scaleTo y.i y.e k
  if d < 0 then -1 else if d = 0 then 0 else 1

/-- a < b; false with a NaN operand. -/
def lt32 (a b : Word) : Bool := match exact32 a, exact32 b with
  | some x, some y => cmpExact x y == -1 | _, _ => false

/-- a = b, with -0 = +0; false with a NaN operand. -/
def eq32 (a b : Word) : Bool := match exact32 a, exact32 b with
  | some x, some y => cmpExact x y == 0 | _, _ => false

/-- The smaller of a and b; MIN(-0, +0) = -0 (Table 5.4). -/
def min32 (a b : Word) : Word := lift2 (fun x y =>
  if cmpExact x y = 0 then (if x.neg then x.to32 .rne else y.to32 .rne)
  else if cmpExact x y = -1 then x.to32 .rne else y.to32 .rne) a b

/-- The larger of a and b; MAX(-0, +0) = +0 (Table 5.4). -/
def max32op (a b : Word) : Word := lift2 (fun x y =>
  if cmpExact x y = 0 then (if x.neg then y.to32 .rne else x.to32 .rne)
  else if cmpExact x y = -1 then y.to32 .rne else x.to32 .rne) a b

/-- Directions of integral rounding (Table 5.4, RINT MOD). DESIGN CHOICE (log 33): R131 says that -0.3 gives -0 in every
MOD and also that the MOD selects the direction; the direction is followed, so MOD 1, floor, gives -1. -/
def roundInt (mod : Nat) (neg : Bool) (m : Nat) (e : Int) : Int :=
  let (a, b) := pow2 e
  let num := m * a
  let q := num / b
  let exact := num % b == 0
  let mag : Nat := match mod with
    | 0 => rneDiv num b
    | 1 => if neg && !exact then q + 1 else q
    | 2 => if !neg && !exact then q + 1 else q
    | _ => q
  if neg then -(mag : Int) else mag

/-- RINT: a rounded to an integral value; an integral zero keeps the sign of a (R131). -/
def rint32 (mod : Nat) (a : Word) : Word :=
  match val32 a with
  | .nan => nan32
  | .fin neg m e => round32 (.fin neg (roundInt mod neg m e).natAbs 0)

/-- floor(a) as an integer, for a value that is not NaN. -/
def floorInt (a : Word) : Int := match val32 a with
  | .nan => 0 | .fin neg m e => roundInt 1 neg m e

/-- An integer rounded to FP32 by RNE (CVTI). -/
def ofInt32 (i : Int) : Word := (Exact.ofInt i).to32 .rne

/-- a converted to INT32: integral rounding by mod, clamped; NaN gives 0 (CVTF). -/
def toInt32 (mod : Nat) (a : Word) : Int := match val32 a with
  | .nan => 0
  | .fin neg m e => clampInt (-2147483648) 2147483647 (roundInt mod neg m e)

/-- scale(y, i) of R159: y × 2^i with one rounding. -/
def scale32 (y : Word) (i : Int) : Word := match val32 y with
  | .nan => nan32
  | .fin neg m e => round32 (.fin neg m (e + i))

/-- split(|a|) of R159: e and m with |a| = m × 2^e and 1 ≤ m < 2, for a finite and not zero. -/
def split32 (a : Word) : Int × Word := match val32 a with
  | .nan => (0, nan32)
  | .fin _ m e =>
    if m = 0 then (0, zero32)
    else
      let k : Int := Nat.log2 m
      (e + k, round32 (.fin false m (-k)))

/-! ### Sums -/

/-- The exact sum of a list of values as one exact value; none when a term is NaN. The sum of no terms is +0,
and a zero sum is -0 only when every term is -0 (R79). -/
def sumExact : List (Option Exact) → Option Exact
  | [] => some ⟨0, 0, false⟩
  | [x] => x
  | x :: xs => match x, sumExact xs with
    | some a, some b => some (a.add b)
    | _, _ => none

/-- The exact sum of a list of values, rounded once to FP32; NaN when a term is NaN (R91). -/
def sum32 (l : List (Option Exact)) : Word := match sumExact l with
  | none => nan32
  | some x => x.to32 .rne

/-- The ordered FP32 sum of a list of products (R93). -/
def orderedSum : List Word → Word
  | [] => zero32
  | p :: ps => ps.foldl add32 p

/-- The split point of tree(lo, hi): lo plus the largest power of two below hi - lo (R94). -/
def treeSplit (lo hi : Nat) : Nat :=
  if hi - lo ≤ 1 then hi else lo + 2 ^ (ceilLog2 (hi - lo) - 1)

/-- tree(lo, hi) of R94 over leaves and a combine, with the tree's operand order; fuel bounds the depth. -/
def treeFold {α : Type} (f : α → α → α) (leaf : Nat → α) : Nat → Nat → Nat → α
  | 0, lo, _ => leaf lo
  | fuel + 1, lo, hi =>
    if hi - lo ≤ 1 then leaf lo
    else
      let m := treeSplit lo hi
      f (treeFold f leaf fuel lo m) (treeFold f leaf fuel m hi)

/-- The root of tree(lo, hi) (R94). -/
def tree {α : Type} (f : α → α → α) (leaf : Nat → α) (lo hi : Nat) : α :=
  treeFold f leaf (ceilLog2 (hi - lo) + 1) lo hi

/-- Whether tree(lo0, hi0) evaluates the node tree(lo, hi) (R94, R96). -/
def isNodeFuel (lo hi : Nat) : Nat → Nat → Nat → Bool
  | 0, _, _ => false
  | fuel + 1, lo0, hi0 =>
    if lo0 = lo ∧ hi0 = hi then true
    else if hi0 - lo0 ≤ 1 then false
    else
      let m := treeSplit lo0 hi0
      if hi ≤ m then isNodeFuel lo hi fuel lo0 m
      else if m ≤ lo then isNodeFuel lo hi fuel m hi0
      else false

/-- Whether [lo, hi) is a node of tree(0, n). -/
def isNode (n lo hi : Nat) : Bool := lo < hi && hi ≤ n && isNodeFuel lo hi (ceilLog2 n + 2) 0 n

/-- The combine of parts above their nodes in tree(0, n): leaves are the nodes that `part` gives a value (R96). -/
def treeParts {α : Type} (f : α → α → α) (part : Nat → Nat → Option α) : Nat → Nat → Nat → Option α
  | 0, lo, hi => part lo hi
  | fuel + 1, lo, hi => match part lo hi with
    | some v => some v
    | none =>
      if hi - lo ≤ 1 then none
      else
        let m := treeSplit lo hi
        match treeParts f part fuel lo m, treeParts f part fuel m hi with
        | some a, some b => some (f a b)
        | _, _ => none

/-! ### Conversions (Table 3.8) -/

/-- The scale of a block-scale byte, as a power of two; none for the NaN scale 0xFF (R80). -/
def blockScale (e : Nat) : Option Int := if e = 0xFF then none else some ((e : Int) - 127)

/-- A value with the scale of its block applied, exactly (R80). -/
def applyScale (scale : Nat) : Val → Val
  | .nan => .nan
  | .fin neg m e => match blockScale scale with
    | none => .nan
    | some k => .fin neg m (e + k)

/-- The value of an element code with its block scale; an integer or pixel code is its integer (R84), and the code of a tensor of
format F19 is FP32 data (R72). -/
def elementVal (f : Fmt) (code scale : Nat) : Val :=
  match f.grid with
  | some g =>
    if f = .f19 then gFp32.decode code
    else if f.blockScaled then applyScale scale (g.decode code) else g.decode code
  | none =>
    let i : Int := match f with
      | .int8 => signed 8 code | .int32 => signed 32 code | .u8 => (code % 256 : Nat) | _ => (code % 1024 : Nat)
    .fin (decide (i < 0)) i.natAbs 0

/-- The F19 value formed from an FP32 value on read (R83). -/
def toF19 (truncate : Bool) (v : Val) : Val :=
  gF19.decode (gF19.encode (if truncate then .trunc else .rne) v)

/-- A value converted to an integer format: RNE or stochastic, clamped; NaN gives 0 (Table 3.8, R87). -/
def toIntFmt (f : Fmt) (rd : Rounding) : Val → Int
  | .nan => 0
  | .fin neg m e =>
    let (lo, hi) := f.range
    let (a, b) := pow2 e
    let num := m * a
    let mag : Nat := match rd with
      | .sr w0 =>
        let q := 16 * (num % b) / b
        if 16 ≤ q + srDraw 4 w0 then num / b + 1 else num / b
      | .trunc => num / b
      | .rne => rneDiv num b
    clampInt lo hi (if neg then -(mag : Int) else mag)

/-- The storage code of an integer in an integer format. -/
def intCode (f : Fmt) (i : Int) : Nat := unsignedOf f.storageBits i

/-- The block scale byte of R82 for a block of values: M = 480 for F8S and 6 for F4S. -/
def chooseScale (f : Fmt) (vs : List Val) : Nat :=
  let M := if f = .f8s then 480 else 6
  let mags := vs.filterMap fun v => match v with
    | .nan => none | .fin _ m e => some (⟨(m : Int), e, false⟩ : Exact)
  let amax := mags.foldl (fun a x => if cmpExact a x = -1 then x else a) ⟨0, 0, false⟩
  if amax.i = 0 then 0x7F
  else
    -- the smallest t with amax ≤ M × 2^t: one of two neighbouring exponents
    let (a, b) := pow2 amax.e
    let t0 := floorLog2 (amax.i.natAbs * a) (b * M)
    let (p, q) := pow2 t0
    let t := if amax.i.natAbs * a * q ≤ b * M * p then t0 else t0 + 1
    (clampInt (-127) 127 t + 127).toNat

/-- One value converted to a format that is not block-scaled (Table 3.8). F19 is never stored: what a tensor of that format
takes is FP32 data (R72). -/
def convertElement (f : Fmt) (rd : Rounding) (v : Val) : Nat :=
  if f = .f19 then gFp32.encode rd v
  else match f.grid with
  | some g => g.encode rd v
  | none => intCode f (toIntFmt f rd v)

/-- One element of a block: v × 2^-t rounded to the element format (R82). -/
def convertScaled (f : Fmt) (rd : Rounding) (scale : Nat) (v : Val) : Nat :=
  let g := if f = .f8s then gF8 else gF4
  match v with
  | .nan => g.nanCode
  | .fin neg m e => g.encode rd (.fin neg m (e - ((scale : Int) - 127)))

/-- The FP32 word that a value of a conversion through FP32 takes: every format widens exactly (R89). -/
def widen32 (v : Val) : Word := round32 v

end Sys2Proof.Machine
end

