-- ==== Sys2Proof/Machine/Rom.lean ====
section
/-! DEFINITION. The ROM of the special-function units and the lane generators: the seeds and constants of Table 6.2
and the inverse-CDF coefficients of R190, as FP32 codes. Each code is the FP32 value nearest, by RNE, to the exact
quantity that the manual defines; the codes were computed from those definitions with 90 decimal digits (log 8). -/

namespace Sys2Proof.Machine

/-- T[j] = 2^(j/64), j = 0 to 64: entries 0 to 63 (Table 6.2). -/
def romTPart0 : List Nat :=
  [0x3F800000, 0x3F8164D2, 0x3F82CD87, 0x3F843A29, 0x3F85AAC3, 0x3F871F62, 0x3F88980F, 0x3F8A14D5,
   0x3F8B95C2, 0x3F8D1ADF, 0x3F8EA43A, 0x3F9031DC, 0x3F91C3D3, 0x3F935A2B, 0x3F94F4F0, 0x3F96942D,
   0x3F9837F0, 0x3F99E046, 0x3F9B8D3A, 0x3F9D3EDA, 0x3F9EF532, 0x3FA0B051, 0x3FA27043, 0x3FA43516,
   0x3FA5FED7, 0x3FA7CD94, 0x3FA9A15B, 0x3FAB7A3A, 0x3FAD583F, 0x3FAF3B79, 0x3FB123F6, 0x3FB311C4,
   0x3FB504F3, 0x3FB6FD92, 0x3FB8FBAF, 0x3FBAFF5B, 0x3FBD08A4, 0x3FBF179A, 0x3FC12C4D, 0x3FC346CD,
   0x3FC5672A, 0x3FC78D75, 0x3FC9B9BE, 0x3FCBEC15, 0x3FCE248C, 0x3FD06334, 0x3FD2A81E, 0x3FD4F35B,
   0x3FD744FD, 0x3FD99D16, 0x3FDBFBB8, 0x3FDE60F5, 0x3FE0CCDF, 0x3FE33F89, 0x3FE5B907, 0x3FE8396A,
   0x3FEAC0C7, 0x3FED4F30, 0x3FEFE4BA, 0x3FF28177, 0x3FF5257D, 0x3FF7D0DF, 0x3FFA83B3, 0x3FFD3E0C]

/-- T[j] = 2^(j/64), j = 0 to 64: entries 64 to 64 (Table 6.2). -/
def romTPart1 : List Nat :=
  [0x40000000]

/-- T[j] = 2^(j/64), j = 0 to 64, in rows of 64 entries. -/
def romT : List (List Nat) :=
  [romTPart0, romTPart1]

/-- S[j] = 1 / (1 + (2j + 1)/256): entries 0 to 63 (Table 6.2). -/
def romSPart0 : List Nat :=
  [0x3F7F00FF, 0x3F7D08E5, 0x3F7B1885, 0x3F792FB2, 0x3F774E40, 0x3F757404, 0x3F73A0D5, 0x3F71D48C,
   0x3F700F01, 0x3F6E500F, 0x3F6C9791, 0x3F6AE564, 0x3F693965, 0x3F679373, 0x3F65F36D, 0x3F645933,
   0x3F62C4A7, 0x3F6135AA, 0x3F5FAC1F, 0x3F5E27EB, 0x3F5CA8F1, 0x3F5B2F17, 0x3F59BA42, 0x3F584A5A,
   0x3F56DF44, 0x3F5578E9, 0x3F541733, 0x3F52BA08, 0x3F516154, 0x3F500D01, 0x3F4EBCF9, 0x3F4D7127,
   0x3F4C2978, 0x3F4AE5D8, 0x3F49A634, 0x3F486A79, 0x3F473294, 0x3F45FE74, 0x3F44CE08, 0x3F43A13E,
   0x3F427806, 0x3F415250, 0x3F40300C, 0x3F3F112B, 0x3F3DF59D, 0x3F3CDD53, 0x3F3BC841, 0x3F3AB656,
   0x3F39A786, 0x3F389BC3, 0x3F379301, 0x3F368D31, 0x3F358A48, 0x3F348A3A, 0x3F338CFA, 0x3F32927C,
   0x3F319AB6, 0x3F30A59B, 0x3F2FB322, 0x3F2EC33E, 0x3F2DD5E6, 0x3F2CEB10, 0x3F2C02B0, 0x3F2B1CBE]

/-- S[j] = 1 / (1 + (2j + 1)/256): entries 64 to 127 (Table 6.2). -/
def romSPart1 : List Nat :=
  [0x3F2A392F, 0x3F2957FB, 0x3F287917, 0x3F279C7B, 0x3F26C21E, 0x3F25E9F7, 0x3F2513FD, 0x3F244029,
   0x3F236E72, 0x3F229ECF, 0x3F21D13A, 0x3F2105A9, 0x3F203C17, 0x3F1F747A, 0x3F1EAECD, 0x3F1DEB07,
   0x3F1D2922, 0x3F1C6917, 0x3F1BAADF, 0x3F1AEE73, 0x3F1A33CD, 0x3F197AE7, 0x3F18C3BB, 0x3F180E41,
   0x3F175A75, 0x3F16A850, 0x3F15F7CC, 0x3F1548E5, 0x3F149B93, 0x3F13EFD2, 0x3F13459C, 0x3F129CEC,
   0x3F11F5BD, 0x3F115009, 0x3F10ABCC, 0x3F100901, 0x3F0F67A2, 0x3F0EC7AB, 0x3F0E2918, 0x3F0D8BE3,
   0x3F0CF009, 0x3F0C5584, 0x3F0BBC51, 0x3F0B246B, 0x3F0A8DCD, 0x3F09F874, 0x3F09645C, 0x3F08D181,
   0x3F083FDE, 0x3F07AF70, 0x3F072033, 0x3F069223, 0x3F06053C, 0x3F05797C, 0x3F04EEDD, 0x3F04655E,
   0x3F03DCF9, 0x3F0355AD, 0x3F02CF75, 0x3F024A4E, 0x3F01C636, 0x3F014328, 0x3F00C122, 0x3F004020]

/-- S[j] = 1 / (1 + (2j + 1)/256), in rows of 64 entries. -/
def romS : List (List Nat) :=
  [romSPart0, romSPart1]

/-- Q[j] = 1 / √(1 + (2j + 1)/128): entries 0 to 63 (Table 6.2). -/
def romQPart0 : List Nat :=
  [0x3F7F017E, 0x3F7D0D3E, 0x3F7B2452, 0x3F79464E, 0x3F7772CB, 0x3F75A969, 0x3F73E9CB, 0x3F723399,
   0x3F708681, 0x3F6EE232, 0x3F6D4660, 0x3F6BB2C5, 0x3F6A271A, 0x3F68A31D, 0x3F672691, 0x3F65B139,
   0x3F6442DB, 0x3F62DB41, 0x3F617A36, 0x3F601F87, 0x3F5ECB04, 0x3F5D7C7F, 0x3F5C33CC, 0x3F5AF0BF,
   0x3F59B330, 0x3F587AF7, 0x3F5747EE, 0x3F5619F2, 0x3F54F0DF, 0x3F53CC93, 0x3F52ACEE, 0x3F5191D1,
   0x3F507B1D, 0x3F4F68B6, 0x3F4E5A7F, 0x3F4D505E, 0x3F4C4A38, 0x3F4B47F4, 0x3F4A497A, 0x3F494EB3,
   0x3F485787, 0x3F4763E2, 0x3F4673AC, 0x3F4586D3, 0x3F449D42, 0x3F43B6E6, 0x3F42D3AD, 0x3F41F383,
   0x3F411659, 0x3F403C1C, 0x3F3F64BD, 0x3F3E902C, 0x3F3DBE58, 0x3F3CEF34, 0x3F3C22B1, 0x3F3B58C0,
   0x3F3A9154, 0x3F39CC60, 0x3F3909D6, 0x3F3849AA, 0x3F378BD0, 0x3F36D03D, 0x3F3616E4, 0x3F355FBA]

/-- Q[j] = 1 / √(1 + (2j + 1)/128): entries 64 to 127 (Table 6.2). -/
def romQPart1 : List Nat :=
  [0x3F34AAB4, 0x3F33F7C9, 0x3F3346ED, 0x3F329816, 0x3F31EB3B, 0x3F314052, 0x3F309752, 0x3F2FF032,
   0x3F2F4AE9, 0x3F2EA76E, 0x3F2E05BA, 0x3F2D65C3, 0x3F2CC782, 0x3F2C2AF0, 0x3F2B9004, 0x3F2AF6B7,
   0x3F2A5F03, 0x3F29C8E0, 0x3F293446, 0x3F28A131, 0x3F280F98, 0x3F277F76, 0x3F26F0C4, 0x3F26637D,
   0x3F25D79A, 0x3F254D15, 0x3F24C3EA, 0x3F243C11, 0x3F23B587, 0x3F233045, 0x3F22AC46, 0x3F222985,
   0x3F21A7FE, 0x3F2127AC, 0x3F20A889, 0x3F202A91, 0x3F1FADC0, 0x3F1F3210, 0x3F1EB77F, 0x3F1E3E06,
   0x3F1DC5A3, 0x3F1D4E52, 0x3F1CD80D, 0x3F1C62D1, 0x3F1BEE9B, 0x3F1B7B67, 0x3F1B0930, 0x3F1A97F3,
   0x3F1A27AE, 0x3F19B85B, 0x3F1949F8, 0x3F18DC82, 0x3F186FF5, 0x3F18044E, 0x3F17998A, 0x3F172FA5,
   0x3F16C69E, 0x3F165E70, 0x3F15F718, 0x3F159095, 0x3F152AE3, 0x3F14C5FF, 0x3F1461E7, 0x3F13FE97]

/-- Q[j] = 1 / √(1 + (2j + 1)/128): entries 128 to 191 (Table 6.2). -/
def romQPart2 : List Nat :=
  [0x3F139C0E, 0x3F133A49, 0x3F12D945, 0x3F127900, 0x3F121978, 0x3F11BAA9, 0x3F115C92, 0x3F10FF30,
   0x3F10A281, 0x3F104684, 0x3F0FEB35, 0x3F0F9092, 0x3F0F369A, 0x3F0EDD4A, 0x3F0E84A0, 0x3F0E2C9B,
   0x3F0DD538, 0x3F0D7E75, 0x3F0D2851, 0x3F0CD2C9, 0x3F0C7DDC, 0x3F0C2988, 0x3F0BD5CB, 0x3F0B82A4,
   0x3F0B3010, 0x3F0ADE0E, 0x3F0A8C9D, 0x3F0A3BBA, 0x3F09EB64, 0x3F099B9A, 0x3F094C59, 0x3F08FDA1,
   0x3F08AF6F, 0x3F0861C3, 0x3F08149B, 0x3F07C7F5, 0x3F077BD0, 0x3F07302A, 0x3F06E503, 0x3F069A58,
   0x3F065029, 0x3F060674, 0x3F05BD38, 0x3F057474, 0x3F052C25, 0x3F04E44C, 0x3F049CE7, 0x3F0455F4,
   0x3F040F72, 0x3F03C961, 0x3F0383BF, 0x3F033E8B, 0x3F02F9C3, 0x3F02B568, 0x3F027176, 0x3F022DEF,
   0x3F01EAD0, 0x3F01A818, 0x3F0165C6, 0x3F0123DA, 0x3F00E253, 0x3F00A12E, 0x3F00606D, 0x3F00200C]

/-- Q[j] = 1 / √(1 + (2j + 1)/128), in rows of 64 entries. -/
def romQ : List (List Nat) :=
  [romQPart0, romQPart1, romQPart2]

/-- U[j] = 1 / (0.75 + (2j + 1)/256): entries 0 to 63 (Table 6.2). -/
def romUPart0 : List Nat :=
  [0x3FA9C84A, 0x3FA80A81, 0x3FA655C4, 0x3FA4A9CF, 0x3FA3065E, 0x3FA16B31, 0x3F9FD80A, 0x3F9E4CAD,
   0x3F9CC8E1, 0x3F9B4C70, 0x3F99D723, 0x3F9868C8, 0x3F97012E, 0x3F95A025, 0x3F944581, 0x3F92F114,
   0x3F91A2B4, 0x3F905A38, 0x3F8F177A, 0x3F8DDA52, 0x3F8CA29C, 0x3F8B7034, 0x3F8A42F8, 0x3F891AC7,
   0x3F87F781, 0x3F86D905, 0x3F85BF37, 0x3F84A9FA, 0x3F839930, 0x3F828CC0, 0x3F81848E, 0x3F808081,
   0x3F7F00FF, 0x3F7D08E5, 0x3F7B1885, 0x3F792FB2, 0x3F774E40, 0x3F757404, 0x3F73A0D5, 0x3F71D48C,
   0x3F700F01, 0x3F6E500F, 0x3F6C9791, 0x3F6AE564, 0x3F693965, 0x3F679373, 0x3F65F36D, 0x3F645933,
   0x3F62C4A7, 0x3F6135AA, 0x3F5FAC1F, 0x3F5E27EB, 0x3F5CA8F1, 0x3F5B2F17, 0x3F59BA42, 0x3F584A5A,
   0x3F56DF44, 0x3F5578E9, 0x3F541733, 0x3F52BA08, 0x3F516154, 0x3F500D01, 0x3F4EBCF9, 0x3F4D7127]

/-- U[j] = 1 / (0.75 + (2j + 1)/256): entries 64 to 95 (Table 6.2). -/
def romUPart1 : List Nat :=
  [0x3F4C2978, 0x3F4AE5D8, 0x3F49A634, 0x3F486A79, 0x3F473294, 0x3F45FE74, 0x3F44CE08, 0x3F43A13E,
   0x3F427806, 0x3F415250, 0x3F40300C, 0x3F3F112B, 0x3F3DF59D, 0x3F3CDD53, 0x3F3BC841, 0x3F3AB656,
   0x3F39A786, 0x3F389BC3, 0x3F379301, 0x3F368D31, 0x3F358A48, 0x3F348A3A, 0x3F338CFA, 0x3F32927C,
   0x3F319AB6, 0x3F30A59B, 0x3F2FB322, 0x3F2EC33E, 0x3F2DD5E6, 0x3F2CEB10, 0x3F2C02B0, 0x3F2B1CBE]

/-- U[j] = 1 / (0.75 + (2j + 1)/256), in rows of 64 entries. -/
def romU : List (List Nat) :=
  [romUPart0, romUPart1]

/-- L[j] = −log2(U[j]), taking the stored U[j]: entries 0 to 63 (Table 6.2). -/
def romLPart0 : List Nat :=
  [0xBED0A977, 0xBEC90C02, 0xBEC1826C, 0xBEBA0C56, 0xBEB2A959, 0xBEAB5916, 0xBEA41B2F, 0xBE9CEF46,
   0xBE95D504, 0xBE8ECC18, 0xBE87D425, 0xBE80ECDE, 0xBE742BEA, 0xBE669E35, 0xBE593016, 0xBE4BE0EA,
   0xBE3EB027, 0xBE319D42, 0xBE24A7C5, 0xBE17CF19, 0xBE0B12C9, 0xBDFCE4A9, 0xBDE3DA8B, 0xBDCB0653,
   0xBDB2671E, 0xBD99FBE1, 0xBD81C3EF, 0xBD537CEB, 0xBD23D4F5, 0xBCE91D95, 0xBC8B512E, 0xBBB90785,
   0x3BB84E24, 0x3C89B197, 0x3CE49B30, 0x3D1F6988, 0x3D4C2DF8, 0x3D789C48, 0x3D925ADE, 0x3DA83DBF,
   0x3DBDF774, 0x3DD3888E, 0x3DE8F1A8, 0x3DFE3351, 0x3E09A70E, 0x3E14214A, 0x3E1E88A1, 0x3E28DD5C,
   0x3E331FB5, 0x3E3D4FF5, 0x3E476E5A, 0x3E517B1A, 0x3E5B767B, 0x3E6560B3, 0x3E6F3A01, 0x3E790297,
   0x3E815D5D, 0x3E86314D, 0x3E8AFD32, 0x3E8FC131, 0x3E947D5B, 0x3E9931CA, 0x3E9DDE9C, 0x3EA283E9]

/-- L[j] = −log2(U[j]), taking the stored U[j]: entries 64 to 95 (Table 6.2). -/
def romLPart1 : List Nat :=
  [0x3EA721C6, 0x3EABB84A, 0x3EB0478E, 0x3EB4CFA8, 0x3EB950B1, 0x3EBDCABD, 0x3EC23DE0, 0x3EC6AA33,
   0x3ECB0FC8, 0x3ECF6EB4, 0x3ED3C70A, 0x3ED818DE, 0x3EDC6445, 0x3EE0A955, 0x3EE4E816, 0x3EE920A6,
   0x3EED5312, 0x3EF17F6C, 0x3EF5A5C1, 0x3EF9C62C, 0x3EFDE0B7, 0x3F00FAB9, 0x3F030238, 0x3F0506E2,
   0x3F0708BB, 0x3F0907CF, 0x3F0B0421, 0x3F0CFDBE, 0x3F0EF4A9, 0x3F10E8EA, 0x3F12DA8B, 0x3F14C98F]

/-- L[j] = −log2(U[j]), taking the stored U[j], in rows of 64 entries. -/
def romL : List (List Nat) :=
  [romLPart0, romLPart1]

/-- A[TANH][j][k] at 7 × (j − 1) + k: entries 0 to 63 (Table 6.2). -/
def romATanhPart0 : List Nat :=
  [0x3E3DC7FD, 0x3F7734F2, 0xBE374334, 0xBE93D27D, 0x3DE7C2AF, 0x3DC6175D, 0xBD743907, 0x3E9AFCC5,
   0x3F688ABA, 0xBE8CC910, 0xBE60D258, 0x3E21E9A2, 0x3D3A64C7, 0xBD94AAE8, 0x3ED2B94F, 0x3F54A2DD,
   0xBEAF0785, 0xBE0B70F3, 0x3E2E137A, 0xBBC86B54, 0xBD7CE82E, 0x3F028438, 0x3F3D7573, 0xBEC12EFC,
   0xBD5E8554, 0x3E1D26A6, 0xBD32F1C2, 0xBD18A5AC, 0x3F18ABF0, 0x3F24F360, 0xBEC4BE94, 0x3C6BB6CE,
   0x3DF4C114, 0xBD7CEC71, 0xBC3D3CBF, 0x3F2BC480, 0x3F0CBFE7, 0xBEBCE070, 0x3D839682, 0x3DA38B62,
   0xBD8092CD, 0x3BEF6F54, 0x3F3BEC1C, 0x3EEC1A69, 0xBEAD510E, 0x3DC21A5A, 0x3D3134EF, 0xBD5982B0,
   0x3C8B9333, 0x3F495FDA, 0x3EC330B0, 0xBE998A50, 0x3DDEDB6A, 0x3C6B5595, 0xBD202688, 0x3C9E23ED,
   0x3F546DE6, 0x3E9F7398, 0xBE84502D, 0x3DE292AA, 0xBBB97D18, 0xBCCEEC72, 0x3C8C1E4A, 0x3F5D6A85]

/-- A[TANH][j][k] at 7 × (j − 1) + k: entries 64 to 127 (Table 6.2). -/
def romATanhPart1 : List Nat :=
  [0x3E80FDD4, 0xBE5F2198, 0x3DD5FC96, 0xBC914C1D, 0xBC63910A, 0x3C565A69, 0x3F64A852, 0x3E4F0F00,
   0xBE38F180, 0x3DC0575F, 0xBCC20271, 0xBBB96D29, 0x3C126493, 0x3F6A737A, 0x3E2522C2, 0xBE173C43,
   0x3DA6EB6F, 0xBCD02E9D, 0xB9A2CDB2, 0x3BB35984, 0x3F6F0F5B, 0x3E03094E, 0xBDF4BB18, 0x3D8D2DD0,
   0xBCC90A28, 0x3B36588B, 0x3B3FCB98, 0x3F72B5B8, 0x3DCF1F7F, 0xBDC45ECC, 0x3D6A4502, 0xBCB66353,
   0x3B8C9A34, 0x3AA03DD8, 0x3F7596FF, 0x3DA32D10, 0xBD9C8A60, 0x3D3F90D0, 0xBC9ED4AB, 0x3B9CA9FF,
   0x393A4EAF, 0x3F77DB1E, 0x3D803B84, 0xBD784E5C, 0x3D1AEB20, 0xBC867159, 0x3B992413, 0xB9D27C5F,
   0x3F79A28F, 0x3D4925E9, 0xBD44259A, 0x3CF870FA, 0xBC5EFFD4, 0x3B8B6A0A, 0xBA3137D2, 0x3F7B077E,
   0x3D1D84F8, 0xBD1A75FB, 0x3CC5E915, 0xBC362FFF, 0x3B72D871, 0xBA488820, 0x3F7C1ED6, 0x3CF668E1]

/-- A[TANH][j][k] at 7 × (j − 1) + k: entries 128 to 191 (Table 6.2). -/
def romATanhPart2 : List Nat :=
  [0xBCF2ACEC, 0x3C9CDC7D, 0xBC132F44, 0x3B4D536D, 0xBA44710E, 0x3F7CF939, 0x3CC08C89, 0xBCBE45CB,
   0x3C77AE30, 0xBBEBCECA, 0x3B2A07C9, 0xBA3290BF, 0x3F7DA3D0, 0x3C9659A7, 0xBC94F6CF, 0x3C42F2B6,
   0xBBBBAED1, 0x3B0AB40D, 0xBA1B240A, 0x3F7E28FB, 0x3C6AA9FC, 0xBC68FA39, 0x3C1914E6, 0xBB94A500,
   0x3ADFCE1C, 0xBA02D81B, 0x3F7E90E0, 0x3C370C23, 0xBC3605A2, 0x3BEFF91C, 0xBB6A8FC3, 0x3AB312A5,
   0xB9D83818, 0x3F7EE1E8, 0x3C0EBBF9, 0xBC0E1C76, 0x3BBBD34F, 0xBB388786, 0x3A8E6386, 0xB9B00C14,
   0x3F7F2115, 0x3BDE89B8, 0xBBDDC7F1, 0x3B92D8EA, 0xBB10D776, 0x3A615D86, 0xB98DCF02, 0x3F7F5254,
   0x3BAD7177, 0xBBACFBCC, 0x3B656BE9, 0xBAE2FB7A, 0x3A31B35B, 0xB962A4A2, 0x3F7F78B4, 0x3B87282D,
   0xBB86E0BE, 0x3B331823, 0xBAB19CA6, 0x3A0BB9D9, 0xB9340810, 0x3F7F969B, 0x3B529DE7, 0xBB524732]

/-- A[TANH][j][k] at 7 × (j − 1) + k: entries 192 to 216 (Table 6.2). -/
def romATanhPart3 : List Nat :=
  [0x3B0BBBFE, 0xBA8AD576, 0x39DB42A7, 0xB90E5B85, 0x3F7FADE8, 0x3B24163F, 0xBB23E1A1, 0x3AD9F5FB,
   0xBA58DE00, 0x39ABBF61, 0xB8E05AE6, 0x3F7FC00E, 0x3AFFA721, 0xBAFF6746, 0x3AA9EFC4, 0xBA2945CB,
   0x39865B85, 0xB8B05272, 0x3F7FCE32, 0x3AC72547, 0xBAC6FE89, 0x3A84760F, 0xBA040EE4, 0x3952014D,
   0xB88A4A15]

/-- A[TANH][j][k] at 7 × (j − 1) + k, in rows of 64 entries. -/
def romATanh : List (List Nat) :=
  [romATanhPart0, romATanhPart1, romATanhPart2, romATanhPart3]

/-- A[ERF][j][k] at 7 × (j − 1) + k: entries 0 to 63 (Table 6.2). -/
def romAErfPart0 : List Nat :=
  [0x3E5622F2, 0x3F8B716C, 0xBE512A21, 0xBEACD9ED, 0x3DCC4324, 0x3DC01A14, 0xBD04F3DE, 0x3EAED4FA,
   0x3F82FE9F, 0xBEA3BE47, 0xBE8C8BDB, 0x3E191539, 0x3D826285, 0xBD3E73B2, 0x3EED840E, 0x3F6E8B3E,
   0xBED0B9D6, 0xBE444D40, 0x3E361775, 0x3CD8322A, 0xBD51FED0, 0x3F12DC54, 0x3F5283A7, 0xBEECD41C,
   0xBDCE20E9, 0x3E3ADF5E, 0xBC320857, 0xBD3EFC45, 0x3F2B4922, 0x3F340FF9, 0xBEF795F7, 0xBC5212A3,
   0x3E29920B, 0xBD2AC5A6, 0xBD0DBD6B, 0x3F3FDCE0, 0x3F1546E7, 0xBEF29338, 0x3D7F03CB, 0x3E07D118,
   0xBD7D10F6, 0xBC98AA37, 0x3F50AA8D, 0x3EEFE513, 0xBEE0E6C2, 0x3DF264CC, 0x3DBA3F19, 0xBD8E8F80,
   0xBB23B2A1, 0x3F5DF788, 0x3EBAD48D, 0xBEC681D6, 0x3E1CAA3C, 0x3D44707C, 0xBD87BE0B, 0x3C2F1168,
   0x3F682C06, 0x3E8D06E3, 0xBEA7782D, 0x3E2B245B, 0x3C207DD6, 0xBD606DC5, 0x3C9C461F, 0x3F6FC2F5]

/-- A[ERF][j][k] at 7 × (j − 1) + k: entries 64 to 127 (Table 6.2). -/
def romAErfPart1 : List Nat :=
  [0x3E4E5ADF, 0xBE876BA2, 0x3E283367, 0xBCA0CFD1, 0xBD1FA0BB, 0x3CB68EB9, 0x3F753B98, 0x3E1253DC,
   0xBE52588C, 0x3E18CE3D, 0xBD1EDADF, 0xBCB80CDF, 0x3CACE9D5, 0x3F790E50, 0x3DC92385, 0xBE1D23C0,
   0x3E0229FD, 0xBD453E35, 0xBC03AE04, 0x3C8B7CE5, 0x3F7BA537, 0x3D85FCBF, 0xBDE21A83, 0x3DD1B43E,
   0xBD4B23D2, 0x3B34C083, 0x3C3F43AB, 0x3F7D586F, 0x3D2D0474, 0xBD9CCC09, 0x3DA0A078, 0xBD3A9AD3,
   0x3C1BA644, 0x3BD20385, 0x3F7E6D66, 0x3CD88B05, 0xBD51C6AD, 0x3D6ADEC9, 0xBD1D9AEE, 0x3C4EBB58,
   0x3B0A6444, 0x3F7F1840, 0x3C83570A, 0xBD0771C2, 0x3D245894, 0xBCF8AADA, 0x3C551604, 0xBA5DFBF1,
   0x3F7F7E67, 0x3C1A6BEE, 0xBCA8E60C, 0x3CDC92D5, 0xBCB8F3EA, 0x3C3F52C0, 0xBB2375CF, 0x3F7FB99C,
   0x3BAFF93B, 0xBC4B782C, 0x3C8E2D32, 0xBC827AE5, 0x3C1C150A, 0xBB4AE55D, 0x3F7FDADF, 0x3B425D18]

/-- A[ERF][j][k] at 7 × (j − 1) + k: entries 128 to 191 (Table 6.2). -/
def romAErfPart2 : List Nat :=
  [0xBBECE175, 0x3C3044C3, 0xBC2F58E4, 0x3BEC2A7C, 0xBB44BB8D, 0x3F7FECFC, 0x3AD0121B, 0xBB854B99,
   0x3BD25FA4, 0xBBE11C01, 0x3BA7A004, 0xBB264D16, 0x3F7FF68B, 0x3A57E42F, 0xBB110D50, 0x3B71E4D5,
   0xBB8A58DD, 0x3B60E0CE, 0xBAFF561F, 0x3F7FFB6F, 0x39D91D2D, 0xBA98A884, 0x3B06121A, 0xBB231809,
   0x3B0F4269, 0xBAB5A0C4, 0x3F7FFDDC, 0x3953A034, 0xBA1B69A6, 0x3A8F5B71, 0xBAB8A75C, 0x3AADF604,
   0xBA72310F, 0x3F7FFF07, 0x38C7EE0E, 0xB9991242, 0x3A13EE0E, 0xBA49017A, 0x3A49DA65, 0xBA1874F3,
   0x3F7FFF92, 0x383711B4, 0xB911E21B, 0x39935F80, 0xB9D28FDB, 0x39E0412A, 0xB9B61EE0, 0x3F7FFFD1,
   0x37A2790F, 0xB8868C41, 0x390DCB27, 0xB9546BC3, 0x396EEB70, 0xB94F295C, 0x3F7FFFEC, 0x370BC1E7,
   0xB7F03546, 0x3883CBC6, 0xB8CE81CC, 0x38F4688A, 0xB8E0FB93, 0x3F7FFFF8, 0x366909CC, 0xB74F8CBA]

/-- A[ERF][j][k] at 7 × (j − 1) + k: entries 192 to 216 (Table 6.2). -/
def romAErfPart3 : List Nat :=
  [0x37ECC15F, 0xB841907E, 0x387050E6, 0xB869C211, 0x3F7FFFFD, 0x35BC4FDC, 0xB6AD999E, 0x374D897F,
   0xB7AF0349, 0x37E35039, 0xB7E8BC66, 0x3F7FFFFF, 0x35137CF0, 0xB60C9315, 0x36AC8060, 0xB718B36F,
   0x374EFE62, 0xB75E558F, 0x3F800000, 0x345FEBAB, 0xB55C6BFC, 0x360BFC9F, 0xB6809D82, 0x36B5922F,
   0xB6CC03BB]

/-- A[ERF][j][k] at 7 × (j − 1) + k, in rows of 64 entries. -/
def romAErf : List (List Nat) :=
  [romAErfPart0, romAErfPart1, romAErfPart2, romAErfPart3]

/-- B1, B3, B5, B7, B9 of TANH (Table 6.2). -/
def romBTanh : List Nat :=
  [0x3F800000, 0xBEAAAAAB, 0x3E088889, 0xBD5D0DD1, 0x3CB327A4]

/-- B1, B3, B5, B7, B9 of ERF (Table 6.2). -/
def romBErf : List Nat :=
  [0x3F906EBB, 0xBEC093A3, 0x3DE71791, 0xBCDC1672, 0x3BAB2DE7]

/-- E1 to E3 (Table 6.2). -/
def romE : List Nat :=
  [0x3F317218, 0x3E75FDF0, 0x3D635847]

/-- K1 to K4 (Table 6.2). -/
def romK : List Nat :=
  [0x3FB8AA3B, 0xBF38AA3B, 0x3EF6384F, 0xBEB8AA3B]

/-- S3, S5, S7, S9 (Table 6.2). -/
def romSin : List Nat :=
  [0xBE2AAAAB, 0x3C088889, 0xB9500D01, 0x3638EF1D]

/-- H2, H4, H6, H8, H10 (Table 6.2). -/
def romCos : List Nat :=
  [0xBF000000, 0x3D2AAAAB, 0xBAB60B61, 0x37D00D01, 0xB493F27E]

/-- L1, L2, LN2, TWOPI, TWOBYPI, P1, P2, P3 (Table 6.2). -/
def romC : List Nat :=
  [0x3FB8AA3B, 0x32A57060, 0x3F317218, 0x40C90FDB, 0x3F22F983, 0x3FC90FDB, 0xB33BBD2E, 0xA6F72CED]

/-- NC0[j] of R190: entries 0 to 63 (R190). -/
def romNC0Part0 : List Nat :=
  [0xC0CAD08F, 0xC04639A8, 0xC038AE3E, 0xC0305AEA, 0xC02A3E8C, 0xC0256094, 0xC0214FE9, 0xC01DCF31,
   0xC01AB949, 0xC017F5F4, 0xC0157475, 0xC01328C0, 0xC01109DC, 0xC00F10EA, 0xC00D3887, 0xC00B7C6A,
   0xC009D915, 0xC0084BAB, 0xC006D1C8, 0xC0056969, 0xC00410D7, 0xC002C69B, 0xC0018970, 0xC000583B,
   0xBFFE6409, 0xBFFC2BE4, 0xBFFA0683, 0xBFF7F28E, 0xBFF5EED2, 0xBFF3FA3A, 0xBFF213CD, 0xBFF03AA8,
   0xBFEE6DFF, 0xBFECAD19, 0xBFEAF749, 0xBFE94BF5, 0xBFE7AA8D, 0xBFE6128D, 0xBFE4837B, 0xBFE2FCE8,
   0xBFE17E6A, 0xBFE007A2, 0xBFDE9835, 0xBFDD2FCF, 0xBFDBCE22, 0xBFDA72E4, 0xBFD91DD2, 0xBFD7CEAA,
   0xBFD68531, 0xBFD5412E, 0xBFD4026C, 0xBFD2C8B7, 0xBFD193E1, 0xBFD063BC, 0xBFCF381F, 0xBFCE10E0,
   0xBFCCEDDA, 0xBFCBCEE9, 0xBFCAB3E9, 0xBFC99CBC, 0xBFC88940, 0xBFC7795A, 0xBFC66CEC, 0xBFC563DC]

/-- NC0[j] of R190: entries 64 to 127 (R190). -/
def romNC0Part1 : List Nat :=
  [0xBFC45E10, 0xBFC35B6F, 0xBFC25BE3, 0xBFC15F54, 0xBFC065AD, 0xBFBF6EDA, 0xBFBE7AC7, 0xBFBD8961,
   0xBFBC9A96, 0xBFBBAE54, 0xBFBAC48B, 0xBFB9DD2B, 0xBFB8F823, 0xBFB81566, 0xBFB734E5, 0xBFB65692,
   0xBFB57A60, 0xBFB4A042, 0xBFB3C82C, 0xBFB2F211, 0xBFB21DE7, 0xBFB14BA1, 0xBFB07B36, 0xBFAFAC9A,
   0xBFAEDFC4, 0xBFAE14AB, 0xBFAD4B43, 0xBFAC8386, 0xBFABBD69, 0xBFAAF8E4, 0xBFAA35EF, 0xBFA97482,
   0xBFA8B495, 0xBFA7F620, 0xBFA7391C, 0xBFA67D82, 0xBFA5C34B, 0xBFA50A71, 0xBFA452EC, 0xBFA39CB6,
   0xBFA2E7CA, 0xBFA23421, 0xBFA181B5, 0xBFA0D081, 0xBFA0207F, 0xBF9F71AA, 0xBF9EC3FC, 0xBF9E1771,
   0xBF9D6C03, 0xBF9CC1AE, 0xBF9C186C, 0xBF9B703A, 0xBF9AC912, 0xBF9A22F1, 0xBF997DD2, 0xBF98D9B1,
   0xBF98368A, 0xBF979458, 0xBF96F318, 0xBF9652C7, 0xBF95B360, 0xBF9514E0, 0xBF947743, 0xBF93DA86]

/-- NC0[j] of R190: entries 128 to 191 (R190). -/
def romNC0Part2 : List Nat :=
  [0xBF933EA6, 0xBF92A39F, 0xBF92096D, 0xBF91700F, 0xBF90D780, 0xBF903FBE, 0xBF8FA8C6, 0xBF8F1294,
   0xBF8E7D26, 0xBF8DE87A, 0xBF8D548C, 0xBF8CC15A, 0xBF8C2EE1, 0xBF8B9D1F, 0xBF8B0C11, 0xBF8A7BB5,
   0xBF89EC08, 0xBF895D08, 0xBF88CEB2, 0xBF884105, 0xBF87B3FE, 0xBF87279C, 0xBF869BDB, 0xBF8610B9,
   0xBF858636, 0xBF84FC4E, 0xBF847300, 0xBF83EA49, 0xBF836229, 0xBF82DA9C, 0xBF8253A1, 0xBF81CD37,
   0xBF81475C, 0xBF80C20D, 0xBF803D49, 0xBF7F721D, 0xBF7E6AB8, 0xBF7D645F, 0xBF7C5F0F, 0xBF7B5AC5,
   0xBF7A577E, 0xBF795537, 0xBF7853ED, 0xBF77539C, 0xBF765442, 0xBF7555DD, 0xBF745869, 0xBF735BE4,
   0xBF72604A, 0xBF71659A, 0xBF706BD0, 0xBF6F72EB, 0xBF6E7AE7, 0xBF6D83C2, 0xBF6C8D7A, 0xBF6B980C,
   0xBF6AA375, 0xBF69AFB4, 0xBF68BCC7, 0xBF67CAAA, 0xBF66D95C, 0xBF65E8DA, 0xBF64F922, 0xBF640A33]

/-- NC0[j] of R190: entries 192 to 255 (R190). -/
def romNC0Part3 : List Nat :=
  [0xBF631C09, 0xBF622EA4, 0xBF614200, 0xBF60561D, 0xBF5F6AF7, 0xBF5E808D, 0xBF5D96DD, 0xBF5CADE5,
   0xBF5BC5A3, 0xBF5ADE16, 0xBF59F73B, 0xBF591111, 0xBF582B96, 0xBF5746C8, 0xBF5662A6, 0xBF557F2D,
   0xBF549C5C, 0xBF53BA32, 0xBF52D8AD, 0xBF51F7CA, 0xBF51178A, 0xBF5037E9, 0xBF4F58E7, 0xBF4E7A82,
   0xBF4D9CB8, 0xBF4CBF88, 0xBF4BE2F0, 0xBF4B06EF, 0xBF4A2B84, 0xBF4950AD, 0xBF487669, 0xBF479CB6,
   0xBF46C394, 0xBF45EAFF, 0xBF4512F8, 0xBF443B7D, 0xBF43648D, 0xBF428E26, 0xBF41B848, 0xBF40E2F0,
   0xBF400E1D, 0xBF3F39D0, 0xBF3E6605, 0xBF3D92BC, 0xBF3CBFF4, 0xBF3BEDAC, 0xBF3B1BE3, 0xBF3A4A96,
   0xBF3979C6, 0xBF38A971, 0xBF37D996, 0xBF370A34, 0xBF363B4A, 0xBF356CD7, 0xBF349ED9, 0xBF33D150,
   0xBF33043B, 0xBF323798, 0xBF316B67, 0xBF309FA7, 0xBF2FD456, 0xBF2F0974, 0xBF2E3F00, 0xBF2D74F8]

/-- NC0[j] of R190: entries 256 to 319 (R190). -/
def romNC0Part4 : List Nat :=
  [0xBF2CAB5C, 0xBF2BE22B, 0xBF2B1964, 0xBF2A5106, 0xBF298910, 0xBF28C182, 0xBF27FA59, 0xBF273397,
   0xBF266D38, 0xBF25A73E, 0xBF24E1A6, 0xBF241C71, 0xBF23579C, 0xBF229328, 0xBF21CF14, 0xBF210B5E,
   0xBF204806, 0xBF1F850C, 0xBF1EC26E, 0xBF1E002B, 0xBF1D3E43, 0xBF1C7CB5, 0xBF1BBB81, 0xBF1AFAA5,
   0xBF1A3A21, 0xBF1979F4, 0xBF18BA1D, 0xBF17FA9C, 0xBF173B6F, 0xBF167C97, 0xBF15BE13, 0xBF14FFE1,
   0xBF144201, 0xBF138473, 0xBF12C736, 0xBF120A48, 0xBF114DAA, 0xBF10915B, 0xBF0FD55A, 0xBF0F19A6,
   0xBF0E5E3F, 0xBF0DA324, 0xBF0CE855, 0xBF0C2DD1, 0xBF0B7397, 0xBF0AB9A7, 0xBF0A0000, 0xBF0946A1,
   0xBF088D8A, 0xBF07D4BA, 0xBF071C31, 0xBF0663EE, 0xBF05ABF1, 0xBF04F439, 0xBF043CC5, 0xBF038595,
   0xBF02CEA8, 0xBF0217FD, 0xBF016195, 0xBF00AB6F, 0xBEFFEB13, 0xBEFE7FC9, 0xBEFD14FF, 0xBEFBAAB4]

/-- NC0[j] of R190: entries 320 to 383 (R190). -/
def romNC0Part5 : List Nat :=
  [0xBEFA40E7, 0xBEF8D796, 0xBEF76EC2, 0xBEF60668, 0xBEF49E88, 0xBEF33720, 0xBEF1D030, 0xBEF069B7,
   0xBEEF03B4, 0xBEED9E25, 0xBEEC390A, 0xBEEAD462, 0xBEE9702C, 0xBEE80C66, 0xBEE6A910, 0xBEE5462A,
   0xBEE3E3B1, 0xBEE281A6, 0xBEE12006, 0xBEDFBED2, 0xBEDE5E08, 0xBEDCFDA8, 0xBEDB9DB0, 0xBEDA3E20,
   0xBED8DEF7, 0xBED78034, 0xBED621D5, 0xBED4C3DB, 0xBED36644, 0xBED20910, 0xBED0AC3D, 0xBECF4FCB,
   0xBECDF3B8, 0xBECC9805, 0xBECB3CB1, 0xBEC9E1B9, 0xBEC8871E, 0xBEC72CDF, 0xBEC5D2FB, 0xBEC47971,
   0xBEC32041, 0xBEC1C769, 0xBEC06EE9, 0xBEBF16C0, 0xBEBDBEEE, 0xBEBC6770, 0xBEBB1048, 0xBEB9B973,
   0xBEB862F2, 0xBEB70CC3, 0xBEB5B6E6, 0xBEB46159, 0xBEB30C1D, 0xBEB1B731, 0xBEB06293, 0xBEAF0E43,
   0xBEADBA40, 0xBEAC668A, 0xBEAB1320, 0xBEA9C001, 0xBEA86D2C, 0xBEA71AA1, 0xBEA5C85F, 0xBEA47665]

/-- NC0[j] of R190: entries 384 to 447 (R190). -/
def romNC0Part6 : List Nat :=
  [0xBEA324B3, 0xBEA1D348, 0xBEA08223, 0xBE9F3143, 0xBE9DE0A9, 0xBE9C9052, 0xBE9B403F, 0xBE99F06F,
   0xBE98A0E1, 0xBE975195, 0xBE960289, 0xBE94B3BE, 0xBE936532, 0xBE9216E5, 0xBE90C8D6, 0xBE8F7B05,
   0xBE8E2D71, 0xBE8CE019, 0xBE8B92FD, 0xBE8A461C, 0xBE88F975, 0xBE87AD08, 0xBE8660D4, 0xBE8514D9,
   0xBE83C916, 0xBE827D89, 0xBE813234, 0xBE7FCE2A, 0xBE7D3856, 0xBE7AA2EC, 0xBE780DEA, 0xBE757950,
   0xBE72E51C, 0xBE70514D, 0xBE6DBDE1, 0xBE6B2AD8, 0xBE689831, 0xBE6605E9, 0xBE637401, 0xBE60E276,
   0xBE5E5149, 0xBE5BC076, 0xBE592FFE, 0xBE569FDF, 0xBE541019, 0xBE5180A9, 0xBE4EF18F, 0xBE4C62C9,
   0xBE49D458, 0xBE474638, 0xBE44B86A, 0xBE422AEC, 0xBE3F9DBD, 0xBE3D10DC, 0xBE3A8448, 0xBE37F7FF,
   0xBE356C01, 0xBE32E04D, 0xBE3054E1, 0xBE2DC9BC, 0xBE2B3EDE, 0xBE28B445, 0xBE2629F0, 0xBE239FDE]

/-- NC0[j] of R190: entries 448 to 511 (R190). -/
def romNC0Part7 : List Nat :=
  [0xBE21160D, 0xBE1E8C7E, 0xBE1C032E, 0xBE197A1D, 0xBE16F14A, 0xBE1468B3, 0xBE11E058, 0xBE0F5838,
   0xBE0CD050, 0xBE0A48A1, 0xBE07C12A, 0xBE0539E8, 0xBE02B2DC, 0xBE002C04, 0xBDFB4ABE, 0xBDF63DD9,
   0xBDF13155, 0xBDEC2532, 0xBDE7196C, 0xBDE20E02, 0xBDDD02F3, 0xBDD7F83B, 0xBDD2EDD9, 0xBDCDE3CA,
   0xBDC8DA0D, 0xBDC3D0A0, 0xBDBEC781, 0xBDB9BEAD, 0xBDB4B622, 0xBDAFADE0, 0xBDAAA5E2, 0xBDA59E28,
   0xBDA096B0, 0xBD9B8F77, 0xBD96887B, 0xBD9181BB, 0xBD8C7B35, 0xBD8774E5, 0xBD826ECB, 0xBD7AD1CA,
   0xBD70C660, 0xBD66BB55, 0xBD5CB0A5, 0xBD52A64C, 0xBD489C46, 0xBD3E928E, 0xBD348922, 0xBD2A7FFD,
   0xBD20771A, 0xBD166E77, 0xBD0C660F, 0xBD025DDF, 0xBCF0ABC2, 0xBCDC9C26, 0xBCC88CE0, 0xBCB47DE9,
   0xBCA06F39, 0xBC8C60C8, 0xBC70A51D, 0xBC488907, 0xBC206D41, 0xBBF0A373, 0xBBA06CC3, 0xBB206CA3]

/-- NC0[j] of R190: entries 512 to 575 (R190). -/
def romNC0Part8 : List Nat :=
  [0x00000000, 0x3B206CA3, 0x3BA06CC3, 0x3BF0A373, 0x3C206D41, 0x3C488907, 0x3C70A51D, 0x3C8C60C8,
   0x3CA06F39, 0x3CB47DE9, 0x3CC88CE0, 0x3CDC9C26, 0x3CF0ABC2, 0x3D025DDF, 0x3D0C660F, 0x3D166E77,
   0x3D20771A, 0x3D2A7FFD, 0x3D348922, 0x3D3E928E, 0x3D489C46, 0x3D52A64C, 0x3D5CB0A5, 0x3D66BB55,
   0x3D70C660, 0x3D7AD1CA, 0x3D826ECB, 0x3D8774E5, 0x3D8C7B35, 0x3D9181BB, 0x3D96887B, 0x3D9B8F77,
   0x3DA096B0, 0x3DA59E28, 0x3DAAA5E2, 0x3DAFADE0, 0x3DB4B622, 0x3DB9BEAD, 0x3DBEC781, 0x3DC3D0A0,
   0x3DC8DA0D, 0x3DCDE3CA, 0x3DD2EDD9, 0x3DD7F83B, 0x3DDD02F3, 0x3DE20E02, 0x3DE7196C, 0x3DEC2532,
   0x3DF13155, 0x3DF63DD9, 0x3DFB4ABE, 0x3E002C04, 0x3E02B2DC, 0x3E0539E8, 0x3E07C12A, 0x3E0A48A1,
   0x3E0CD050, 0x3E0F5838, 0x3E11E058, 0x3E1468B3, 0x3E16F14A, 0x3E197A1D, 0x3E1C032E, 0x3E1E8C7E]

/-- NC0[j] of R190: entries 576 to 639 (R190). -/
def romNC0Part9 : List Nat :=
  [0x3E21160D, 0x3E239FDE, 0x3E2629F0, 0x3E28B445, 0x3E2B3EDE, 0x3E2DC9BC, 0x3E3054E1, 0x3E32E04D,
   0x3E356C01, 0x3E37F7FF, 0x3E3A8448, 0x3E3D10DC, 0x3E3F9DBD, 0x3E422AEC, 0x3E44B86A, 0x3E474638,
   0x3E49D458, 0x3E4C62C9, 0x3E4EF18F, 0x3E5180A9, 0x3E541019, 0x3E569FDF, 0x3E592FFE, 0x3E5BC076,
   0x3E5E5149, 0x3E60E276, 0x3E637401, 0x3E6605E9, 0x3E689831, 0x3E6B2AD8, 0x3E6DBDE1, 0x3E70514D,
   0x3E72E51C, 0x3E757950, 0x3E780DEA, 0x3E7AA2EC, 0x3E7D3856, 0x3E7FCE2A, 0x3E813234, 0x3E827D89,
   0x3E83C916, 0x3E8514D9, 0x3E8660D4, 0x3E87AD08, 0x3E88F975, 0x3E8A461C, 0x3E8B92FD, 0x3E8CE019,
   0x3E8E2D71, 0x3E8F7B05, 0x3E90C8D6, 0x3E9216E5, 0x3E936532, 0x3E94B3BE, 0x3E960289, 0x3E975195,
   0x3E98A0E1, 0x3E99F06F, 0x3E9B403F, 0x3E9C9052, 0x3E9DE0A9, 0x3E9F3143, 0x3EA08223, 0x3EA1D348]

/-- NC0[j] of R190: entries 640 to 703 (R190). -/
def romNC0Part10 : List Nat :=
  [0x3EA324B3, 0x3EA47665, 0x3EA5C85F, 0x3EA71AA1, 0x3EA86D2C, 0x3EA9C001, 0x3EAB1320, 0x3EAC668A,
   0x3EADBA40, 0x3EAF0E43, 0x3EB06293, 0x3EB1B731, 0x3EB30C1D, 0x3EB46159, 0x3EB5B6E6, 0x3EB70CC3,
   0x3EB862F2, 0x3EB9B973, 0x3EBB1048, 0x3EBC6770, 0x3EBDBEEE, 0x3EBF16C0, 0x3EC06EE9, 0x3EC1C769,
   0x3EC32041, 0x3EC47971, 0x3EC5D2FB, 0x3EC72CDF, 0x3EC8871E, 0x3EC9E1B9, 0x3ECB3CB1, 0x3ECC9805,
   0x3ECDF3B8, 0x3ECF4FCB, 0x3ED0AC3D, 0x3ED20910, 0x3ED36644, 0x3ED4C3DB, 0x3ED621D5, 0x3ED78034,
   0x3ED8DEF7, 0x3EDA3E20, 0x3EDB9DB0, 0x3EDCFDA8, 0x3EDE5E08, 0x3EDFBED2, 0x3EE12006, 0x3EE281A6,
   0x3EE3E3B1, 0x3EE5462A, 0x3EE6A910, 0x3EE80C66, 0x3EE9702C, 0x3EEAD462, 0x3EEC390A, 0x3EED9E25,
   0x3EEF03B4, 0x3EF069B7, 0x3EF1D030, 0x3EF33720, 0x3EF49E88, 0x3EF60668, 0x3EF76EC2, 0x3EF8D796]

/-- NC0[j] of R190: entries 704 to 767 (R190). -/
def romNC0Part11 : List Nat :=
  [0x3EFA40E7, 0x3EFBAAB4, 0x3EFD14FF, 0x3EFE7FC9, 0x3EFFEB13, 0x3F00AB6F, 0x3F016195, 0x3F0217FD,
   0x3F02CEA8, 0x3F038595, 0x3F043CC5, 0x3F04F439, 0x3F05ABF1, 0x3F0663EE, 0x3F071C31, 0x3F07D4BA,
   0x3F088D8A, 0x3F0946A1, 0x3F0A0000, 0x3F0AB9A7, 0x3F0B7397, 0x3F0C2DD1, 0x3F0CE855, 0x3F0DA324,
   0x3F0E5E3F, 0x3F0F19A6, 0x3F0FD55A, 0x3F10915B, 0x3F114DAA, 0x3F120A48, 0x3F12C736, 0x3F138473,
   0x3F144201, 0x3F14FFE1, 0x3F15BE13, 0x3F167C97, 0x3F173B6F, 0x3F17FA9C, 0x3F18BA1D, 0x3F1979F4,
   0x3F1A3A21, 0x3F1AFAA5, 0x3F1BBB81, 0x3F1C7CB5, 0x3F1D3E43, 0x3F1E002B, 0x3F1EC26E, 0x3F1F850C,
   0x3F204806, 0x3F210B5E, 0x3F21CF14, 0x3F229328, 0x3F23579C, 0x3F241C71, 0x3F24E1A6, 0x3F25A73E,
   0x3F266D38, 0x3F273397, 0x3F27FA59, 0x3F28C182, 0x3F298910, 0x3F2A5106, 0x3F2B1964, 0x3F2BE22B]

/-- NC0[j] of R190: entries 768 to 831 (R190). -/
def romNC0Part12 : List Nat :=
  [0x3F2CAB5C, 0x3F2D74F8, 0x3F2E3F00, 0x3F2F0974, 0x3F2FD456, 0x3F309FA7, 0x3F316B67, 0x3F323798,
   0x3F33043B, 0x3F33D150, 0x3F349ED9, 0x3F356CD7, 0x3F363B4A, 0x3F370A34, 0x3F37D996, 0x3F38A971,
   0x3F3979C6, 0x3F3A4A96, 0x3F3B1BE3, 0x3F3BEDAC, 0x3F3CBFF4, 0x3F3D92BC, 0x3F3E6605, 0x3F3F39D0,
   0x3F400E1D, 0x3F40E2F0, 0x3F41B848, 0x3F428E26, 0x3F43648D, 0x3F443B7D, 0x3F4512F8, 0x3F45EAFF,
   0x3F46C394, 0x3F479CB6, 0x3F487669, 0x3F4950AD, 0x3F4A2B84, 0x3F4B06EF, 0x3F4BE2F0, 0x3F4CBF88,
   0x3F4D9CB8, 0x3F4E7A82, 0x3F4F58E7, 0x3F5037E9, 0x3F51178A, 0x3F51F7CA, 0x3F52D8AD, 0x3F53BA32,
   0x3F549C5C, 0x3F557F2D, 0x3F5662A6, 0x3F5746C8, 0x3F582B96, 0x3F591111, 0x3F59F73B, 0x3F5ADE16,
   0x3F5BC5A3, 0x3F5CADE5, 0x3F5D96DD, 0x3F5E808D, 0x3F5F6AF7, 0x3F60561D, 0x3F614200, 0x3F622EA4]

/-- NC0[j] of R190: entries 832 to 895 (R190). -/
def romNC0Part13 : List Nat :=
  [0x3F631C09, 0x3F640A33, 0x3F64F922, 0x3F65E8DA, 0x3F66D95C, 0x3F67CAAA, 0x3F68BCC7, 0x3F69AFB4,
   0x3F6AA375, 0x3F6B980C, 0x3F6C8D7A, 0x3F6D83C2, 0x3F6E7AE7, 0x3F6F72EB, 0x3F706BD0, 0x3F71659A,
   0x3F72604A, 0x3F735BE4, 0x3F745869, 0x3F7555DD, 0x3F765442, 0x3F77539C, 0x3F7853ED, 0x3F795537,
   0x3F7A577E, 0x3F7B5AC5, 0x3F7C5F0F, 0x3F7D645F, 0x3F7E6AB8, 0x3F7F721D, 0x3F803D49, 0x3F80C20D,
   0x3F81475C, 0x3F81CD37, 0x3F8253A1, 0x3F82DA9C, 0x3F836229, 0x3F83EA49, 0x3F847300, 0x3F84FC4E,
   0x3F858636, 0x3F8610B9, 0x3F869BDB, 0x3F87279C, 0x3F87B3FE, 0x3F884105, 0x3F88CEB2, 0x3F895D08,
   0x3F89EC08, 0x3F8A7BB5, 0x3F8B0C11, 0x3F8B9D1F, 0x3F8C2EE1, 0x3F8CC15A, 0x3F8D548C, 0x3F8DE87A,
   0x3F8E7D26, 0x3F8F1294, 0x3F8FA8C6, 0x3F903FBE, 0x3F90D780, 0x3F91700F, 0x3F92096D, 0x3F92A39F]

/-- NC0[j] of R190: entries 896 to 959 (R190). -/
def romNC0Part14 : List Nat :=
  [0x3F933EA6, 0x3F93DA86, 0x3F947743, 0x3F9514E0, 0x3F95B360, 0x3F9652C7, 0x3F96F318, 0x3F979458,
   0x3F98368A, 0x3F98D9B1, 0x3F997DD2, 0x3F9A22F1, 0x3F9AC912, 0x3F9B703A, 0x3F9C186C, 0x3F9CC1AE,
   0x3F9D6C03, 0x3F9E1771, 0x3F9EC3FC, 0x3F9F71AA, 0x3FA0207F, 0x3FA0D081, 0x3FA181B5, 0x3FA23421,
   0x3FA2E7CA, 0x3FA39CB6, 0x3FA452EC, 0x3FA50A71, 0x3FA5C34B, 0x3FA67D82, 0x3FA7391C, 0x3FA7F620,
   0x3FA8B495, 0x3FA97482, 0x3FAA35EF, 0x3FAAF8E4, 0x3FABBD69, 0x3FAC8386, 0x3FAD4B43, 0x3FAE14AB,
   0x3FAEDFC4, 0x3FAFAC9A, 0x3FB07B36, 0x3FB14BA1, 0x3FB21DE7, 0x3FB2F211, 0x3FB3C82C, 0x3FB4A042,
   0x3FB57A60, 0x3FB65692, 0x3FB734E5, 0x3FB81566, 0x3FB8F823, 0x3FB9DD2B, 0x3FBAC48B, 0x3FBBAE54,
   0x3FBC9A96, 0x3FBD8961, 0x3FBE7AC7, 0x3FBF6EDA, 0x3FC065AD, 0x3FC15F54, 0x3FC25BE3, 0x3FC35B6F]

/-- NC0[j] of R190: entries 960 to 1023 (R190). -/
def romNC0Part15 : List Nat :=
  [0x3FC45E10, 0x3FC563DC, 0x3FC66CEC, 0x3FC7795A, 0x3FC88940, 0x3FC99CBC, 0x3FCAB3E9, 0x3FCBCEE9,
   0x3FCCEDDA, 0x3FCE10E0, 0x3FCF381F, 0x3FD063BC, 0x3FD193E1, 0x3FD2C8B7, 0x3FD4026C, 0x3FD5412E,
   0x3FD68531, 0x3FD7CEAA, 0x3FD91DD2, 0x3FDA72E4, 0x3FDBCE22, 0x3FDD2FCF, 0x3FDE9835, 0x3FE007A2,
   0x3FE17E6A, 0x3FE2FCE8, 0x3FE4837B, 0x3FE6128D, 0x3FE7AA8D, 0x3FE94BF5, 0x3FEAF749, 0x3FECAD19,
   0x3FEE6DFF, 0x3FF03AA8, 0x3FF213CD, 0x3FF3FA3A, 0x3FF5EED2, 0x3FF7F28E, 0x3FFA0683, 0x3FFC2BE4,
   0x3FFE6409, 0x4000583B, 0x40018970, 0x4002C69B, 0x400410D7, 0x40056969, 0x4006D1C8, 0x40084BAB,
   0x4009D915, 0x400B7C6A, 0x400D3887, 0x400F10EA, 0x401109DC, 0x401328C0, 0x40157475, 0x4017F5F4,
   0x401AB949, 0x401DCF31, 0x40214FE9, 0x40256094, 0x402A3E8C, 0x40305AEA, 0x4038AE3E, 0x404639A8]

/-- NC0[j] of R190, in rows of 64 entries. -/
def romNC0 : List (List Nat) :=
  [romNC0Part0, romNC0Part1, romNC0Part2, romNC0Part3, romNC0Part4, romNC0Part5, romNC0Part6, romNC0Part7, romNC0Part8, romNC0Part9, romNC0Part10, romNC0Part11, romNC0Part12, romNC0Part13, romNC0Part14, romNC0Part15]

/-- NC1[j] of R190: entries 0 to 63 (R190). -/
def romNC1Part0 : List Nat :=
  [0x410EC209, 0x3E8E0207, 0x3E1D7C37, 0x3DDCBD84, 0x3DAB3E27, 0x3D8C9D0E, 0x3D6F75B1, 0x3D511733,
   0x3D39F959, 0x3D27C382, 0x3D1907E4, 0x3D0CDAC2, 0x3D029D42, 0x3CF3C0AD, 0x3CE4A803, 0x3CD77A45,
   0x3CCBDE22, 0x3CC18ED7, 0x3CB85694, 0x3CB00AA0, 0x3CA8889C, 0x3CA1B493, 0x3C9B7785, 0x3C95BE5E,
   0x3C907925, 0x3C8B9A61, 0x3C87169F, 0x3C82E415, 0x3C7DF4AC, 0x3C76A434, 0x3C6FCA12, 0x3C695B34,
   0x3C634DDE, 0x3C5D997F, 0x3C58367E, 0x3C531E1F, 0x3C4E4A5E, 0x3C49B5DB, 0x3C455BC4, 0x3C4137C0,
   0x3C3D45E5, 0x3C3982A7, 0x3C35EAD1, 0x3C327B74, 0x3C2F31E8, 0x3C2C0BBD, 0x3C2906B9, 0x3C2620D3,
   0x3C235828, 0x3C20AB00, 0x3C1E17C3, 0x3C1B9CF9, 0x3C193945, 0x3C16EB66, 0x3C14B22E, 0x3C128C8A,
   0x3C107976, 0x3C0E7800, 0x3C0C8749, 0x3C0AA67E, 0x3C08D4DC, 0x3C0711A9, 0x3C055C3B, 0x3C03B3EF]

/-- NC1[j] of R190: entries 64 to 127 (R190). -/
def romNC1Part1 : List Nat :=
  [0x3C02182E, 0x3C008868, 0x3BFE0832, 0x3BFB1583, 0x3BF837D4, 0x3BF56E44, 0x3BF2B800, 0x3BF0143F,
   0x3BED8242, 0x3BEB0156, 0x3BE890D0, 0x3BE63010, 0x3BE3DE7C, 0x3BE19B82, 0x3BDF6699, 0x3BDD3F3C,
   0x3BDB24F0, 0x3BD9173C, 0x3BD715B0, 0x3BD51FE0, 0x3BD33564, 0x3BD155DB, 0x3BCF80E6, 0x3BCDB62B,
   0x3BCBF556, 0x3BCA3E14, 0x3BC89017, 0x3BC6EB13, 0x3BC54EC1, 0x3BC3BADC, 0x3BC22F21, 0x3BC0AB53,
   0x3BBF2F33, 0x3BBDBA87, 0x3BBC4D18, 0x3BBAE6B0, 0x3BB9871A, 0x3BB82E26, 0x3BB6DBA3, 0x3BB58F63,
   0x3BB4493B, 0x3BB308FE, 0x3BB1CE85, 0x3BB099A8, 0x3BAF6A40, 0x3BAE4029, 0x3BAD1B3E, 0x3BABFB5F,
   0x3BAAE069, 0x3BA9CA3D, 0x3BA8B8BC, 0x3BA7ABC8, 0x3BA6A345, 0x3BA59F16, 0x3BA49F20, 0x3BA3A34A,
   0x3BA2AB7A, 0x3BA1B798, 0x3BA0C78C, 0x3B9FDB3F, 0x3B9EF29B, 0x3B9E0D8B, 0x3B9D2BFA, 0x3B9C4DD4]

/-- NC1[j] of R190: entries 128 to 191 (R190). -/
def romNC1Part2 : List Nat :=
  [0x3B9B7304, 0x3B9A9B79, 0x3B99C71F, 0x3B98F5E5, 0x3B9827B9, 0x3B975C8B, 0x3B96944A, 0x3B95CEE7,
   0x3B950C52, 0x3B944C7C, 0x3B938F56, 0x3B92D4D2, 0x3B921CE3, 0x3B91677B, 0x3B90B48D, 0x3B90040C,
   0x3B8F55ED, 0x3B8EAA23, 0x3B8E00A2, 0x3B8D595F, 0x3B8CB450, 0x3B8C1168, 0x3B8B709E, 0x3B8AD1E8,
   0x3B8A353B, 0x3B899A8E, 0x3B8901D8, 0x3B886B0E, 0x3B87D629, 0x3B87431F, 0x3B86B1E8, 0x3B86227B,
   0x3B8594D0, 0x3B8508E0, 0x3B847EA2, 0x3B83F610, 0x3B836F20, 0x3B82E9CE, 0x3B826610, 0x3B81E3E1,
   0x3B816339, 0x3B80E413, 0x3B806667, 0x3B7FD45E, 0x3B7EDECC, 0x3B7DEC0A, 0x3B7CFC0C, 0x3B7C0EC8,
   0x3B7B2432, 0x3B7A3C3F, 0x3B7956E4, 0x3B787416, 0x3B7793CD, 0x3B76B5FD, 0x3B75DA9C, 0x3B7501A1,
   0x3B742B03, 0x3B7356B9, 0x3B7284B8, 0x3B71B4F9, 0x3B70E773, 0x3B701C1D, 0x3B6F52EF, 0x3B6E8BE1]

/-- NC1[j] of R190: entries 192 to 255 (R190). -/
def romNC1Part3 : List Nat :=
  [0x3B6DC6EA, 0x3B6D0404, 0x3B6C4326, 0x3B6B8449, 0x3B6AC765, 0x3B6A0C74, 0x3B69536E, 0x3B689C4C,
   0x3B67E708, 0x3B67339A, 0x3B6681FD, 0x3B65D229, 0x3B652419, 0x3B6477C7, 0x3B63CD2B, 0x3B632441,
   0x3B627D03, 0x3B61D76B, 0x3B613373, 0x3B609115, 0x3B5FF04D, 0x3B5F5115, 0x3B5EB367, 0x3B5E173F,
   0x3B5D7C98, 0x3B5CE36D, 0x3B5C4BB8, 0x3B5BB576, 0x3B5B20A1, 0x3B5A8D34, 0x3B59FB2C, 0x3B596A84,
   0x3B58DB37, 0x3B584D42, 0x3B57C0A0, 0x3B57354C, 0x3B56AB43, 0x3B562282, 0x3B559B03, 0x3B5514C3,
   0x3B548FBE, 0x3B540BF1, 0x3B538957, 0x3B5307EE, 0x3B5287B2, 0x3B52089E, 0x3B518AB1, 0x3B510DE6,
   0x3B50923A, 0x3B5017A9, 0x3B4F9E32, 0x3B4F25D0, 0x3B4EAE80, 0x3B4E383F, 0x3B4DC30A, 0x3B4D4EDF,
   0x3B4CDBBA, 0x3B4C6999, 0x3B4BF878, 0x3B4B8855, 0x3B4B192E, 0x3B4AAAFF, 0x3B4A3DC5, 0x3B49D17F]

/-- NC1[j] of R190: entries 256 to 319 (R190). -/
def romNC1Part4 : List Nat :=
  [0x3B496629, 0x3B48FBC1, 0x3B489245, 0x3B4829B2, 0x3B47C206, 0x3B475B3E, 0x3B46F558, 0x3B469052,
   0x3B462C29, 0x3B45C8DB, 0x3B456666, 0x3B4504C8, 0x3B44A3FF, 0x3B444408, 0x3B43E4E1, 0x3B438689,
   0x3B4328FD, 0x3B42CC3B, 0x3B427042, 0x3B42150F, 0x3B41BAA1, 0x3B4160F6, 0x3B41080B, 0x3B40AFDF,
   0x3B405870, 0x3B4001BD, 0x3B3FABC4, 0x3B3F5682, 0x3B3F01F7, 0x3B3EAE20, 0x3B3E5AFC, 0x3B3E0889,
   0x3B3DB6C6, 0x3B3D65B1, 0x3B3D1549, 0x3B3CC58C, 0x3B3C7678, 0x3B3C280C, 0x3B3BDA46, 0x3B3B8D26,
   0x3B3B40A9, 0x3B3AF4CE, 0x3B3AA994, 0x3B3A5EF9, 0x3B3A14FC, 0x3B39CB9C, 0x3B3982D8, 0x3B393AAD,
   0x3B38F31B, 0x3B38AC21, 0x3B3865BD, 0x3B381FED, 0x3B37DAB2, 0x3B379609, 0x3B3751F1, 0x3B370E6A,
   0x3B36CB71, 0x3B368907, 0x3B364729, 0x3B3605D7, 0x3B35C50F, 0x3B3584D1, 0x3B35451B, 0x3B3505EC]

/-- NC1[j] of R190: entries 320 to 383 (R190). -/
def romNC1Part5 : List Nat :=
  [0x3B34C744, 0x3B348921, 0x3B344B82, 0x3B340E66, 0x3B33D1CD, 0x3B3395B4, 0x3B335A1C, 0x3B331F04,
   0x3B32E469, 0x3B32AA4C, 0x3B3270AC, 0x3B323787, 0x3B31FEDD, 0x3B31C6AD, 0x3B318EF6, 0x3B3157B6,
   0x3B3120EE, 0x3B30EA9D, 0x3B30B4C1, 0x3B307F59, 0x3B304A66, 0x3B3015E6, 0x3B2FE1D8, 0x3B2FAE3C,
   0x3B2F7B10, 0x3B2F4855, 0x3B2F1609, 0x3B2EE42B, 0x3B2EB2BB, 0x3B2E81B9, 0x3B2E5122, 0x3B2E20F8,
   0x3B2DF138, 0x3B2DC1E3, 0x3B2D92F7, 0x3B2D6474, 0x3B2D3659, 0x3B2D08A6, 0x3B2CDB5B, 0x3B2CAE75,
   0x3B2C81F5, 0x3B2C55DA, 0x3B2C2A24, 0x3B2BFED1, 0x3B2BD3E2, 0x3B2BA956, 0x3B2B7F2B, 0x3B2B5562,
   0x3B2B2BFA, 0x3B2B02F3, 0x3B2ADA4B, 0x3B2AB203, 0x3B2A8A19, 0x3B2A628D, 0x3B2A3B5F, 0x3B2A148E,
   0x3B29EE1A, 0x3B29C802, 0x3B29A246, 0x3B297CE5, 0x3B2957DE, 0x3B293331, 0x3B290EDE, 0x3B28EAE5]

/-- NC1[j] of R190: entries 384 to 447 (R190). -/
def romNC1Part6 : List Nat :=
  [0x3B28C744, 0x3B28A3FB, 0x3B28810A, 0x3B285E70, 0x3B283C2E, 0x3B281A42, 0x3B27F8AC, 0x3B27D76B,
   0x3B27B680, 0x3B2795E9, 0x3B2775A7, 0x3B2755B9, 0x3B27361E, 0x3B2716D6, 0x3B26F7E2, 0x3B26D93F,
   0x3B26BAEF, 0x3B269CF0, 0x3B267F43, 0x3B2661E6, 0x3B2644DA, 0x3B26281E, 0x3B260BB2, 0x3B25EF96,
   0x3B25D3C8, 0x3B25B84A, 0x3B259D19, 0x3B258237, 0x3B2567A3, 0x3B254D5D, 0x3B253363, 0x3B2519B6,
   0x3B250056, 0x3B24E742, 0x3B24CE7B, 0x3B24B5FE, 0x3B249DCE, 0x3B2485E8, 0x3B246E4D, 0x3B2456FC,
   0x3B243FF6, 0x3B24293A, 0x3B2412C8, 0x3B23FC9F, 0x3B23E6BF, 0x3B23D128, 0x3B23BBDA, 0x3B23A6D4,
   0x3B239217, 0x3B237DA1, 0x3B236974, 0x3B23558D, 0x3B2341EE, 0x3B232E96, 0x3B231B85, 0x3B2308BB,
   0x3B22F637, 0x3B22E3F9, 0x3B22D201, 0x3B22C04F, 0x3B22AEE2, 0x3B229DBB, 0x3B228CD9, 0x3B227C3B]

/-- NC1[j] of R190: entries 448 to 511 (R190). -/
def romNC1Part7 : List Nat :=
  [0x3B226BE3, 0x3B225BCF, 0x3B224C00, 0x3B223C75, 0x3B222D2E, 0x3B221E2B, 0x3B220F6C, 0x3B2200F0,
   0x3B21F2B8, 0x3B21E4C3, 0x3B21D711, 0x3B21C9A2, 0x3B21BC76, 0x3B21AF8D, 0x3B21A2E6, 0x3B219681,
   0x3B218A5F, 0x3B217E7F, 0x3B2172E1, 0x3B216784, 0x3B215C6A, 0x3B215191, 0x3B2146F9, 0x3B213CA3,
   0x3B21328E, 0x3B2128BA, 0x3B211F27, 0x3B2115D5, 0x3B210CC4, 0x3B2103F4, 0x3B20FB64, 0x3B20F315,
   0x3B20EB07, 0x3B20E338, 0x3B20DBAA, 0x3B20D45D, 0x3B20CD4F, 0x3B20C681, 0x3B20BFF4, 0x3B20B9A6,
   0x3B20B398, 0x3B20ADCA, 0x3B20A83B, 0x3B20A2EC, 0x3B209DDD, 0x3B20990D, 0x3B20947D, 0x3B20902C,
   0x3B208C1B, 0x3B208849, 0x3B2084B6, 0x3B208162, 0x3B207E4E, 0x3B207B79, 0x3B2078E3, 0x3B20768C,
   0x3B207474, 0x3B20729B, 0x3B207102, 0x3B206FA7, 0x3B206E8C, 0x3B206DAF, 0x3B206D12, 0x3B206CB3]

/-- NC1[j] of R190: entries 512 to 575 (R190). -/
def romNC1Part8 : List Nat :=
  [0x3B206C94, 0x3B206CB3, 0x3B206D12, 0x3B206DAF, 0x3B206E8C, 0x3B206FA7, 0x3B207102, 0x3B20729B,
   0x3B207474, 0x3B20768C, 0x3B2078E3, 0x3B207B79, 0x3B207E4E, 0x3B208162, 0x3B2084B6, 0x3B208849,
   0x3B208C1B, 0x3B20902C, 0x3B20947D, 0x3B20990D, 0x3B209DDD, 0x3B20A2EC, 0x3B20A83B, 0x3B20ADCA,
   0x3B20B398, 0x3B20B9A6, 0x3B20BFF4, 0x3B20C681, 0x3B20CD4F, 0x3B20D45D, 0x3B20DBAA, 0x3B20E338,
   0x3B20EB07, 0x3B20F315, 0x3B20FB64, 0x3B2103F4, 0x3B210CC4, 0x3B2115D5, 0x3B211F27, 0x3B2128BA,
   0x3B21328E, 0x3B213CA3, 0x3B2146F9, 0x3B215191, 0x3B215C6A, 0x3B216784, 0x3B2172E1, 0x3B217E7F,
   0x3B218A5F, 0x3B219681, 0x3B21A2E6, 0x3B21AF8D, 0x3B21BC76, 0x3B21C9A2, 0x3B21D711, 0x3B21E4C3,
   0x3B21F2B8, 0x3B2200F0, 0x3B220F6C, 0x3B221E2B, 0x3B222D2E, 0x3B223C75, 0x3B224C00, 0x3B225BCF]

/-- NC1[j] of R190: entries 576 to 639 (R190). -/
def romNC1Part9 : List Nat :=
  [0x3B226BE3, 0x3B227C3B, 0x3B228CD9, 0x3B229DBB, 0x3B22AEE2, 0x3B22C04F, 0x3B22D201, 0x3B22E3F9,
   0x3B22F637, 0x3B2308BB, 0x3B231B85, 0x3B232E96, 0x3B2341EE, 0x3B23558D, 0x3B236974, 0x3B237DA1,
   0x3B239217, 0x3B23A6D4, 0x3B23BBDA, 0x3B23D128, 0x3B23E6BF, 0x3B23FC9F, 0x3B2412C8, 0x3B24293A,
   0x3B243FF6, 0x3B2456FC, 0x3B246E4D, 0x3B2485E8, 0x3B249DCD, 0x3B24B5FE, 0x3B24CE7B, 0x3B24E742,
   0x3B250056, 0x3B2519B6, 0x3B253363, 0x3B254D5D, 0x3B2567A3, 0x3B258237, 0x3B259D19, 0x3B25B84A,
   0x3B25D3C8, 0x3B25EF96, 0x3B260BB2, 0x3B26281E, 0x3B2644DA, 0x3B2661E6, 0x3B267F43, 0x3B269CF0,
   0x3B26BAEF, 0x3B26D93F, 0x3B26F7E2, 0x3B2716D6, 0x3B27361E, 0x3B2755B9, 0x3B2775A7, 0x3B2795E9,
   0x3B27B680, 0x3B27D76B, 0x3B27F8AB, 0x3B281A42, 0x3B283C2E, 0x3B285E70, 0x3B28810A, 0x3B28A3FB]

/-- NC1[j] of R190: entries 640 to 703 (R190). -/
def romNC1Part10 : List Nat :=
  [0x3B28C744, 0x3B28EAE5, 0x3B290EDE, 0x3B293331, 0x3B2957DE, 0x3B297CE5, 0x3B29A246, 0x3B29C802,
   0x3B29EE1A, 0x3B2A148E, 0x3B2A3B5F, 0x3B2A628D, 0x3B2A8A19, 0x3B2AB203, 0x3B2ADA4B, 0x3B2B02F3,
   0x3B2B2BFA, 0x3B2B5562, 0x3B2B7F2B, 0x3B2BA956, 0x3B2BD3E2, 0x3B2BFED1, 0x3B2C2A24, 0x3B2C55DA,
   0x3B2C81F5, 0x3B2CAE75, 0x3B2CDB5A, 0x3B2D08A6, 0x3B2D3659, 0x3B2D6474, 0x3B2D92F7, 0x3B2DC1E2,
   0x3B2DF138, 0x3B2E20F8, 0x3B2E5122, 0x3B2E81B8, 0x3B2EB2BB, 0x3B2EE42B, 0x3B2F1609, 0x3B2F4855,
   0x3B2F7B10, 0x3B2FAE3C, 0x3B2FE1D8, 0x3B3015E6, 0x3B304A66, 0x3B307F59, 0x3B30B4C1, 0x3B30EA9D,
   0x3B3120EE, 0x3B3157B6, 0x3B318EF5, 0x3B31C6AD, 0x3B31FEDD, 0x3B323787, 0x3B3270AC, 0x3B32AA4C,
   0x3B32E469, 0x3B331F04, 0x3B335A1C, 0x3B3395B4, 0x3B33D1CD, 0x3B340E66, 0x3B344B82, 0x3B348921]

/-- NC1[j] of R190: entries 704 to 767 (R190). -/
def romNC1Part11 : List Nat :=
  [0x3B34C744, 0x3B3505EC, 0x3B35451B, 0x3B3584D1, 0x3B35C50F, 0x3B3605D7, 0x3B364729, 0x3B368907,
   0x3B36CB71, 0x3B370E6A, 0x3B3751F1, 0x3B379609, 0x3B37DAB2, 0x3B381FED, 0x3B3865BC, 0x3B38AC21,
   0x3B38F31B, 0x3B393AAD, 0x3B3982D8, 0x3B39CB9C, 0x3B3A14FC, 0x3B3A5EF9, 0x3B3AA994, 0x3B3AF4CE,
   0x3B3B40A8, 0x3B3B8D25, 0x3B3BDA46, 0x3B3C280C, 0x3B3C7678, 0x3B3CC58C, 0x3B3D1549, 0x3B3D65B1,
   0x3B3DB6C6, 0x3B3E0889, 0x3B3E5AFC, 0x3B3EAE20, 0x3B3F01F7, 0x3B3F5682, 0x3B3FABC4, 0x3B4001BD,
   0x3B405870, 0x3B40AFDF, 0x3B41080B, 0x3B4160F5, 0x3B41BAA1, 0x3B42150F, 0x3B427042, 0x3B42CC3B,
   0x3B4328FD, 0x3B438689, 0x3B43E4E1, 0x3B444408, 0x3B44A3FF, 0x3B4504C8, 0x3B456666, 0x3B45C8DB,
   0x3B462C29, 0x3B469052, 0x3B46F558, 0x3B475B3E, 0x3B47C206, 0x3B4829B2, 0x3B489245, 0x3B48FBC1]

/-- NC1[j] of R190: entries 768 to 831 (R190). -/
def romNC1Part12 : List Nat :=
  [0x3B496629, 0x3B49D17F, 0x3B4A3DC5, 0x3B4AAAFE, 0x3B4B192E, 0x3B4B8855, 0x3B4BF878, 0x3B4C6999,
   0x3B4CDBBA, 0x3B4D4EDF, 0x3B4DC30A, 0x3B4E383F, 0x3B4EAE7F, 0x3B4F25CF, 0x3B4F9E32, 0x3B5017A9,
   0x3B50923A, 0x3B510DE6, 0x3B518AB1, 0x3B52089E, 0x3B5287B1, 0x3B5307EE, 0x3B538957, 0x3B540BF0,
   0x3B548FBE, 0x3B5514C2, 0x3B559B02, 0x3B562281, 0x3B56AB43, 0x3B57354C, 0x3B57C09F, 0x3B584D42,
   0x3B58DB37, 0x3B596A84, 0x3B59FB2C, 0x3B5A8D34, 0x3B5B20A0, 0x3B5BB575, 0x3B5C4BB8, 0x3B5CE36C,
   0x3B5D7C98, 0x3B5E173F, 0x3B5EB367, 0x3B5F5114, 0x3B5FF04C, 0x3B609115, 0x3B613372, 0x3B61D76A,
   0x3B627D03, 0x3B632441, 0x3B63CD2B, 0x3B6477C6, 0x3B652419, 0x3B65D229, 0x3B6681FC, 0x3B673399,
   0x3B67E707, 0x3B689C4B, 0x3B69536D, 0x3B6A0C74, 0x3B6AC765, 0x3B6B8448, 0x3B6C4326, 0x3B6D0404]

/-- NC1[j] of R190: entries 832 to 895 (R190). -/
def romNC1Part13 : List Nat :=
  [0x3B6DC6EA, 0x3B6E8BE0, 0x3B6F52EE, 0x3B701C1C, 0x3B70E772, 0x3B71B4F9, 0x3B7284B8, 0x3B7356B8,
   0x3B742B03, 0x3B7501A1, 0x3B75DA9B, 0x3B76B5FC, 0x3B7793CC, 0x3B787416, 0x3B7956E3, 0x3B7A3C3E,
   0x3B7B2431, 0x3B7C0EC7, 0x3B7CFC0C, 0x3B7DEC09, 0x3B7EDECB, 0x3B7FD45E, 0x3B806666, 0x3B80E412,
   0x3B816339, 0x3B81E3E0, 0x3B826610, 0x3B82E9CD, 0x3B836F20, 0x3B83F60F, 0x3B847EA2, 0x3B8508E0,
   0x3B8594D0, 0x3B86227B, 0x3B86B1E7, 0x3B87431F, 0x3B87D629, 0x3B886B0E, 0x3B8901D7, 0x3B899A8E,
   0x3B8A353B, 0x3B8AD1E7, 0x3B8B709E, 0x3B8C1167, 0x3B8CB44F, 0x3B8D595F, 0x3B8E00A1, 0x3B8EAA22,
   0x3B8F55EC, 0x3B90040C, 0x3B90B48C, 0x3B91677A, 0x3B921CE2, 0x3B92D4D1, 0x3B938F55, 0x3B944C7B,
   0x3B950C51, 0x3B95CEE6, 0x3B969449, 0x3B975C8A, 0x3B9827B8, 0x3B98F5E4, 0x3B99C71E, 0x3B9A9B77]

/-- NC1[j] of R190: entries 896 to 959 (R190). -/
def romNC1Part14 : List Nat :=
  [0x3B9B7303, 0x3B9C4DD2, 0x3B9D2BF9, 0x3B9E0D8A, 0x3B9EF29A, 0x3B9FDB3E, 0x3BA0C78A, 0x3BA1B796,
   0x3BA2AB79, 0x3BA3A348, 0x3BA49F1F, 0x3BA59F14, 0x3BA6A343, 0x3BA7ABC7, 0x3BA8B8BA, 0x3BA9CA3B,
   0x3BAAE067, 0x3BABFB5D, 0x3BAD1B3C, 0x3BAE4026, 0x3BAF6A3E, 0x3BB099A6, 0x3BB1CE83, 0x3BB308FC,
   0x3BB44938, 0x3BB58F61, 0x3BB6DBA0, 0x3BB82E23, 0x3BB98717, 0x3BBAE6AD, 0x3BBC4D15, 0x3BBDBA84,
   0x3BBF2F2F, 0x3BC0AB4F, 0x3BC22F1E, 0x3BC3BAD8, 0x3BC54EBD, 0x3BC6EB0E, 0x3BC89012, 0x3BCA3E0F,
   0x3BCBF551, 0x3BCDB626, 0x3BCF80E0, 0x3BD155D5, 0x3BD3355E, 0x3BD51FDA, 0x3BD715AA, 0x3BD91735,
   0x3BDB24E8, 0x3BDD3F35, 0x3BDF6691, 0x3BE19B7A, 0x3BE3DE73, 0x3BE63007, 0x3BE890C7, 0x3BEB014B,
   0x3BED8237, 0x3BF01433, 0x3BF2B7F4, 0x3BF56E37, 0x3BF837C6, 0x3BFB1574, 0x3BFE0823, 0x3C008860]

/-- NC1[j] of R190: entries 960 to 1023 (R190). -/
def romNC1Part15 : List Nat :=
  [0x3C021825, 0x3C03B3E6, 0x3C055C31, 0x3C07119F, 0x3C08D4D1, 0x3C0AA673, 0x3C0C873D, 0x3C0E77F3,
   0x3C107967, 0x3C128C7A, 0x3C14B21E, 0x3C16EB53, 0x3C193932, 0x3C1B9CE4, 0x3C1E17AD, 0x3C20AAE8,
   0x3C23580E, 0x3C2620B6, 0x3C29069A, 0x3C2C0B9B, 0x3C2F31C3, 0x3C327B4B, 0x3C35EAA4, 0x3C398276,
   0x3C3D45AF, 0x3C413784, 0x3C455B82, 0x3C49B592, 0x3C4E4A0D, 0x3C531DC4, 0x3C583618, 0x3C5D990C,
   0x3C634D5D, 0x3C695AA2, 0x3C6FC96C, 0x3C76A376, 0x3C7DF3D3, 0x3C82E397, 0x3C87160D, 0x3C8B99B7,
   0x3C90785E, 0x3C95BD74, 0x3C9B766E, 0x3CA1B344, 0x3CA88707, 0x3CB008B1, 0x3CB85430, 0x3CC18BD9,
   0x3CCBDA57, 0x3CD77563, 0x3CE4A19C, 0x3CF3B81E, 0x3D029765, 0x3D0CD283, 0x3D18FBE4, 0x3D27B157,
   0x3D39DC70, 0x3D50E636, 0x3D6F1B75, 0x3D8C3FD6, 0x3DAA59FE, 0x3DD9DCAB, 0x3E156932, 0xC01C3939]

/-- NC1[j] of R190, in rows of 64 entries. -/
def romNC1 : List (List Nat) :=
  [romNC1Part0, romNC1Part1, romNC1Part2, romNC1Part3, romNC1Part4, romNC1Part5, romNC1Part6, romNC1Part7, romNC1Part8, romNC1Part9, romNC1Part10, romNC1Part11, romNC1Part12, romNC1Part13, romNC1Part14, romNC1Part15]

/-- NC2[j] of R190: entries 0 to 63 (R190). -/
def romNC2Part0 : List Nat :=
  [0xC0B5D058, 0xBD869ADD, 0xBCC23785, 0xBC498E18, 0xBBF7F28A, 0xBBA87A9E, 0xBB747BDA, 0xBB39D617,
   0xBB12400A, 0xBAEC79EB, 0xBAC3560D, 0xBAA435D2, 0xBA8C132D, 0xBA71F107, 0xBA5329F7, 0xBA39FEE0,
   0xBA25248E, 0xBA13AA6A, 0xBA04DE32, 0xB9F0730D, 0xB9DAAB09, 0xB9C7C49A, 0xB9B7422E, 0xB9A8BFF0,
   0xB99BEDB0, 0xB9908A68, 0xB98660EA, 0xB97A8ABF, 0xB96A26BF, 0xB95B58EF, 0xB94DEE15, 0xB941BAD2,
   0xB9369A3F, 0xB92C6CC6, 0xB9231745, 0xB91A8249, 0xB9129980, 0xB90B4B35, 0xB90487F0, 0xB8FC843B,
   0xB8F0DB98, 0xB8E600DB, 0xB8DBE152, 0xB8D26C63, 0xB8C99341, 0xB8C148B5, 0xB8B980E7, 0xB8B23137,
   0xB8AB5015, 0xB8A4D4E1, 0xB89EB7CE, 0xB898F1CD, 0xB8937C77, 0xB88E51F7, 0xB8896D00, 0xB884C8BB,
   0xB88060BA, 0xB87861E0, 0xB8706B4F, 0xB868D6ED, 0xB8619E74, 0xB85ABC1E, 0xB8542A96, 0xB84DE4F2]

/-- NC2[j] of R190: entries 64 to 127 (R190). -/
def romNC2Part1 : List Nat :=
  [0xB847E6A5, 0xB8422B78, 0xB83CAF85, 0xB8376F2D, 0xB8326711, 0xB82D9412, 0xB828F345, 0xB82481F4,
   0xB8203D96, 0xB81C23CD, 0xB8183264, 0xB8146749, 0xB810C08C, 0xB80D3C5D, 0xB809D908, 0xB80694F4,
   0xB8036EA0, 0xB80064A3, 0xB7FAEB51, 0xB7F540E2, 0xB7EFC79B, 0xB7EA7D44, 0xB7E55FC3, 0xB7E06D1D,
   0xB7DBA373, 0xB7D700FE, 0xB7D28412, 0xB7CE2B19, 0xB7C9F491, 0xB7C5DF0E, 0xB7C1E936, 0xB7BE11C0,
   0xB7BA5775, 0xB7B6B92C, 0xB7B335CC, 0xB7AFCC48, 0xB7AC7BA3, 0xB7A942E8, 0xB7A62132, 0xB7A315A4,
   0xB7A01F6C, 0xB79D3DC1, 0xB79A6FE4, 0xB797B520, 0xB7950CC5, 0xB792762E, 0xB78FF0BA, 0xB78D7BD2,
   0xB78B16E4, 0xB788C164, 0xB7867ACE, 0xB78442A0, 0xB7821862, 0xB77FF738, 0xB77BD7BE, 0xB777D17D,
   0xB773E3A5, 0xB7700D70, 0xB76C4E1F, 0xB768A4FA, 0xB7651150, 0xB7619278, 0xB75E27CF, 0xB75AD0B8]

/-- NC2[j] of R190: entries 128 to 191 (R190). -/
def romNC2Part2 : List Nat :=
  [0xB7578C9D, 0xB7545AEB, 0xB7513B17, 0xB74E2C9C, 0xB74B2EF6, 0xB74841A9, 0xB745643C, 0xB742963C,
   0xB73FD739, 0xB73D26C6, 0xB73A847C, 0xB737EFF5, 0xB73568D1, 0xB732EEB2, 0xB730813D, 0xB72E201C,
   0xB72BCAF8, 0xB7298182, 0xB727436A, 0xB7251063, 0xB722E823, 0xB720CA64, 0xB71EB6DF, 0xB71CAD53,
   0xB71AAD7E, 0xB718B722, 0xB716CA01, 0xB714E5E1, 0xB7130A89, 0xB71137C2, 0xB70F6D55, 0xB70DAB10,
   0xB70BF0C0, 0xB70A3E33, 0xB708933B, 0xB706EFAA, 0xB7055353, 0xB703BE0A, 0xB7022FA6, 0xB700A7FD,
   0xB6FE4DD3, 0xB6FB5886, 0xB6F86FCA, 0xB6F59355, 0xB6F2C2E2, 0xB6EFFE2C, 0xB6ED44EF, 0xB6EA96EC,
   0xB6E7F3E2, 0xB6E55B96, 0xB6E2CDCA, 0xB6E04A45, 0xB6DDD0CE, 0xB6DB612F, 0xB6D8FB31, 0xB6D69EA1,
   0xB6D44B4D, 0xB6D20101, 0xB6CFBF90, 0xB6CD86C8, 0xB6CB567E, 0xB6C92E85, 0xB6C70EB0, 0xB6C4F6D6]

/-- NC2[j] of R190: entries 192 to 255 (R190). -/
def romNC2Part3 : List Nat :=
  [0xB6C2E6CE, 0xB6C0DE70, 0xB6BEDD94, 0xB6BCE414, 0xB6BAF1CB, 0xB6B90695, 0xB6B7224E, 0xB6B544D4,
   0xB6B36E04, 0xB6B19DBF, 0xB6AFD3E4, 0xB6AE1054, 0xB6AC52EF, 0xB6AA9B99, 0xB6A8EA34, 0xB6A73EA3,
   0xB6A598CB, 0xB6A3F890, 0xB6A25DD8, 0xB6A0C889, 0xB69F388A, 0xB69DADC1, 0xB69C2817, 0xB69AA774,
   0xB6992BC1, 0xB697B4E7, 0xB69642D0, 0xB694D567, 0xB6936C96, 0xB6920848, 0xB690A86A, 0xB68F4CE7,
   0xB68DF5AD, 0xB68CA2A7, 0xB68B53C5, 0xB68A08F2, 0xB688C21F, 0xB6877F39, 0xB686402F, 0xB68504F1,
   0xB683CD6F, 0xB6829997, 0xB681695C, 0xB6803CAC, 0xB67E26F5, 0xB67BDB6F, 0xB67996A9, 0xB6775887,
   0xB67520EE, 0xB672EFC2, 0xB670C4EA, 0xB66EA04A, 0xB66C81CA, 0xB66A694F, 0xB66856C3, 0xB6664A0C,
   0xB6644314, 0xB66241C3, 0xB6604602, 0xB65E4FBB, 0xB65C5ED8, 0xB65A7344, 0xB6588CEA, 0xB656ABB6]

/-- NC2[j] of R190: entries 256 to 319 (R190). -/
def romNC2Part4 : List Nat :=
  [0xB654CF92, 0xB652F86C, 0xB6512630, 0xB64F58CA, 0xB64D9029, 0xB64BCC39, 0xB64A0CE8, 0xB6485225,
   0xB6469BDF, 0xB644EA04, 0xB6433C84, 0xB641934D, 0xB63FEE51, 0xB63E4D7E, 0xB63CB0C6, 0xB63B181A,
   0xB6398369, 0xB637F2A5, 0xB63665C0, 0xB634DCAB, 0xB6335759, 0xB631D5BC, 0xB63057C5, 0xB62EDD68,
   0xB62D6698, 0xB62BF348, 0xB62A836B, 0xB62916F4, 0xB627ADD9, 0xB626480B, 0xB624E580, 0xB623862D,
   0xB6222A05, 0xB620D0FD, 0xB61F7B0B, 0xB61E2823, 0xB61CD83B, 0xB61B8B49, 0xB61A4141, 0xB618FA1A,
   0xB617B5CA, 0xB6167447, 0xB6153586, 0xB613F980, 0xB612C02A, 0xB611897B, 0xB610556A, 0xB60F23EE,
   0xB60DF4FE, 0xB60CC892, 0xB60B9EA0, 0xB60A7722, 0xB609520D, 0xB6082F5B, 0xB6070F03, 0xB605F0FD,
   0xB604D541, 0xB603BBC9, 0xB602A48B, 0xB6018F82, 0xB6007CA5, 0xB5FED7D9, 0xB5FCBAA6, 0xB5FAA1A0]

/-- NC2[j] of R190: entries 320 to 383 (R190). -/
def romNC2Part5 : List Nat :=
  [0xB5F88CBC, 0xB5F67BEA, 0xB5F46F1D, 0xB5F26649, 0xB5F06160, 0xB5EE6056, 0xB5EC631D, 0xB5EA69AA,
   0xB5E873F0, 0xB5E681E3, 0xB5E49377, 0xB5E2A8A0, 0xB5E0C152, 0xB5DEDD83, 0xB5DCFD27, 0xB5DB2033,
   0xB5D9469B, 0xB5D77055, 0xB5D59D57, 0xB5D3CD96, 0xB5D20107, 0xB5D037A0, 0xB5CE7158, 0xB5CCAE23,
   0xB5CAEDF9, 0xB5C930CF, 0xB5C7769D, 0xB5C5BF58, 0xB5C40AF7, 0xB5C25971, 0xB5C0AABD, 0xB5BEFED3,
   0xB5BD55A8, 0xB5BBAF35, 0xB5BA0B71, 0xB5B86A53, 0xB5B6CBD3, 0xB5B52FE8, 0xB5B3968B, 0xB5B1FFB4,
   0xB5B06B5A, 0xB5AED975, 0xB5AD49FE, 0xB5ABBCEC, 0xB5AA323A, 0xB5A8A9DE, 0xB5A723D2, 0xB5A5A00D,
   0xB5A41E8A, 0xB5A29F41, 0xB5A1222A, 0xB59FA73F, 0xB59E2E79, 0xB59CB7D0, 0xB59B4340, 0xB599D0BF,
   0xB5986049, 0xB596F1D7, 0xB5958561, 0xB5941AE2, 0xB592B254, 0xB5914BB0, 0xB58FE6F0, 0xB58E840F]

/-- NC2[j] of R190: entries 384 to 447 (R190). -/
def romNC2Part6 : List Nat :=
  [0xB58D2305, 0xB58BC3CD, 0xB58A6662, 0xB5890ABD, 0xB587B0D9, 0xB58658B0, 0xB585023C, 0xB583AD78,
   0xB5825A5F, 0xB58108EA, 0xB57F722A, 0xB57CD5B4, 0xB57A3C67, 0xB577A63B, 0xB5751323, 0xB5728316,
   0xB56FF609, 0xB56D6BF3, 0xB56AE4CA, 0xB5686084, 0xB565DF17, 0xB563607A, 0xB560E4A2, 0xB55E6B87,
   0xB55BF520, 0xB5598162, 0xB5571045, 0xB554A1C0, 0xB55235C9, 0xB54FCC59, 0xB54D6565, 0xB54B00E5,
   0xB5489ED1, 0xB5463F1F, 0xB543E1C8, 0xB54186C3, 0xB53F2E08, 0xB53CD78D, 0xB53A834C, 0xB538313C,
   0xB535E154, 0xB533938D, 0xB53147DF, 0xB52EFE42, 0xB52CB6AD, 0xB52A711A, 0xB5282D81, 0xB525EBDA,
   0xB523AC1D, 0xB5216E43, 0xB51F3245, 0xB51CF81A, 0xB51ABFBC, 0xB5188924, 0xB5165449, 0xB5142126,
   0xB511EFB3, 0xB50FBFE8, 0xB50D91BF, 0xB50B6531, 0xB5093A36, 0xB50710C9, 0xB504E8E1, 0xB502C279]

/-- NC2[j] of R190: entries 448 to 511 (R190). -/
def romNC2Part7 : List Nat :=
  [0xB5009D89, 0xB4FCF417, 0xB4F8AFF2, 0xB4F46E96, 0xB4F02FF5, 0xB4EBF404, 0xB4E7BAB5, 0xB4E383FA,
   0xB4DF4FC8, 0xB4DB1E11, 0xB4D6EEC8, 0xB4D2C1E2, 0xB4CE9751, 0xB4CA6F09, 0xB4C648FD, 0xB4C22522,
   0xB4BE036A, 0xB4B9E3CA, 0xB4B5C636, 0xB4B1AAA1, 0xB4AD90FF, 0xB4A97945, 0xB4A56366, 0xB4A14F56,
   0xB49D3D0A, 0xB4992C76, 0xB4951D8E, 0xB4911046, 0xB48D0493, 0xB488FA69, 0xB484F1BD, 0xB480EA82,
   0xB479C95D, 0xB471C06C, 0xB469BA1A, 0xB461B651, 0xB459B4FA, 0xB451B5FF, 0xB449B949, 0xB441BEC1,
   0xB439C651, 0xB431CFE4, 0xB429DB61, 0xB421E8B4, 0xB419F7C7, 0xB4120882, 0xB40A1AD0, 0xB4022E9B,
   0xB3F4879B, 0xB3E4B4A1, 0xB3D4E41E, 0xB3C515E5, 0xB3B549CA, 0xB3A57FA3, 0xB395B743, 0xB385F07F,
   0xB36C5658, 0xB34CCE3C, 0xB32D4852, 0xB30DC445, 0xB2DC837C, 0xB29D80CC, 0xB23CFF9B, 0xB17BFE92]

/-- NC2[j] of R190: entries 512 to 575 (R190). -/
def romNC2Part8 : List Nat :=
  [0x317BFE92, 0x323CFF9B, 0x329D80CC, 0x32DC837C, 0x330DC445, 0x332D4852, 0x334CCE3C, 0x336C5658,
   0x3385F07F, 0x3395B743, 0x33A57FA3, 0x33B549CA, 0x33C515E5, 0x33D4E41E, 0x33E4B4A1, 0x33F4879B,
   0x34022E9B, 0x340A1AD0, 0x34120882, 0x3419F7C7, 0x3421E8B4, 0x3429DB61, 0x3431CFE4, 0x3439C651,
   0x3441BEC1, 0x3449B949, 0x3451B5FF, 0x3459B4FA, 0x3461B651, 0x3469BA1A, 0x3471C06C, 0x3479C95D,
   0x3480EA82, 0x3484F1BD, 0x3488FA69, 0x348D0493, 0x34911046, 0x34951D8E, 0x34992C76, 0x349D3D0A,
   0x34A14F56, 0x34A56366, 0x34A97945, 0x34AD90FF, 0x34B1AAA1, 0x34B5C636, 0x34B9E3CA, 0x34BE036A,
   0x34C22522, 0x34C648FD, 0x34CA6F09, 0x34CE9751, 0x34D2C1E2, 0x34D6EEC8, 0x34DB1E11, 0x34DF4FC8,
   0x34E383FA, 0x34E7BAB5, 0x34EBF404, 0x34F02FF5, 0x34F46E96, 0x34F8AFF2, 0x34FCF417, 0x35009D89]

/-- NC2[j] of R190: entries 576 to 639 (R190). -/
def romNC2Part9 : List Nat :=
  [0x3502C279, 0x3504E8E1, 0x350710C9, 0x35093A36, 0x350B6531, 0x350D91BF, 0x350FBFE8, 0x3511EFB3,
   0x35142126, 0x35165449, 0x35188924, 0x351ABFBC, 0x351CF81A, 0x351F3245, 0x35216E43, 0x3523AC1D,
   0x3525EBDA, 0x35282D81, 0x352A711A, 0x352CB6AD, 0x352EFE42, 0x353147DF, 0x3533938D, 0x3535E154,
   0x3538313C, 0x353A834C, 0x353CD78D, 0x353F2E08, 0x354186C3, 0x3543E1C8, 0x35463F1F, 0x35489ED1,
   0x354B00E5, 0x354D6565, 0x354FCC59, 0x355235C9, 0x3554A1C0, 0x35571045, 0x35598162, 0x355BF520,
   0x355E6B87, 0x3560E4A2, 0x3563607A, 0x3565DF17, 0x35686084, 0x356AE4CA, 0x356D6BF3, 0x356FF609,
   0x35728316, 0x35751323, 0x3577A63B, 0x357A3C67, 0x357CD5B4, 0x357F722A, 0x358108EA, 0x35825A5F,
   0x3583AD78, 0x3585023C, 0x358658B0, 0x3587B0D9, 0x35890ABD, 0x358A6662, 0x358BC3CD, 0x358D2305]

/-- NC2[j] of R190: entries 640 to 703 (R190). -/
def romNC2Part10 : List Nat :=
  [0x358E840F, 0x358FE6F0, 0x35914BB0, 0x3592B254, 0x35941AE2, 0x35958561, 0x3596F1D7, 0x35986049,
   0x3599D0BF, 0x359B4340, 0x359CB7D0, 0x359E2E79, 0x359FA73F, 0x35A1222A, 0x35A29F41, 0x35A41E8A,
   0x35A5A00D, 0x35A723D2, 0x35A8A9DE, 0x35AA323A, 0x35ABBCEC, 0x35AD49FE, 0x35AED975, 0x35B06B5A,
   0x35B1FFB4, 0x35B3968B, 0x35B52FE8, 0x35B6CBD3, 0x35B86A53, 0x35BA0B71, 0x35BBAF35, 0x35BD55A8,
   0x35BEFED3, 0x35C0AABD, 0x35C25971, 0x35C40AF7, 0x35C5BF58, 0x35C7769D, 0x35C930CF, 0x35CAEDF9,
   0x35CCAE23, 0x35CE7158, 0x35D037A0, 0x35D20107, 0x35D3CD96, 0x35D59D57, 0x35D77055, 0x35D9469B,
   0x35DB2033, 0x35DCFD27, 0x35DEDD83, 0x35E0C152, 0x35E2A8A0, 0x35E49377, 0x35E681E3, 0x35E873F0,
   0x35EA69AA, 0x35EC631D, 0x35EE6056, 0x35F06160, 0x35F26649, 0x35F46F1D, 0x35F67BEA, 0x35F88CBC]

/-- NC2[j] of R190: entries 704 to 767 (R190). -/
def romNC2Part11 : List Nat :=
  [0x35FAA1A0, 0x35FCBAA6, 0x35FED7D9, 0x36007CA5, 0x36018F82, 0x3602A48B, 0x3603BBC9, 0x3604D541,
   0x3605F0FD, 0x36070F03, 0x36082F5B, 0x3609520D, 0x360A7722, 0x360B9EA0, 0x360CC892, 0x360DF4FE,
   0x360F23EE, 0x3610556A, 0x3611897B, 0x3612C02A, 0x3613F980, 0x36153586, 0x36167447, 0x3617B5CA,
   0x3618FA1A, 0x361A4141, 0x361B8B49, 0x361CD83B, 0x361E2823, 0x361F7B0B, 0x3620D0FD, 0x36222A05,
   0x3623862D, 0x3624E580, 0x3626480B, 0x3627ADD9, 0x362916F4, 0x362A836B, 0x362BF348, 0x362D6698,
   0x362EDD68, 0x363057C5, 0x3631D5BC, 0x36335759, 0x3634DCAB, 0x363665C0, 0x3637F2A5, 0x36398369,
   0x363B181A, 0x363CB0C6, 0x363E4D7E, 0x363FEE51, 0x3641934D, 0x36433C84, 0x3644EA04, 0x36469BDF,
   0x36485225, 0x364A0CE8, 0x364BCC39, 0x364D9029, 0x364F58CA, 0x36512630, 0x3652F86C, 0x3654CF92]

/-- NC2[j] of R190: entries 768 to 831 (R190). -/
def romNC2Part12 : List Nat :=
  [0x3656ABB6, 0x36588CEA, 0x365A7344, 0x365C5ED8, 0x365E4FBB, 0x36604602, 0x366241C3, 0x36644314,
   0x36664A0C, 0x366856C3, 0x366A694F, 0x366C81CA, 0x366EA04A, 0x3670C4EA, 0x3672EFC2, 0x367520EE,
   0x36775887, 0x367996A9, 0x367BDB6F, 0x367E26F5, 0x36803CAC, 0x3681695C, 0x36829997, 0x3683CD6F,
   0x368504F1, 0x3686402F, 0x36877F39, 0x3688C21F, 0x368A08F2, 0x368B53C5, 0x368CA2A7, 0x368DF5AD,
   0x368F4CE7, 0x3690A86A, 0x36920848, 0x36936C96, 0x3694D567, 0x369642D0, 0x3697B4E7, 0x36992BC1,
   0x369AA774, 0x369C2817, 0x369DADC1, 0x369F388A, 0x36A0C889, 0x36A25DD8, 0x36A3F890, 0x36A598CB,
   0x36A73EA3, 0x36A8EA34, 0x36AA9B99, 0x36AC52EF, 0x36AE1054, 0x36AFD3E4, 0x36B19DBF, 0x36B36E04,
   0x36B544D4, 0x36B7224E, 0x36B90695, 0x36BAF1CB, 0x36BCE414, 0x36BEDD94, 0x36C0DE70, 0x36C2E6CE]

/-- NC2[j] of R190: entries 832 to 895 (R190). -/
def romNC2Part13 : List Nat :=
  [0x36C4F6D6, 0x36C70EB0, 0x36C92E85, 0x36CB567E, 0x36CD86C8, 0x36CFBF90, 0x36D20101, 0x36D44B4D,
   0x36D69EA1, 0x36D8FB31, 0x36DB612F, 0x36DDD0CE, 0x36E04A45, 0x36E2CDCA, 0x36E55B96, 0x36E7F3E2,
   0x36EA96EC, 0x36ED44EF, 0x36EFFE2C, 0x36F2C2E2, 0x36F59355, 0x36F86FCA, 0x36FB5886, 0x36FE4DD3,
   0x3700A7FD, 0x37022FA6, 0x3703BE0A, 0x37055353, 0x3706EFAA, 0x3708933B, 0x370A3E33, 0x370BF0C0,
   0x370DAB10, 0x370F6D55, 0x371137C2, 0x37130A89, 0x3714E5E1, 0x3716CA01, 0x3718B722, 0x371AAD7E,
   0x371CAD53, 0x371EB6DF, 0x3720CA64, 0x3722E823, 0x37251063, 0x3727436A, 0x37298182, 0x372BCAF8,
   0x372E201C, 0x3730813D, 0x3732EEB2, 0x373568D1, 0x3737EFF5, 0x373A847C, 0x373D26C6, 0x373FD739,
   0x3742963C, 0x3745643C, 0x374841A9, 0x374B2EF6, 0x374E2C9C, 0x37513B17, 0x37545AEB, 0x37578C9D]

/-- NC2[j] of R190: entries 896 to 959 (R190). -/
def romNC2Part14 : List Nat :=
  [0x375AD0B8, 0x375E27CF, 0x37619278, 0x37651150, 0x3768A4FA, 0x376C4E1F, 0x37700D70, 0x3773E3A5,
   0x3777D17D, 0x377BD7BE, 0x377FF738, 0x37821862, 0x378442A0, 0x37867ACE, 0x3788C164, 0x378B16E4,
   0x378D7BD2, 0x378FF0BA, 0x3792762E, 0x37950CC5, 0x3797B520, 0x379A6FE4, 0x379D3DC1, 0x37A01F6C,
   0x37A315A4, 0x37A62132, 0x37A942E8, 0x37AC7BA3, 0x37AFCC48, 0x37B335CC, 0x37B6B92C, 0x37BA5775,
   0x37BE11C0, 0x37C1E936, 0x37C5DF0E, 0x37C9F491, 0x37CE2B19, 0x37D28412, 0x37D700FE, 0x37DBA373,
   0x37E06D1D, 0x37E55FC3, 0x37EA7D44, 0x37EFC79B, 0x37F540E2, 0x37FAEB51, 0x380064A3, 0x38036EA0,
   0x380694F4, 0x3809D908, 0x380D3C5D, 0x3810C08C, 0x38146749, 0x38183264, 0x381C23CD, 0x38203D96,
   0x382481F4, 0x3828F345, 0x382D9412, 0x38326711, 0x38376F2D, 0x383CAF85, 0x38422B78, 0x3847E6A5]

/-- NC2[j] of R190: entries 960 to 1023 (R190). -/
def romNC2Part15 : List Nat :=
  [0x384DE4F2, 0x38542A96, 0x385ABC1E, 0x38619E74, 0x3868D6ED, 0x38706B4F, 0x387861E0, 0x388060BA,
   0x3884C8BB, 0x38896D00, 0x388E51F7, 0x38937C77, 0x3898F1CD, 0x389EB7CE, 0x38A4D4E1, 0x38AB5015,
   0x38B23137, 0x38B980E7, 0x38C148B5, 0x38C99341, 0x38D26C63, 0x38DBE152, 0x38E600DB, 0x38F0DB98,
   0x38FC843B, 0x390487F0, 0x390B4B35, 0x39129980, 0x391A8249, 0x39231745, 0x392C6CC6, 0x39369A3F,
   0x3941BAD2, 0x394DEE15, 0x395B58EF, 0x396A26BF, 0x397A8ABF, 0x398660EA, 0x39908A68, 0x399BEDB0,
   0x39A8BFF0, 0x39B7422E, 0x39C7C49A, 0x39DAAB09, 0x39F0730D, 0x3A04DE32, 0x3A13AA6A, 0x3A25248E,
   0x3A39FEE0, 0x3A5329F7, 0x3A71F107, 0x3A8C132D, 0x3AA435D2, 0x3AC3560D, 0x3AEC79EB, 0x3B12400A,
   0x3B39D617, 0x3B747BDA, 0x3BA87A9E, 0x3BF7F28A, 0x3C498E18, 0x3CC23785, 0x3D869ADD, 0x40B5D058]

/-- NC2[j] of R190, in rows of 64 entries. -/
def romNC2 : List (List Nat) :=
  [romNC2Part0, romNC2Part1, romNC2Part2, romNC2Part3, romNC2Part4, romNC2Part5, romNC2Part6, romNC2Part7, romNC2Part8, romNC2Part9, romNC2Part10, romNC2Part11, romNC2Part12, romNC2Part13, romNC2Part14, romNC2Part15]

/-- Entry i of a ROM table held in one row. -/
def romAt (l : List Nat) (i : Nat) : Word := BitVec.ofNat 32 (l.getD i 0)

/-- Entry i of a ROM table held in rows of 64. -/
def romAt64 (l : List (List Nat)) (i : Nat) : Word := BitVec.ofNat 32 ((l.getD (i / 64) []).getD (i % 64) 0)

end Sys2Proof.Machine
end

