-- ==== Sys2Proof/Machine/Special.lean ====
section
/-! DEFINITION. The special-function unit: the built-in functions, loaded tables and micro-programs, and the
combine rules and quantities of row statistics ("Special Functions, Soft Maximum and Normalisation"). -/

namespace Sys2Proof.Machine

/-- +MAX or -MAX by a sign. -/
def signedMax (neg : Bool) : Word := if neg then lowest32 else max32

/-- An FP32 constant that is a small integer. -/
def int32w (i : Int) : Word := ofInt32 i

/-- a < 0, with -0 not below zero. -/
def negative32 (a : Word) : Bool := lt32 a zero32

/-- ROM constant of Table 6.2 by its place in romC. -/
def romConst (i : Nat) : Word := romAt romC i

/-- exp2 of R159. -/
def exp2 (a : Word) : Word :=
  if isNan32 a then nan32
  else if !(lt32 a (int32w 128)) then max32
  else if lt32 a (int32w (-150)) then zero32
  else
    let i := floorInt a
    let f := sub32 a (int32w i)
    let j := (floorInt (mul32 (int32w 64) f)).toNat
    let r := sub32 f (div32 (int32w j) (int32w 64))
    let p := mul32 (fma32 (fma32 (romAt romE 2) r (romAt romE 1)) r (romAt romE 0)) r
    scale32 (fma32 (romAt64 romT j) p (romAt64 romT j)) i

/-- expe of R159: EXP2 with MOD 1. -/
def expe (a : Word) : Word :=
  let h := mul32 a (romConst 0)
  if isNan32 h then nan32
  else if !(lt32 h (int32w 128)) then max32
  else
    let l := fma32 a (romConst 1) (fma32 a (romConst 0) (neg32 h))
    let x := exp2 h
    fma32 x (mul32 l (romConst 2)) x

/-- log2 of R159. -/
def log2w (a : Word) : Word :=
  if isNan32 a || negative32 a then nan32
  else if isZero32 a then lowest32
  else
    let (e0, m0) := split32 a
    let half := !(lt32 m0 (0x3FC00000#32))
    let m := if half then scale32 m0 (-1) else m0
    let e := if half then e0 + 1 else e0
    let near := e == 0 && lt32 (abs32 (sub32 m one32)) (0x3C000000#32)
    let j := (floorInt (mul32 (int32w 128) (sub32 m (0x3F400000#32)))).toNat
    let u := if near then one32 else romAt64 romU j
    let l := if near then zero32 else romAt64 romL j
    let r := fma32 m u (int32w (-1))
    let q := mul32 (fma32 (fma32 (fma32 (romAt romK 3) r (romAt romK 2)) r (romAt romK 1)) r (romAt romK 0)) r
    add32 (int32w e) (add32 l q)

/-- loge of R159: LOG2 with MOD 1. -/
def loge (a : Word) : Word :=
  if isZero32 a then lowest32 else mul32 (log2w a) (romConst 2)

/-- rcp of R159. -/
def rcp (a : Word) : Word :=
  if isNan32 a then nan32
  else if isZero32 a then signedMax (signBit32 a)
  else
    let (e, m) := split32 a
    let y0 := romAt64 romS (floorInt (mul32 (int32w 128) (sub32 m one32))).toNat
    let step := fun y => fma32 y (fma32 (neg32 m) y one32) y
    let y := scale32 (step (step y0)) (-e)
    if signBit32 a then neg32 y else y

/-- rsqrt of R159. -/
def rsqrt (a : Word) : Word :=
  if isNan32 a || negative32 a then nan32
  else if isZero32 a then signedMax (signBit32 a)
  else
    let (e0, m0) := split32 a
    let odd := e0 % 2 != 0
    let m := if odd then mul32 (int32w 2) m0 else m0
    let e := if odd then e0 - 1 else e0
    let y0 := romAt64 romQ (floorInt (mul32 (int32w 64) (sub32 m one32))).toNat
    let step := fun y => fma32 (mul32 y (0x3F000000#32)) (fma32 (neg32 m) (mul32 y y) one32) y
    scale32 (step (step y0)) (-(e / 2))

/-- The argument reduction of SIN and COS (R159): the quadrant 0 to 3 and the remainder. -/
def reduceAngle (a : Word) (turns : Bool) : Nat × Word :=
  if turns then
    let f := sub32 a (rint32 0 a)
    let n := rint32 0 (mul32 (int32w 4) f)
    let r := mul32 (sub32 f (div32 n (int32w 4))) (romConst 3)
    (((floorInt n) % 4).toNat, r)
  else
    let n := rint32 0 (mul32 a (romConst 4))
    let r := fma32 (neg32 n) (romConst 7) (fma32 (neg32 n) (romConst 6) (fma32 (neg32 n) (romConst 5) a))
    (((floorInt n) % 4).toNat, r)

/-- sinpoly of R159. -/
def sinpoly (r : Word) : Word :=
  let t := mul32 r r
  let k := fun i => romAt romSin i
  fma32 (mul32 (fma32 (fma32 (fma32 (k 3) t (k 2)) t (k 1)) t (k 0)) t) r r

/-- cospoly of R159. -/
def cospoly (r : Word) : Word :=
  let t := mul32 r r
  let k := fun i => romAt romCos i
  fma32 (fma32 (fma32 (fma32 (fma32 (k 4) t (k 3)) t (k 2)) t (k 1)) t (k 0)) t one32

/-- SIN of R159. -/
def sinw (a : Word) (turns : Bool) : Word :=
  if isNan32 a then nan32 else
    match reduceAngle a turns with
    | (0, r) => sinpoly r
    | (1, r) => cospoly r
    | (2, r) => neg32 (sinpoly r)
    | (_, r) => neg32 (cospoly r)

/-- COS of R159. -/
def cosw (a : Word) (turns : Bool) : Word :=
  if isNan32 a then nan32 else
    match reduceAngle a turns with
    | (0, r) => cospoly r
    | (1, r) => neg32 (sinpoly r)
    | (2, r) => neg32 (cospoly r)
    | (_, r) => sinpoly r

/-- oddfn of R159: TANH, or ERF. -/
def oddfn (tanh : Bool) (a : Word) : Word :=
  if isNan32 a then nan32 else
    let x := abs32 a
    let b := fun i => romAt (if tanh then romBTanh else romBErf) i
    let y :=
      if lt32 x (0x3E000000#32) then
        let t := mul32 x x
        mul32 (fma32 (fma32 (fma32 (fma32 (b 4) t (b 3)) t (b 2)) t (b 1)) t (b 0)) x
      else if lt32 x (int32w 4) then
        let j := (floorInt (mul32 (int32w 8) x)).toNat
        let h := sub32 x (div32 (int32w (2 * j + 1)) (int32w 16))
        let c := fun k => romAt64 (if tanh then romATanh else romAErf) (7 * (j - 1) + k)
        [5, 4, 3, 2, 1, 0].foldl (fun y k => fma32 y h (c k)) (c 6)
      else if tanh then
        fma32 (int32w (-2)) (rcp (add32 (expe (mul32 (int32w 2) x)) one32)) one32
      else one32
    if signBit32 a then neg32 y else y

/-- sigm of R159. -/
def sigm (a : Word) : Word :=
  if isNan32 a then nan32
  else if negative32 a then
    let x := expe a
    mul32 x (rcp (add32 one32 x))
  else rcp (add32 one32 (expe (neg32 a)))

/-! ### Loaded tables (Table 6.5, R162) -/

/-- The FP32 word at a byte offset. -/
def wordAt (b : Bytes) (off : Nat) : Word := BitVec.ofNat 32 (le b off 4)

/-- Coefficient k of segment j of a table entry (Table 6.5). -/
def tableCoef (tb : Bytes) (j k : Nat) : Word := wordAt tb (16 + 12 * j + 4 * k)

/-- tbl of R162, with a rounding for the subtractions, the multiplication and both fmas: RNE for TBL,
truncation for A5 compatibility mode (R170). DEDUCED (log 33): R170 says 'the subtraction', tbl has two, and both truncate. -/
def tblEval (rd : Rounding) (tb : Bytes) (x : Word) : Word :=
  if isNan32 x then nan32 else
    let symmetry := byteAt tb 9
    let outside := byteAt tb 8
    let s := if symmetry != 0 then abs32 x else x
    let t := mulR rd (subR rd s (wordAt tb 0)) (wordAt tb 4)
    let j := floorInt t
    let out := lt32 t zero32 || !(lt32 t (int32w 256))
    if out && outside == 2 then nan32
    else
      let jh : Int × Word :=
        if !out then (j, subR rd t (rint32 1 t))
        else if outside == 0 then (if lt32 t zero32 then (0, zero32) else (255, one32))
        else
          let jc := clampInt 0 255 j
          (jc, subR rd t (int32w jc))
      let jn := jh.1.toNat
      let y := fmaR rd (fmaR rd (tableCoef tb jn 2) jh.2 (tableCoef tb jn 1)) jh.2 (tableCoef tb jn 0)
      if symmetry == 1 && negative32 x then neg32 y else y

/-- Whether a table entry obeys Table 6.5 and its CRC matches (R163). -/
def tableValid (tb : Bytes) : Bool :=
  let w := wordAt tb 4
  tb.length == 4096 && (w.toNat < 0x7F800000) && lt32 zero32 w
    && byteAt tb 8 ≤ 2 && byteAt tb 9 ≤ 2 && zeroBytes tb 12 4 && zeroBytes tb 3092 1004
    && le tb 3088 4 == crc32c (tb.take 3088)

/-- Built-in function 0x20 + fn with a MOD (Table 6.1); a5 gives the A5 table of each function (R170). -/
def builtin (a5 : Nat → Bytes) (fn mod : Nat) (a : Word) : Word :=
  if mod == 4 then tblEval .trunc (a5 fn) a
  else match fn with
    | 0 => if mod == 0 then exp2 a else expe a
    | 1 => if mod == 0 then log2w a else loge a
    | 2 => rcp a
    | 3 => rsqrt a
    | 4 => sinw a (mod == 1)
    | 5 => cosw a (mod == 1)
    | 6 => oddfn true a
    | 7 => oddfn false a
    | _ => sigm a

/-- Whether a MOD is defined for a built-in function (Table 6.1). -/
def builtinModValid (fn mod : Nat) : Bool :=
  mod == 0 || mod == 4 || (mod == 1 && (fn == 0 || fn == 1 || fn == 4 || fn == 5))

/-! ### Micro-programs (R168) -/

/-- One step of a micro-program on its temporaries (Table 6.8). -/
def mprgStep (a5 tables : Nat → Bytes) (prog : Bytes) (us : List Word) (step : Nat) : List Word :=
  let reg := fun i => us.getD i zero32
  let op := bits step 27 5
  let a := reg (bits step 21 3)
  let b := reg (bits step 18 3)
  let c := reg (bits step 15 3)
  let idx := bits step 0 5
  let r : Word := match op with
    | 0x01 => canon32 (wordAt prog (16 + 4 * idx))
    | 0x02 => add32 a b
    | 0x03 => mul32 a b
    | 0x04 => fma32 a b c
    | 0x05 => min32 a b
    | 0x06 => max32op a b
    | 0x07 => abs32 a
    | 0x08 => rint32 1 a
    | 0x09 => if isNan32 a || isNan32 b then nan32
              else scale32 a (clampInt (-300) 300 (match val32 b with
                | .nan => 0 | .fin s m e => roundInt 3 s m e))
    | 0x0A => if isNan32 a then nan32 else if isZero32 a then a
              else (let m := (split32 a).2; if signBit32 a then neg32 m else m)
    | 0x0B => if isNan32 a then nan32 else if isZero32 a then int32w (-150) else int32w (split32 a).1
    | 0x0C => if isZero32 a || isNan32 a then c else b
    | 0x0D => if lt32 a b then one32 else zero32
    | 0x0E => tblEval .rne (tables idx) a
    | _ => builtin a5 idx (bits step 18 3) a
  us.set (bits step 24 3) r

/-- A micro-program evaluated at a (R168). -/
def mprgEval (a5 tables : Nat → Bytes) (prog : Bytes) (a : Word) : Word :=
  let steps := (List.range (byteAt prog 0)).map fun i => le prog (80 + 4 * i) 4
  let us := steps.foldl (mprgStep a5 tables prog) (a :: List.replicate 7 zero32)
  us.getD (byteAt prog 1) zero32

/-- Whether a micro-program entry obeys R168, given which table slots of the set hold a table. -/
def mprgValid (tables : Nat) (prog : Bytes) : Bool :=
  let n := byteAt prog 0
  prog.length == 256 && 1 ≤ n && n ≤ 32 && byteAt prog 1 ≤ 7 && zeroBytes prog 2 14
    && zeroBytes prog (80 + 4 * n) (176 - 4 * n)
    && (List.range n).all fun i =>
      let s := le prog (80 + 4 * i) 4
      let op := bits s 27 5
      let idx := bits s 0 5
      1 ≤ op && op ≤ 0x0F && bits s 5 10 == 0
        && (op != 0x01 || idx ≤ 15) && (op != 0x0E || idx < tables)
        && (op != 0x0F || (idx ≤ 8 && builtinModValid idx (bits s 18 3)))

/-- The weight of a micro-program in special-function results (R169): ⌈W / 8⌉. -/
def mprgCost (prog : Bytes) : Nat :=
  let w := ((List.range (byteAt prog 0)).map fun i =>
    if bits (le prog (80 + 4 * i) 4) 27 5 == 0x0F then 8 else 1).foldl (· + ·) 0
  ceilDiv w 8

/-! ### Row statistics (R150, R151, R171 to R174) -/

/-- The kinds of Table 5.9. -/
inductive StatKind where
  | moments | softmax | sum | maxmin
deriving DecidableEq, Repr

/-- The kind of a KIND field. -/
def StatKind.ofCode : Nat → Option StatKind
  | 0 => some .moments | 1 => some .softmax | 2 => some .sum | 3 => some .maxmin | _ => none

/-- A 16-byte record: COUNT and three fields (Table 5.9). -/
structure StatRec where
  count : Nat
  f1    : Word
  f2    : Word
  f3    : Word
deriving DecidableEq, Repr

/-- The greatest of a list of values by MAX of Table 5.4. -/
def maxOf : List Word → Word
  | [] => lowest32
  | x :: xs => xs.foldl max32op (max32op x x)

/-- The least of a list of values by MIN of Table 5.4. -/
def minOf : List Word → Word
  | [] => max32
  | x :: xs => xs.foldl min32 (min32 x x)

/-- The record of one chunk's values, in logical order (R151, R171). -/
def statChunk (k : StatKind) (xs : List Word) : StatRec :=
  let n := xs.length
  match k with
  | .moments =>
    let shift := xs.headD zero32
    let ds := xs.map fun x => match exact32 x, exact32 shift with
      | some a, some b => some (a.add b.negate) | _, _ => none
    let sq := ds.map fun d => d.map fun a => a.mul a
    ⟨n, if isNan32 shift then nan32 else shift, sum32 ds, sum32 sq⟩
  | .softmax =>
    let m := maxOf xs
    ⟨n, m, sum32 (xs.map fun x => exact32 (expe (sub32 x m))), zero32⟩
  | .sum => ⟨n, sum32 (xs.map exact32), zero32, zero32⟩
  | .maxmin => ⟨n, maxOf xs, minOf xs, zero32⟩

/-- Exact a + b + c + … of products of exact factors, rounded once; NaN when any factor is NaN (R172). -/
def polySum (terms : List (List (Option Exact))) : Word :=
  sum32 (terms.map fun t => t.foldl (fun acc x => match acc, x with
    | some a, some b => some (a.mul b) | _, _ => none) (some (Exact.ofInt 1)))

/-- The combine of a record with the record of the next contributor (Table 6.9). -/
def statCombine (k : StatKind) (a b : StatRec) : StatRec :=
  let n := a.count + b.count
  match k with
  | .moments =>
    let delta := match exact32 b.f1, exact32 a.f1 with
      | some x, some y => some (x.add y.negate) | _, _ => none
    let nb := some (Exact.ofInt b.count)
    let two := some (Exact.ofInt 2)
    ⟨n, a.f1,
      polySum [[exact32 a.f2], [exact32 b.f2], [nb, delta]],
      polySum [[exact32 a.f3], [exact32 b.f3], [two, delta, exact32 b.f2], [nb, delta, delta]]⟩
  | .softmax =>
    let m := max32op a.f1 b.f1
    let fa := expe (sub32 a.f1 m)
    let fb := expe (sub32 b.f1 m)
    ⟨n, m, polySum [[exact32 a.f2, exact32 fa], [exact32 b.f2, exact32 fb]], zero32⟩
  | .sum => ⟨n, add32 a.f1 b.f1, zero32, zero32⟩
  | .maxmin => ⟨n, max32op a.f1 b.f1, min32 a.f2 b.f2, zero32⟩

/-- An exact rational i / d. -/
structure Ratio where
  i : Int
  d : Nat
deriving DecidableEq, Repr

/-- An exact binary fraction as a rational. -/
def Exact.ratio (x : Exact) : Ratio :=
  let (a, b) := pow2 x.e
  ⟨x.i * a, b⟩

/-- Exact sum of rationals. -/
def Ratio.add (x y : Ratio) : Ratio := ⟨x.i * y.d + y.i * x.d, x.d * y.d⟩
/-- Exact product of rationals. -/
def Ratio.mul (x y : Ratio) : Ratio := ⟨x.i * y.i, x.d * y.d⟩
/-- A rational divided by n ≥ 1. -/
def Ratio.over (x : Ratio) (n : Nat) : Ratio := ⟨x.i, x.d * n⟩
/-- A rational limited below by 0 (R174). -/
def Ratio.clamp0 (x : Ratio) : Ratio := if x.i ≤ 0 then ⟨0, 1⟩ else x
/-- A rational rounded to FP32; zero is +0. -/
def Ratio.to32 (x : Ratio) : Word := ratio32 .rne (decide (x.i < 0)) x.i.natAbs x.d

/-- The quantity that STATRD returns from a final record (Table 6.10). -/
def statQuantity (mod : Nat) (eps : Word) (r : StatRec) : Word :=
  let n := r.count
  match mod with
  | 0 => match exact32 r.f1, exact32 r.f2 with
    | some sh, some s1 => if n = 0 then nan32 else (sh.ratio.add (s1.ratio.over n)).to32
    | _, _ => nan32
  | 1 => match exact32 r.f2, exact32 r.f3, exact32 eps with
    | some s1, some s2, some e => if n = 0 then nan32 else
        let m := s1.ratio.over n
        rsqrt ((((s2.ratio.over n).add (m.mul ⟨-m.i, m.d⟩)).clamp0).add e.ratio).to32
    | _, _, _ => nan32
  | 2 => match exact32 r.f1, exact32 r.f2, exact32 r.f3, exact32 eps with
    | some sh, some s1, some s2, some e => if n = 0 then nan32 else
        let two : Ratio := ⟨2, 1⟩
        let v := ((s2.ratio.over n).add (two.mul (sh.ratio.mul (s1.ratio.over n)))).add (sh.ratio.mul sh.ratio)
        rsqrt ((v.clamp0).add e.ratio).to32
    | _, _, _, _ => nan32
  | 3 => r.f1
  | 4 => r.f1
  | 5 => int32w n
  | 6 => add32 r.f1 (loge r.f2)
  | _ => r.f2

/-- Whether a kind provides a STATRD quantity (Table 5.9). -/
def StatKind.provides (k : StatKind) (mod : Nat) : Bool := match k with
  | .moments => mod == 0 || mod == 1 || mod == 2 || mod == 5
  | .softmax => mod == 3 || mod == 5 || mod == 6
  | .sum => mod == 4 || mod == 5
  | .maxmin => mod == 3 || mod == 5 || mod == 7

end Sys2Proof.Machine
end

