-- ==== Sys2Proof/Machine/Plan.lean ====
section
/-! DEFINITION. A plan as the plan image holds it: its header, its sections and its descriptors, kept as the bytes of
the manual's layouts, with one accessor for each field (R56, R60, R66, R383 to R385). -/

namespace Sys2Proof

/-- One section of a plan (Table 14.11), with its content. -/
structure Section where
  type     : Nat
  variant  : Nat
  position : Nat
  index    : Nat
  content  : Bytes
  /-- Where its content starts in the plan's bytes (OFFSET). -/
  place    : Nat := 0
deriving DecidableEq, Repr

/-- A plan: its 128-byte header (Table 14.10) and its sections. -/
structure Plan where
  header   : Bytes
  sections : List Section
deriving DecidableEq, Repr

/-- A plan of the active plan set: whether it passed plan-load admission (R33), and where it starts in the body of the
plan image. -/
structure PlanEntry where
  plan       : Plan
  admissible : Bool
  place      : Nat := 0
deriving DecidableEq, Repr

/-- The body header of a plan image (Table 14.9). -/
structure Layout where
  planBase0  : Nat
  planBase1  : Nat
  planSize   : Nat
  poolBase   : Nat
  poolFrames : Nat
  mediaBase  : Nat
  ckptBase0  : Nat
  ckptBase1  : Nat
  ckptSize   : Nat
deriving DecidableEq, Repr

namespace Machine

/-! ### Plan header (Table 14.10) -/

/-- FORMAT, the plan format revision. -/
def planFormat (p : Plan) : Nat := le p.header 4 2
/-- PLAN_ID. -/
def planId (p : Plan) : Nat := le p.header 8 8
/-- The tick source of Table 1.1. -/
def planSource (p : Plan) : Nat := bits (byteAt p.header 16) 0 2
/-- The nominal word-clock rate in Hz; none for the unused code. -/
def planClockHz (p : Plan) : Option Nat := match bits (byteAt p.header 16) 2 2 with
  | 0 => some 48000 | 1 => some 96000 | 2 => some 192000 | _ => none
/-- Which of 48, 96 and 192 kHz the nominal word clock is: 0, 1 or 2 (Table 14.10). -/
def planClock (p : Plan) : Nat := bits (byteAt p.header 16) 2 2
/-- P, frames in flight. -/
def planP (p : Plan) : Nat := byteAt p.header 17
/-- N, refinement depth. -/
def planN (p : Plan) : Nat := le p.header 18 2
/-- DIVIDER. -/
def planDivider (p : Plan) : Nat := le p.header 20 2
/-- POST_FUNCTION: 0 argmax, 1 top-k. -/
def planPostFunction (p : Plan) : Nat := byteAt p.header 22
/-- FLAGS. -/
def planFlags (p : Plan) : Nat := byteAt p.header 23
/-- FLAGS[0], split-exact switchable (R148). -/
def planSwitchable (p : Plan) : Bool := bitAt (planFlags p) 0
/-- FLAGS[1], reads T4. -/
def planReadsT4 (p : Plan) : Bool := bitAt (planFlags p) 1
/-- PERIOD_NS. -/
def planPeriodNs (p : Plan) : Nat := le p.header 24 4
/-- C_S in ns. -/
def planCs (p : Plan) : Nat := le p.header 28 4
/-- C_R in ns. -/
def planCr (p : Plan) : Nat := le p.header 32 4
/-- C_MAX in ns. -/
def planCmax (p : Plan) : Nat := le p.header 36 4
/-- COMMIT in ns. -/
def planCommit (p : Plan) : Nat := le p.header 40 4
/-- ACC_SLOTS. -/
def planAccSlots (p : Plan) : Nat := le p.header 44 2
/-- CIRRUS_RESERVE. -/
def planCirrusReserve (p : Plan) : Nat := le p.header 46 2
/-- DEFAULT_SEED. -/
def planSeed (p : Plan) : Nat := le p.header 48 8
/-- HOST_LINK in MB/s per direction. -/
def planHostLink (p : Plan) : Nat := le p.header 56 4
/-- COND_MAX in bytes. -/
def planCondMax (p : Plan) : Nat := le p.header 60 4
/-- RING_MIN for rings 0, 1, 2, 3 and 5. -/
def planRingMin (p : Plan) (i : Nat) : Nat := le p.header (64 + 4 * i) 4
/-- DIR_FIRST. -/
def planDirFirst (p : Plan) : Nat := le p.header 84 4
/-- DIR_COUNT. -/
def planDirCount (p : Plan) : Nat := le p.header 88 4

/-- Tp exactly (R14): D / f_wc for a word clock, PERIOD_NS otherwise. -/
def planTp (p : Plan) : Time :=
  if planSource p = 2 then
    match planClockHz p with
    | some f => planDivider p * (30000 * 1000000000) / f
    | none => ns (planPeriodNs p)
  else ns (planPeriodNs p)

/-- W of R16 for a period: Tp × 100 × 10^-6 + 1 µs. -/
def windowHalf (tp : Time) : Time := tp / 10000 + us 1

/-- L of R26. -/
def planL (p : Plan) : Nat := planP p + 2

/-! ### Sections (Tables 14.11, 14.12) -/

/-- The content of the section with a type, a variant (exact, or the section for every variant), a position and an
index; none when there is none. -/
def findSection (p : Plan) (type variant position index : Nat) : Option Bytes :=
  (p.sections.find? fun s => s.type == type && (s.variant == variant || s.variant == 0)
    && (s.position == position || s.position == 0xFF) && s.index == index).map (·.content)

/-- Where the content of a section starts in the plan's bytes. -/
def sectionPlace (p : Plan) (type variant position index : Nat) : Option Nat :=
  (p.sections.find? fun s => s.type == type && (s.variant == variant || s.variant == 0)
    && (s.position == position || s.position == 0xFF) && s.index == index).map (·.place)

/-- A section keyed by nothing. -/
def sectionOf (p : Plan) (type : Nat) : Bytes :=
  ((p.sections.find? fun s => s.type == type).map (·.content)).getD []

/-- Whether a ring variant of a size exists: path 0 command lists for every position (R385). -/
def variantExists (p : Plan) (size : Nat) : Bool :=
  1 ≤ size && (List.range size).all fun pos => (findSection p 0x01 size pos 0).isSome

/-- The commands that a path gives a core: the list of 64-byte descriptors (Table 14.12). -/
def commandList (p : Plan) (variant position path core : Nat) : List Bytes :=
  match findSection p 0x01 variant position path with
  | none => []
  | some c =>
    let off := le c (8 * core) 4
    let n := le c (8 * core + 4) 4
    (List.range n).map fun i => slice c (off + 64 * i) 64

/-- Tensor-table entry i of a variant (R60). -/
def tensorEntry (p : Plan) (variant i : Nat) : Bytes :=
  slice ((findSection p 0x02 variant 0xFF 0).getD []) (32 * i) 32

/-- Entry i of a section of fixed-size entries. -/
def tableEntry (p : Plan) (type size i : Nat) : Bytes := slice (sectionOf p type) (size * i) size

/-- How many entries of a size a section holds. -/
def tableCount (p : Plan) (type size : Nat) : Nat := (sectionOf p type).length / size

/-! ### Command header (Tables 2.6, 2.7) -/

/-- OPCODE. -/
def cmdOpcode (c : Bytes) : Nat := byteAt c 0
/-- FLAGS. -/
def cmdFlags (c : Bytes) : Nat := byteAt c 1
/-- FLAGS[2], COMMIT_ON_FINISH. -/
def cmdCommitOnFinish (c : Bytes) : Bool := bitAt (cmdFlags c) 2
/-- FLAGS[1], CIRRUS_ELIGIBLE. -/
def cmdEligible (c : Bytes) : Bool := bitAt (cmdFlags c) 1
/-- FLAGS[0], SPLIT_EXACT. -/
def cmdSplitExact (c : Bytes) : Bool := bitAt (cmdFlags c) 0
/-- DEADLINE, in units of 2 µs. -/
def cmdDeadline (c : Bytes) : Nat := le c 2 2
/-- WAIT_EVENT. -/
def cmdWaitEvent (c : Bytes) : Nat := le c 4 2
/-- SIGNAL_EVENT. -/
def cmdSignalEvent (c : Bytes) : Nat := le c 6 2
/-- ACC_SLOTS. -/
def cmdAccSlots (c : Bytes) : Nat := le c 8 2
/-- ALT_LIST. -/
def cmdAltList (c : Bytes) : Nat := le c 10 2
/-- CMD_INDEX. -/
def cmdIndex (c : Bytes) : Nat := le c 12 4
/-- EVENT0 to EVENT3 of WAIT and SIGNAL that are used (R66). -/
def cmdEvents (c : Bytes) : List Nat := ((List.range 4).map fun i => le c (16 + 2 * i) 2).filter (· != 0)
/-- FIRST of COMMIT. -/
def cmdFirst (c : Bytes) : Nat := le c 16 4
/-- LAST of COMMIT. -/
def cmdLast (c : Bytes) : Nat := le c 20 4

/-- The engine classes of Table 2.5. -/
inductive EngineClass where
  | matrix | vector | edge | transfer | link | control
deriving DecidableEq, Repr

/-- The class of an opcode (Table 2.5). -/
def classOf : Nat → EngineClass
  | 0x01 => .matrix | 0x02 => .matrix | 0x03 => .matrix
  | 0x04 => .vector | 0x0E => .vector | 0x0F => .vector
  | 0x0D => .edge
  | 0x05 => .transfer | 0x06 => .transfer | 0x0C => .transfer
  | 0x07 => .link | 0x08 => .link
  | _ => .control

/-! ### Tensor descriptors (Tables 2.8, 2.9) -/

/-- A tensor descriptor (R60), taken apart. -/
structure Tensor where
  base    : Nat
  fmt     : Fmt
  rank    : Nat
  space   : Nat
  dims    : List Nat
  strides : List Nat
  scaleOff : Nat
deriving DecidableEq, Repr

/-- A 32-byte descriptor as a tensor; a format code outside Table 3.1 reads as FP32 (rejected at plan load). -/
def tensorOf (d : Bytes) : Tensor :=
  let b6 := byteAt d 6
  let fmt := (Fmt.ofCode (bits b6 0 4)).getD .fp32
  let rank := bits b6 4 3
  let st := le d 18 14
  let stride := fun j => bits st (28 * (j - 1)) 28
  { base := le d 0 6, fmt := fmt, rank := rank, space := bits (byteAt d 7) 0 3,
    dims := (List.range 5).map fun j => le d (8 + 2 * j) 2 + 1,
    strides := if fmt.blockScaled then [1, stride 1, stride 2, stride 3, 0]
      else [1, stride 1, stride 2, stride 3, stride 4],
    scaleOff := if fmt.blockScaled then stride 4 else 0 }

/-- Extent of dimension j. -/
def Tensor.dim (t : Tensor) (j : Nat) : Nat := t.dims.getD j 1

/-- Number of logical elements. -/
def Tensor.count (t : Tensor) : Nat := t.dims.foldl (· * ·) 1

/-- The logical indices of element n, dimension 0 fastest. -/
def unflatten (dims : List Nat) (n : Nat) : List Nat :=
  (dims.foldl (fun (acc : List Nat × Nat) d => (acc.1 ++ [acc.2 % d], acc.2 / d)) ([], n)).1

/-- Element offset of logical indices (R60). -/
def Tensor.offset (t : Tensor) (ix : List Nat) : Nat :=
  (List.zipWith (· * ·) ix t.strides).foldl (· + ·) 0

/-- Byte address and bit place of an element from its element offset (R61), with its width in bits. -/
def elementPlace (f : Fmt) (base off : Nat) : Nat × Nat × Nat := match f with
  | .f4s => (base + off / 2, 4 * (off % 2), 4)
  | .u10p => (base + 4 * (off / 3), 10 * (off % 3), 10)
  | _ => (base + off * (f.storageBits / 8), 0, f.storageBits)

/-- Byte address of the block scale of an element (R61). -/
def Tensor.scaleAddr (t : Tensor) (ix : List Nat) : Nat :=
  t.base + 16 * t.scaleOff + ix.headD 0 / 32
    + (List.zipWith (· * ·) (ix.drop 1) (t.strides.drop 1)).foldl (· + ·) 0 / 32

/-- Bytes from base to the end of the last element, scales included: the extent of R61. -/
def Tensor.extent (t : Tensor) : Nat :=
  let last := (t.dims.map (· - 1))
  let off := t.offset last
  let (a, _, w) := elementPlace t.fmt 0 off
  let body := if t.fmt = .u10p then a + 4 else a + (w + 7) / 8
  if t.fmt.blockScaled then max body (t.scaleAddr last - t.base + 1) else body

/-! ### Event table (R62, Table 14.12) -/

/-- The target of an event in a path for a scope instance; 0 when the table has no entry. -/
def eventTarget (p : Plan) (path ev scope : Nat) : Nat :=
  let c := (findSection p 0x07 0 0xFF path).getD []
  let es := (List.range (c.length / 4)).map fun i => le c (4 * i) 4
  match es.find? fun e => bits e 0 16 == ev && (0x2000 ≤ ev || bits e 24 6 == scope) with
  | some e => bits e 16 8
  | none => 0

/-- The scope instance of an event seen from a core: the core, its cluster, or 0 for the module (Table 2.10). -/
def eventScope (ev core : Nat) : Nat :=
  if ev < 0x1000 then core else if ev < 0x2000 then core / 8 else 0

end Machine

end Sys2Proof
end

