-- ==== Sys2Proof/Machine/State.lean ====
section
/-! DEFINITION. The state of the module as plain data, chapter by chapter, with its value right after power is applied
at standby (log 2), and the reasons for which a command can stop. -/

namespace Sys2Proof.Machine

/-- Why a command stops with a fault. -/
inductive Fault where
  /-- A memory command reached an address outside the space that its descriptor names (R61). Raised by the compute
  commands only. Safe: plan-load admission rejects every plan in which this can happen. -/
  | addressOutsideSpace
deriving DecidableEq, Repr

/-- Why a command is refused. -/
inductive Refusal where
  /-- The command has no meaning yet. Safe: nothing can be proved of it. -/
  | notModelled (mnemonic : String)
deriving DecidableEq, Repr

/-! ### Tick (R13 to R20) -/

/-- Lock of a frame-pulse source, followed for one period Tp (R18). -/
structure Tracker where
  tp     : Time
  newest : Option Time
  run    : Nat
  locked : Bool
deriving DecidableEq, Repr

/-- The tick source and the boundaries placed. -/
structure TickState where
  source     : Nat := 0
  divider    : Nat := 0
  periodNs   : Nat := 0
  tp         : Time := 0
  locked     : Bool := false
  ringFwd    : Bool := false
  flywheel   : Nat := 0
  /-- TCK_INDEX: k of the newest boundary. -/
  index      : Nat := 0
  /-- T(k) of the newest boundary. -/
  boundary   : Time := 0
  /-- A boundary of the current job has been placed. -/
  placed     : Bool := false
  /-- j and T(j) of the newest boundary that was an edge (R15). -/
  edgeIndex  : Nat := 0
  edgeTime   : Time := 0
  /-- The earliest T(0) or T(r) that R35 permits; for a frame pulse the expected E(0). -/
  start      : Option Time := none
  trackers   : List Tracker := []
  /-- For 48, 96 and 192 kHz: the word clock has stayed within 100 ppm of that rate for 10 ms (R18). -/
  clockLock  : List Bool := List.replicate 3 false
  /-- The newest rising word-clock edge, from which T(0) is foretold (R35). -/
  wordEdge   : Option Time := none
  /-- Rise of the newest TICK_OUT pulse (R20); none while TICK_OUT is low. -/
  pulse      : Option Time := none
deriving DecidableEq, Repr

/-! ### Job (R25 to R41) -/

/-- The job states of Table 1.7. -/
inductive JobPhase where
  | idle | armed | running | draining | squall | stopping | maintenance | eclipse
deriving DecidableEq, Repr

/-- The code of a job state (Table 1.7). -/
def JobPhase.code : JobPhase → Nat
  | .idle => 1 | .armed => 2 | .running => 3 | .draining => 4 | .squall => 5 | .stopping => 6
  | .maintenance => 7 | .eclipse => 8

/-- The reasons of a gap record (Table 13.12). -/
inductive GapReason where
  | recovery | dusk | preemption | aborted | eclipse
deriving DecidableEq, Repr

/-- REASON of a gap record (Table 13.12). -/
def GapReason.code : GapReason → Nat
  | .recovery => 1 | .dusk => 2 | .preemption => 3 | .aborted => 4 | .eclipse => 5

/-- One committed access unit of a frame. -/
structure AccessUnit where
  stream : Nat
  key    : Bool
  capped : Bool
  data   : Bytes
deriving DecidableEq, Repr

/-- The flags of a frame (Table 13.12, FLAGS[6:0]). -/
structure FrameFlags where
  held     : Bool := false
  default  : Bool := false
  flywheel : Bool := false
  resumed  : Bool := false
  damaged  : Bool := false
  capped   : Bool := false
deriving DecidableEq, Repr

/-- A frame accepted and not yet delivered. -/
structure Frame where
  number   : Nat
  /-- The tick at which it counts as accepted. -/
  accepted : Nat
  flags    : FrameFlags
  /-- PATH[0..8]: path of the tick that last ran each stage. -/
  paths    : List Nat
  units    : List AccessUnit
  /-- Its pixels are committed (stage P done). -/
  decoded  : Bool
  /-- It reuses the conditioning of the previous frame (R28). -/
  reused   : Bool := false
deriving DecidableEq, Repr

/-- One segment of conditioning (Table 13.11) with its payload. -/
structure Segment where
  kind    : Nat
  stream  : Nat
  payload : Bytes
deriving DecidableEq, Repr

/-- Conditioning picked up for a frame, with the moment at which its record arrived (R27). -/
structure Conditioning where
  frame    : Nat
  arrived  : Time
  segments : List Segment
deriving DecidableEq, Repr

/-- Recovery in progress (R39, R411). -/
structure Squall where
  /-- First detection. -/
  detected  : Time
  /-- Tick in which the first fault was detected. -/
  tick      : Nat
  /-- c, the newest committed tick at detection. -/
  c         : Option Nat
  /-- 2 or 3. -/
  level     : Nat
  /-- The Compute reset is complete. -/
  resetDone : Bool
  /-- The instant at which recovery was complete. -/
  complete  : Option Time
  /-- Unit charged with the fault, tested during recovery (Table 15.8). -/
  charged   : Option (BitVec 32)
  /-- Die of the HBM that holds the fault (R409). -/
  die       : Option Nat
  /-- Common abort of a ring (R334): RESUME decides c and r. -/
  ring      : Bool
deriving DecidableEq, Repr

/-- A stop that waits. -/
structure PendingStop where
  reason : GapReason
  code   : Nat
  /-- The tick in which it arose. -/
  tick   : Nat
deriving DecidableEq, Repr

/-- What a stop keeps for a resume (R38). -/
structure Retained where
  planIndex   : Nat
  measurement : Bytes
  planId      : Nat
  /-- c, and the tick as whose checkpoint the retained one counts. -/
  c           : Nat
  ckptTick    : Nat
  stopTick    : Nat
  reason      : GapReason
  endTick     : Option Nat
  nextFrame   : Nat
  /-- The ring variant whose slots hold the checkpoint (R407). -/
  variant     : Nat
  /-- Frames to restore, with the conditioning accepted for them (R38). -/
  frames      : List Frame
  condFrames  : List (Nat × List Segment)
  previous    : Option (List Segment)
  shift       : Nat
  seed        : Nat
  ak          : Nat
deriving DecidableEq, Repr

/-- The job and its frames. -/
structure JobState where
  phase       : JobPhase := .idle
  lastCode    : Nat := 0
  planIndex   : Nat := 0
  endPending  : Option Time := none
  /-- e, once JOB_END is effective. -/
  endTick     : Option Nat := none
  resumable   : Bool := false
  delivered   : Nat := 0
  acceptedNo  : Nat := 0
  shift       : Nat := 0
  reserve     : Nat := 0
  schedule    : Nat := 0
  seed        : Nat := 0
  splitWanted : Bool := false
  splitForced : Bool := false
  resume      : Bool := false
  /-- Ring size and position of the running variant. -/
  variant     : Nat := 1
  position    : Nat := 0
  /-- Index of the first boundary: 0, or r = s + 1 for a resume. -/
  first       : Nat := 0
  nextFrame   : Nat := 0
  frames      : List Frame := []
  /-- Conditioning in force for each accepted frame still in flight (R29), and the previous one (R28). -/
  condFrames  : List (Nat × List Segment) := []
  previous    : Option (List Segment) := none
  /-- c: the newest committed tick. -/
  committed   : Option Nat := none
  /-- A_k of the current tick and of the newest committed tick (R184). -/
  ak          : Nat := 0
  akCommitted : Nat := 0
  /-- The tick as whose checkpoint the newest one counts: c, also after a recovery until tick r commits (R39). -/
  ckptTick    : Option Nat := none
  squall      : Option Squall := none
  /-- Dusk cause waiting for the next boundary (R36). -/
  dusk        : Option PendingStop := none
  /-- JOB_PREEMPT or JOB_ABORT deferred in SQUALL (Table 1.8). -/
  deferred    : Option PendingStop := none
  /-- Reason of the stop in progress (R38). -/
  stopping    : Option GapReason := none
  retained    : Option Retained := none
  /-- The next tick whose delivery slot gets a record (R31). -/
  nextSlot    : Nat := 0
  /-- Reason of a gap record in a slot that no accepted frame fills. -/
  gapReason   : GapReason := .recovery
  /-- Path of the current tick (R284). -/
  path        : Nat := 0
  /-- The moment at which the job ended (R431). -/
  endedAt     : Option Time := none
  /-- PLAN_ID of the current or most recent job (Table 14.14). -/
  lastPlanId  : Nat := 0
  /-- Level-1 recovery already used in this tick (R398). -/
  level1Used  : Bool := false
  /-- Key-frame requests not yet past a boundary, by encode entry (R300). -/
  keyMask     : Nat := 0
  /-- A JOB_START of a ring, admitted and not yet answered (R338). -/
  startReq    : Option Bytes := none
deriving DecidableEq, Repr

/-! ### Compute (R51 to R70) -/

/-- The memories that a write can reach. -/
inductive Space where
  | hbm | cache | scratch | acc | halo | store | host
deriving DecidableEq, Repr

/-- An atomic operation (Table 10.3). -/
inductive AtomicOp where
  | iadd | smin | smax | umin | umax | and | or | xor | exch | cas
deriving DecidableEq, Repr

/-- One entry of a staging queue (R67). -/
inductive Staged where
  /-- An atomic on a cluster-cache word of 4 or 8 bytes: address, operand, comparand, and where the old value goes. -/
  | atomic (op : AtomicOp) (wide : Bool) (addr value compare : Nat) (result : Option (Space × Nat))
  /-- A contribution of FP32 values to a slot of a cluster (R256). -/
  | fsum (cluster slot contributor parties : Nat) (values : List Word)
  /-- Statistic records of rows for a slot (R152). -/
  | stats (cluster slot contributor parties : Nat) (kind : StatKind) (records : List StatRec)
  /-- A request to the Tier partition (R279). -/
  | tierReq (entries : List Nat) (ahead alt hold : Nat) (missed : Bool)
deriving DecidableEq, Repr

/-- Where an in-flight command stands. -/
inductive RunPhase where
  | running | finished
deriving DecidableEq, Repr

/-- The Cirrus side of an in-flight command (R401 to R404). -/
inductive CirrusPhase where
  /-- Not selected, or skipped, or dropped: commits unchecked. -/
  | none
  /-- Selected; digest of the original once it has finished. -/
  | selected (original : Option (Nat × Nat))
  /-- The digests differ; the arbiter's run is awaited. -/
  | arbitrating (original duplicate : Nat × Nat)
  /-- The original was re-run; the digest it must give. -/
  | rerun (agreed : Nat × Nat)
  /-- Compared or arbitrated in its favour: may commit. -/
  | cleared
deriving DecidableEq, Repr

/-- One in-flight command: issued and not yet committed. -/
structure Run where
  core    : Nat
  /-- Place in the core's list. -/
  place   : Nat
  cmd     : Bytes
  phase   : RunPhase
  slots   : List Nat
  staged  : List Staged
  /-- Bytes written into output regions, in order (D2 of R403). -/
  outBytes : Bytes
  /-- Values presented to conversion, in order (D1 of R403). -/
  values  : List Word
  cirrus  : CirrusPhase
  /-- The engine's work is complete; false for a collective that awaits data (R326). -/
  work    : Bool
  /-- The DMA channel of the core that serves it, 0 or 1 (Table 2.3). -/
  channel : Option Nat := none
deriving DecidableEq, Repr

/-- A duplicate or an arbiter run on the core that hosts it (R402, R404). -/
structure Guest where
  host    : Nat
  /-- The original's core and place. -/
  core    : Nat
  place   : Nat
  cmd     : Bytes
  arbiter : Bool
  /-- It has issued, with its slots of the host's reserve; else it waits for its engine class or for the reserve. -/
  issued  : Bool
  slots   : List Nat
deriving DecidableEq, Repr

/-- The contents of an ordered reduction slot (R149 to R154, R255, R256). -/
structure OrderedSlot where
  cluster       : Nat
  slot          : Nat
  /-- Contributions not yet merged, by contributor number. -/
  contributions : List (Nat × List StatRec × List Word)
  parties       : Nat
  kind          : StatKind
  /-- The merged records or values, once final. -/
  final         : Option (List StatRec × List Word)
deriving DecidableEq, Repr

/-- A function bank by its slots (Table 6.4): slots 0x00 to 0x1F, slots 0x20 to 0x28, and the 256-byte entries of slot 0x2F.
Every core receives the same set and nothing else writes a bank, so the 64 copies are held once (log 33). -/
structure FunctionBank where
  tables : List Bytes := []
  a5     : List Bytes := []
  micros : List Bytes := []
deriving DecidableEq, Repr

/-- The Compute partition. -/
structure ComputeState where
  /-- Per core: how many commands of its list have issued. -/
  issued   : List Nat := List.replicate 64 0
  /-- Per core: how many commands its list for the chosen path holds, as fetched at the boundary (R52). -/
  totals   : List Nat := List.replicate 64 0
  /-- Per core: the command buffer, the next commands of the list, at most 512 of 64 bytes (Table 2.3, R52). -/
  buffers  : List (List Bytes) := List.replicate 64 []
  /-- Killed commands to issue again before the next one: core, place and descriptor. -/
  reissue  : List (Nat × Nat × Bytes) := []
  runs     : List Run := []
  /-- Commands committed in this tick, by core and place. -/
  done     : List (Nat × Nat) := []
  /-- Event counts: (event, scope instance) and count. -/
  counts   : List ((Nat × Nat) × Nat) := []
  /-- The active function bank of every core (R160). -/
  bank     : Nat := 0
  bank0    : FunctionBank := {}
  bank1    : FunctionBank := {}
  ordered  : List OrderedSlot := []
  /-- Per cluster: the core that holds the edge engine (R215). -/
  edge     : List (Option Nat) := List.replicate 8 none
  /-- Requests for a cluster's edge engine that wait: the requesting core and when it asked (R215). -/
  edgeQueue : List (Nat × Time) := []
  /-- Duplicates hosted in this tick, by hosting core (R402). -/
  hosted   : List Nat := []
  /-- Duplicates and arbiter runs that wait or run on their hosts (R402, R404). -/
  guests   : List Guest := []
  inReset  : Bool := false
  /-- Digests that re-runs of killed commands must give, by core and place (Table 15.3). -/
  agreed   : List ((Nat × Nat) × (Nat × Nat)) := []
  /-- The tick was abandoned and waits for the boundary at which a Dusk stops the job (Table 1.9). -/
  abandoned : Bool := false
deriving DecidableEq, Repr

/-- The memories of the module and the host memory that it writes. -/
structure Mems where
  hbm     : Memory := .empty
  /-- Cluster caches: cluster × 2^29 + offset (Table 2.9). -/
  cache   : Memory := .empty
  /-- Scratchpads: core × 2^22 + offset. -/
  scratch : Memory := .empty
  /-- Accumulator memories: core × 2^20 + offset. -/
  acc     : Memory := .empty
  /-- Halo buffers: core × 2^19 + offset. -/
  halo    : Memory := .empty
  store   : Memory := .empty
  host    : Memory := .empty
deriving DecidableEq, Repr

/-! ### Memory tiers (R257 to R288) -/

/-- Residency states of a directory entry (Table 10.7). -/
inductive Residency where
  | absent | filling | resident | failed
deriving DecidableEq, Repr

/-- A request for directory entries that is pending (R279, R280). -/
structure TierRequest where
  entries  : List Nat
  cmdIndex : Nat
  /-- Due at T(due). -/
  due      : Nat
  alt      : Nat
  hold     : Nat
  /-- The tick that committed it; none for one that admission enqueued (R280). -/
  made     : Option Nat
  /-- An indirect range that left the directory range (0x290A): counts as missed. -/
  missed   : Bool
deriving DecidableEq, Repr

/-- An entry enqueued for filling: earliest deadline, then command, then entry (R281). -/
structure FillItem where
  deadline : Nat
  cmdIndex : Nat
  entry    : Nat
deriving DecidableEq, Repr

/-- One directory entry (Table 10.7). -/
structure DirEntry where
  fromWindow : Bool
  pinned     : Bool
  segLen     : Nat
  src        : Nat
  status     : Residency
  frame      : Nat
  lastUse    : Nat
  /-- The instant at which it became resident (R284). -/
  since      : Time := 0
deriving DecidableEq, Repr

/-- A fill in progress (R281). -/
structure Fill where
  entry : Nat
  frame : Nat
  tries : Nat
  start : Time
deriving DecidableEq, Repr

/-- A token bucket of the regulators (R260). -/
structure Bucket where
  tokens : Nat
  stamp  : Time
  /-- Bytes of requests that wait for tokens. -/
  owed   : Nat := 0
deriving DecidableEq, Repr

/-- The Tier partition. -/
structure TierState where
  /-- The directory: entries whose index a plan of the image declares; every other entry is absent. -/
  entries    : List (Nat × DirEntry) := []
  queue      : List FillItem := []
  fill       : Option Fill := none
  requests   : List TierRequest := []
  /-- The requests that the newest two path decisions judged; they fall due again if their tick is abandoned (R287). -/
  judged     : List TierRequest := []
  /-- Entries held, each with the last tick of its hold (R274). -/
  holds      : List (Nat × Nat) := []
  /-- Pinned entries over all admissible plans. -/
  pinned     : Nat := 0
  /-- Valid pages of the window table read at admission: page and host address (R265). -/
  window     : List (Nat × Nat) := []
  inReset    : Bool := false
  missed     : Nat := 0
  path       : Nat := 0
  cheapTicks : Nat := 0
  filled     : Nat := 0
  /-- TIR_RATE: BURST in KiB, EXCESS, RATE by 2 × partition + die (Table 10.22). -/
  rates      : List (Nat × Nat × Nat) := List.replicate 10 (0, 0, 0)
  /-- Token buckets: 16 of Compute by die and cluster, then die 0 and 1 of the other partitions (R260). -/
  buckets    : List Bucket := []
  /-- The latest 1,024 fill times of each source (R283). -/
  storeTimes : List Nat := []
  windowTimes : List Nat := []
  /-- The tick for which 0x2906 has been reported (R274). -/
  starved    : Option Nat := none
  /-- Pool frames F; 0 before Dawn completes. -/
  frames     : Nat := 0
deriving DecidableEq, Repr

/-! ### Media (R292 to R310) -/

/-- A frame buffer of the media region with its marks (R305): FREE is none of them. -/
structure FrameBuffer where
  current : Bool := false
  ref     : Bool := false
  held    : Bool := false
  damaged : Bool := false
  stream  : Nat := 0
  /-- The tick in which its frame was written. -/
  age     : Nat := 0
deriving DecidableEq, Repr

/-- What encoding one frame gives: its access unit, whether it was capped, the QP of its newest row, the samples of the
three planes as the next frames refer to them, and the motion field (R293, R299, R304). -/
structure Encoded where
  unit    : Bytes
  capped  : Bool
  rowQp   : Nat
  samples : Bytes
  motion  : Bytes
deriving DecidableEq, Repr

/-- Per-stream state of an encoder or decoder. -/
structure Stream where
  fullness  : Int := 0
  lastQp    : Nat := 0
  lastBits  : Nat := 0
  prevKey   : Bool := false
  sinceKey  : Option Nat := none
  keyWanted : Bool := false
  /-- Decode: pictures are concealed and DAMAGED until a key frame or IDR (R309). -/
  resync    : Bool := false
  capped    : Bool := false
  /-- Frames whose encode begins once the one in progress is staged: number and tick (R297). -/
  queue     : List (Nat × Nat) := []
  /-- What the encode in progress gives when it is staged. -/
  out       : Option Encoded := none
  /-- A frame is being encoded or decoded: its number and its tick. -/
  busy      : Option (Nat × Nat) := none
  /-- What frame_plan gave for the frame in progress: key, t, cap, q0 (R298). -/
  key       : Bool := false
  target    : Nat := 0
  cap       : Nat := 0
  q0        : Nat := 0
  /-- QP of the newest superblock row. -/
  rowQp     : Nat := 0
  /-- A decoded picture is staged and awaits its tick's commit; whether it is DAMAGED. -/
  staged    : Bool := false
  stagedDamaged : Bool := false
  /-- The newest committed picture is DAMAGED. -/
  damaged   : Bool := false
deriving DecidableEq, Repr

/-- The Media partition. -/
structure MediaState where
  streams   : List Stream := List.replicate 6 {}
  buffers   : List FrameBuffer := List.replicate 32 {}
  inReset   : Bool := false
  keyframes : Nat := 0
  damaged   : Nat := 0
  capped    : Nat := 0
deriving DecidableEq, Repr

/-! ### Links (R313 to R340) -/

/-- Port states (Table 12.13). -/
inductive PortPhase where
  | down | training | up | disabled
deriving DecidableEq, Repr

/-- A transaction flit without link header that waits for a credit or for room in the replay buffer. -/
structure Waiting where
  control : Bool
  body    : Bytes
  /-- The port whose receive buffer holds it, for a flit that only passes through (R319). -/
  origin  : Option Nat
deriving DecidableEq, Repr

/-- A Kenum port. -/
structure Port where
  phase     : PortPhase := .down
  lanes     : Nat := 0
  peerGa    : Nat := 0
  peerPort  : Nat := 0
  lastCode  : Nat := 0
  delayNs   : Nat := 0
  corrected : Nat := 0
  retried   : Nat := 0
  nextSeq   : Nat := 0
  /-- SEQ of the newest flit accepted in order. -/
  lastSeq   : Nat := 4095
  /-- Flits sent and not acknowledged, oldest first (R318). -/
  replay    : List Bytes := []
  /-- How often in a row each flit of the replay buffer has been retransmitted (R318). -/
  retrans   : List Nat := []
  waiting   : List Waiting := []
  /-- When ACK last advanced. -/
  ackAt     : Option Time := none
  /-- The newest 512 flits that the port has sent, of any kind, oldest first. -/
  out       : List Bytes := []
  /-- Place of the next received flit among the five that two codewords carry, whether the codeword in progress could not
  be corrected, and the 16-bit codeword count of the header (R316). -/
  beat      : Nat := 0
  bad       : Bool := false
  codewords : Nat := 0
  dataCredits : Nat := 0
  ctrlCredits : Nat := 0
  identified : Bool := false
  /-- The peer's firmware measurement and plan image digest are this member's (R322). -/
  sameImages : Bool := false
deriving DecidableEq, Repr

/-- What a member of a ring has reported. -/
structure MemberReport where
  position : Nat
  tick     : Nat
  restored : Bool
deriving DecidableEq, Repr

/-- What passes between this member and another for one collective of the tick (R326, R330). -/
structure Transfer where
  /-- Ring position of the other member; this member's own for the local work. -/
  source   : Nat
  index    : Nat
  /-- Low 16 bits of the tick index. -/
  tick     : Nat
  /-- Its CLEAR is held. -/
  cleared  : Bool := false
  /-- Payloads received in PART and in DATA flits, by OFFSET. -/
  part     : List (Nat × Bytes) := []
  data     : List (Nat × Bytes) := []
  /-- This member has sent its PART flits (for the local work: it is complete), its DATA flits, and DONE. -/
  sentPart : Bool := false
  sentData : Bool := false
  sentDone : Bool := false
  /-- Its DONE is held. -/
  done     : Bool := false
deriving DecidableEq, Repr

/-- The Link partition. -/
structure LinkState where
  ports     : List Port := List.replicate 4 {}
  ringSize  : Nat := 0
  position  : Nat := 0
  formed    : Bool := false
  /-- GA values in ring order, from position 0 (R322). -/
  members   : List Nat := []
  /-- The lists of the other members' PROBE flits received since formation began (R322). -/
  probes    : List (List Nat) := []
  aborts    : Nat := 0
  /-- READY held, by position and tick (R332). -/
  ready     : List (Nat × Nat) := []
  transfers : List Transfer := []
  reports   : List MemberReport := []
  /-- A Dusk cause that a member reported: its code, from when position 0 applies it, and the tick in which it came (R333). -/
  memberDusk : Option (Nat × Time × Nat) := none
  abortTick : Option Nat := none
  /-- Transfers (SRC, DST, CMD_INDEX) whose next data flit takes the second port of its hop (R320). -/
  turns     : List (Nat × Nat × Nat) := []
  /-- Until when the ring must have formed since its newest port came up (R322). -/
  formBy    : Option Time := none
  /-- c and r that RESUME carries (R335). -/
  resumeAt  : Option (Nat × Nat) := none
  readySent : Option Nat := none
deriving DecidableEq, Repr

/-! ### Host interface (R343 to R368) -/

/-- One ring (Tables 13.6 to 13.10). -/
structure Ring where
  base   : Nat := 0
  size   : Nat := 0
  enable : Bool := false
  error  : Bool := false
  /-- The host's pointer. -/
  host   : Nat := 0
  /-- The module's pointer. -/
  mine   : Nat := 0
deriving DecidableEq, Repr

/-- An output record (Table 13.12) before it is written. -/
structure OutRecord where
  gap      : Option GapReason
  flags    : FrameFlags
  cheaper  : Bool
  frame    : Nat
  tick     : Nat
  accepted : Nat
  paths    : List Nat
  units    : List AccessUnit
  /-- It could not be written at its slot. -/
  late     : Bool
  /-- The cause of the lateness is the host's (R32); false for a reset of the Host partition (R397). -/
  hostLate : Bool
deriving DecidableEq, Repr

/-- An event record (Table 13.13). -/
structure EventRec where
  code     : Nat
  severity : Nat
  source   : Nat
  oob      : Bool
  seq      : Nat
  time     : Nat
  tick     : Nat
  arg      : Nat
deriving DecidableEq, Repr

/-- How a PCI Express request completes (R345, R346). -/
inductive Completion where
  /-- No completion: the endpoint is in reset or its link is down. -/
  | none
  | success
  /-- Configuration Request Retry Status. -/
  | retry
  /-- Unsupported Request. -/
  | unsupported
deriving DecidableEq, Repr

/-- The Host partition. -/
structure HostState where
  rings      : List Ring := List.replicate 6 {}
  statusBase : Nat := 0
  /-- Arrival times of the records published and not yet picked up, oldest first. -/
  arrivals   : List Time := []
  /-- FRAME of a record at the head of ring 0 that waits to come within range (R358). -/
  heldFrame  : Option Nat := none
  /-- Conditioning picked up for frames not yet accepted. -/
  conds      : List Conditioning := []
  waiting    : List OutRecord := []
  /-- Responses that wait for room in ring 5. -/
  responses  : List Bytes := []
  /-- Writes through BAR2 while requests wait in ring 4: offset, bytes, and the tail of ring 4 then (R350). -/
  windowWrites : List (Nat × Nat × Nat) := []
  nextSeq    : Nat := 0
  evQueue    : List EventRec := []
  dropped    : Nat := 0
  log        : List EventRec := []
  logCount   : Nat := 0
  /-- MSI-X: an advance not yet signalled, and the newest message, per vector 0 to 3. -/
  msixDue    : List Bool := List.replicate 4 false
  msixLast   : List (Option Time) := List.replicate 4 none
  linkUp     : Bool := false
  mbps       : Nat := 0
  perstN     : Bool := false
  flr        : Bool := false
  /-- A job was stopped by the reset in progress (severity of 0x6401). -/
  flrStopped : Bool := false
  enumOpen   : Bool := false
  retryFrom  : Option Time := none
  /-- High words latched by reads of low words, by the offset of the high word (R44). -/
  latch      : List (Nat × Nat) := []
  /-- Entries latched by reads of their first words, by n (R422). -/
  errLatch   : List (Nat × Bytes) := []
  /-- The SAF_ registers as the newest watchdog service left them (R444). -/
  saf        : List Nat := List.replicate 9 0
  /-- Advanced Error Reporting has recorded a DMA access that completed with an error (R355). -/
  aer        : Bool := false
  /-- The MSI-X table, by double word; held for the host, as the PCI Express Base Specification defines it (log 31). -/
  msixTable  : List Nat := List.replicate 256 0
  /-- What the newest register or sideband read returned. -/
  readData   : Bytes := []
  /-- How the newest PCI Express read or configuration request completed. -/
  completion : Completion := .none
  /-- CNT_RECORDS_0 to CNT_RECORDS_3. -/
  records    : List Nat := [0, 0, 0, 0]
  inReset    : Bool := false
deriving DecidableEq, Repr

/-! ### Dawn and trust (R370 to R392) -/

/-- Where the module stands between power and service. -/
inductive DawnPhase where
  | unpowered | cold | warm | passed | recoveryBoot | eclipse
deriving DecidableEq, Repr

/-- The configuration flash (Table 14.4). -/
structure Flash where
  boot0  : Bytes := []
  boot1  : Bytes := []
  helper : Bytes := []
  cert   : Bytes := []
  fwA    : Bytes := []
  fwB    : Bytes := []
  planA  : Bytes := []
  planB  : Bytes := []
  safety : Bytes := []
  /-- Fault-history pages programmed, by page number; every other byte reads 0xFF. -/
  pages  : List (Nat × Bytes) := []
  fwSvn  : Nat := 0
  planSvn : Nat := 0
  rootFloor : Nat := 0
  /-- Counter 3, reserved and never incremented (R388). -/
  counter3  : Nat := 0
  /-- The root key under which the flash device authenticates counter commands (R386, R388). -/
  counterKey : Bytes := []
deriving DecidableEq, Repr

/-- Bring-up, images and identity. -/
structure DawnState where
  phase      : DawnPhase := .unpowered
  code       : Nat := 0
  ga         : BitVec 4 := 0
  overruns   : Nat := 0
  /-- A Dawn has been called for and waits for COLD_DAWN or WARM_DAWN. -/
  due        : Bool := false
  /-- The running firmware image, empty in recovery boot. -/
  firmware   : Bytes := []
  fwSlot     : Nat := 0
  planSlot   : Nat := 0
  planImage  : Bytes := []
  fwMeasure  : Bytes := []
  planMeasure : Bytes := []
  safetyMeasure : Bytes := []
  regionDigest : Bytes := []
  secret     : Bytes := []
  certOk     : Bool := false
  warmSince  : Bool := false
  plans      : List PlanEntry := []
  layout     : Layout := ⟨0, 0, 0, 0, 0, 0, 0, 0, 0⟩
  cirrusKey  : BitVec 64 := 0
deriving DecidableEq, Repr

/-! ### Integrity (R395 to R422) -/

/-- An entry of the fault history (Table 15.12). -/
structure HistEntry where
  unit       : BitVec 32
  site       : BitVec 32
  code       : Nat
  millihours : Nat
  seq        : Nat
deriving DecidableEq, Repr

/-- The fault history in management-processor memory, and the integrity registers. -/
structure IntegrityState where
  entries    : List HistEntry := []
  total      : Nat := 0
  permanent  : Bool := false
  permUnit   : BitVec 32 := 0xFFFFFFFF
  rule       : Nat := 0
  pageSeq    : Nat := 0
  /-- The page written last; none for a blank history. -/
  lastPage   : Option Nat := none
  /-- Operation at the newest Dawn, and the instant from which it accrues. -/
  baseHours  : Nat := 0
  since      : Option Time := none
  pageDue    : Option Time := none
  lastWrite  : Time := 0
  watch      : Bool := false
  watchEnds  : Bool := false
  lastCode   : Nat := 0
  lastUnit   : BitVec 32 := 0xFFFFFFFF
  recoveryUs : Nat := 0
  counts     : List Nat := List.replicate 12 0
  level      : Nat := 0
  cirrusMax  : Nat := 0
  cirrusShift : Nat := 0
  /-- HBM words poisoned, by their 32-byte aligned address (R258). -/
  poisoned   : List Nat := []
  /-- Partitions in reset (1 Media, 3 Tier, 4 Host) and when their fault was detected (R397). -/
  resets     : List (Nat × Time) := []
deriving DecidableEq, Repr

/-! ### Power, cooling and safety (R424 to R444) -/

/-- Sensor readings of Table 16.5 before any sample. -/
def noReadings : Readings :=
  { junction0 := (0, 0), junction1 := (0, 0), inlet := (0, 0), outlet := (0, 0), connector := (0, 0),
    valve := (0, 0), current := (0, 0), voltage := (0, 0), bus := (0, 0), flow := 0, loadW := 0,
    leak := (false, false), rise := 0 }

/-- Nimbus. -/
structure NimbusState where
  readings  : Readings := noReadings
  target    : Nat := 0
  inputW    : Nat := 0
  /-- Input power that the first stage is set to draw, in W (R425, R426). -/
  draw      : Nat := 0
  /-- Store level E in mJ. -/
  store     : Int := 0
  ballast   : Nat := 0
  /-- Input energy since Dawn, in µJ. -/
  energyUj  : Nat := 0
  /-- R_d per die in 0.001 K/W. -/
  r0        : Nat := 40
  r1        : Nat := 40
  /-- Filtered P_d in mW. -/
  pd        : Nat := 0
  modelNew  : Bool := true
  /-- Job operation since the cold Dawn (R432). -/
  jobTime   : Time := 0
  command   : Nat := 0
  supply    : Nat := 0
  predictOutlet : Int := 0
  predictJunction : Int := 0
  /-- For each condition 0x5901 to 0x5909 that holds: its code and since when (Table 16.3). -/
  holding   : List (Nat × Time) := []
  /-- Conditions in force, already reported. -/
  inForce   : List Nat := []
  duskCode  : Nat := 0
  valveLatch : Bool := false
  plausLatch : Bool := false
  sampled   : Option Time := none
deriving DecidableEq, Repr

/-- States of Stratus (Table 17.6). -/
inductive StratusPhase where
  | standby | on | safe
deriving DecidableEq, Repr

/-- An entry of the trip memory (Table 17.7). -/
structure TripEntry where
  code      : Nat
  moment    : Time
  readings  : Readings
  /-- The valve command at the trip, from which the severe valve reading is told. -/
  command   : Nat
  reported  : Bool
deriving DecidableEq, Repr

/-- Stratus, the safety controller. -/
structure StratusState where
  supply     : Bool := true
  phase      : StratusPhase := .standby
  trips      : List TripEntry := []
  tripAt     : Option Time := none
  pwrEn      : Bool := false
  /-- The input voltage was in its operating range when PWR_EN was last evaluated for a change of its own (R370). -/
  vinOk      : Bool := true
  /-- PWR_EN has been low since. -/
  pwrLow     : Option Time := some 0
  /-- PWR_EN cycled (low for at least 1 s, then high) since the trip (R440). -/
  cycled     : Bool := false
  senseClosed : Option Time := some 0
  stage      : Bool := false
  switch     : Bool := false
  driveCutUntil : Option Time := none
  /-- Valve drive cut until a warm Dawn completes or PWR_EN is cycled. -/
  driveCut   : Bool := false
  pathsOk    : Bool := false
  healthy    : Bool := true
  wdogSeq    : Option Nat := none
  wdogAt     : Option Time := none
  wdogMisses : Nat := 0
  /-- The management processor's own enable of the power stage (R439). -/
  mpEnable   : Bool := true
  holdCode   : Nat := 0
deriving DecidableEq, Repr

/-! ### Sideband and pins (R450 to R456) -/

/-- The I3C targets and the pins. -/
structure SidebandState where
  dynManagement : Option (BitVec 7) := none
  dynStratus    : Option (BitVec 7) := none
  queue         : List EventRec := []
  maxRead       : Nat := 0
  /-- The newest in-band interrupt that the controller refused. -/
  refusedAt     : Option Time := none
  faultN        : Bool := false
  ready         : Bool := false
deriving DecidableEq, Repr

/-! ### The machine -/

/-- The module and the commands that wait for it. -/
structure State where
  pending   : List Instr
  now       : Time
  freeCtr   : Nat
  tick      : TickState
  job       : JobState
  compute   : ComputeState
  mem       : Mems
  tier      : TierState
  media     : MediaState
  link      : LinkState
  host      : HostState
  flash     : Flash
  dawn      : DawnState
  integrity : IntegrityState
  nimbus    : NimbusState
  stratus   : StratusState
  sideband  : SidebandState
deriving DecidableEq, Repr

/-- The configuration flash as a module is shipped (Tables 14.4 and 17.11; log 9). -/
def shippedFlash : Flash :=
  { fwA := Config.shippedFirmware, fwB := Config.shippedFirmware, safety := Config.shippedSafetyBlock,
    helper := Config.pufCheck, cert := Config.shippedCertificate }

/-- The module right after power is applied at standby: input at 30 V or more, PWR_EN deasserted, SENSE_N closed,
no Dawn run (log 2). Every register has the reset value of its table. -/
def State.reset : State :=
  { pending := [], now := 0, freeCtr := 0, tick := {}, job := {}, compute := {}, mem := {}, tier := {},
    media := {}, link := {}, host := {}, flash := shippedFlash, dawn := {}, integrity := {}, nimbus := {},
    stratus := {}, sideband := {} }

end Sys2Proof.Machine
end

