-- ==== Sys2Proof/Machine/Flags.lean ====
section
/-! DEFINITION. Event codes: the severity and the source of every code (R461, R462 and the code tables of the
chapters), and the record that an event takes (Table 13.13). -/

namespace Sys2Proof.Machine

/-- Severities of Table 13.14. -/
inductive Severity where
  | info | notice | recovered | stopped | refused | outOfService
deriving DecidableEq, Repr

/-- The value of a severity (Table 13.14). -/
def Severity.code : Severity → Nat
  | .info => 0 | .notice => 1 | .recovered => 2 | .stopped => 3 | .refused => 4 | .outOfService => 5

/-- Whether a code is one of plan load: plan-load codes lie in 0x1001 to 0x100F, in the engine chapters' range
0x1100 to 0x17FF apart from its run-time codes, in the first 256 codes above 0x2100, 0x3100, 0x4100, 0x5100,
0x6100 and 0x7100, and at 0x8205 and 0x8206. -/
def isPlanLoad (code : Nat) : Bool :=
  (0x1001 ≤ code && code ≤ 0x100F)
  || (0x1100 ≤ code && code ≤ 0x17FF && !([0x1188, 0x1189, 0x1207, 0x1208, 0x1302, 0x1702, 0x1707].contains code))
  || [0x21, 0x31, 0x41, 0x51, 0x61, 0x71].contains (code / 256)
  || code == 0x8205 || code == 0x8206

/-- Codes of severity NOTICE. -/
def noticeCodes : List Nat :=
  [0x1188, 0x1901, 0x1903, 0x2901, 0x2904, 0x2905, 0x2907, 0x290A, 0x3201, 0x3202, 0x3203, 0x3204, 0x3205,
   0x4209, 0x420C, 0x4401, 0x6901, 0x6902, 0x6903, 0x6906, 0x7901, 0x7902, 0x7903, 0x7904,
   0x8101, 0x8102, 0x8201, 0x8202, 0x8203, 0x8204, 0x8303, 0x8404]

/-- Codes of severity RECOVERED. -/
def recoveredCodes : List Nat :=
  [0x1189, 0x1207, 0x1208, 0x1702, 0x1707, 0x1905, 0x1906, 0x2903, 0x2909, 0x3A01, 0x3A02, 0x3A03, 0x3A04,
   0x3A07, 0x3A09, 0x4201, 0x4203, 0x4205, 0x4206, 0x4207, 0x4208, 0x420A, 0x420B, 0x4301, 0x4303, 0x5C01,
   0x7905, 0x8406]

/-- Codes of severity STOPPED. -/
def stoppedCodes : List Nat :=
  [0x1904, 0x1907, 0x1908, 0x1909, 0x190A, 0x3A06, 0x3A08, 0x4304, 0x4305, 0x5C02, 0x5D01, 0x6908]

/-- Codes of severity OUT_OF_SERVICE. -/
def outOfServiceCodes : List Nat :=
  [0x4C01, 0x4C02, 0x8103, 0x8301, 0x8302, 0x8401, 0x8402, 0x8403, 0x8405]

/-- The severity of a code. `alt` picks the second of two severities where the manual gives two: 0x1803 in ARMED,
0x2908 of a fill, 0x590n outside a job, 0x6401 with no job stopped (R461, Tables 13.23, 13.24, 16.21). -/
def severityOf (code : Nat) (alt : Bool) : Severity :=
  if code == 0x1803 then (if alt then .stopped else .refused)
  else if code == 0x2908 then (if alt then .notice else .recovered)
  else if code == 0x6401 then (if alt then .info else .stopped)
  else if 0x5901 ≤ code && code ≤ 0x5909 then (if alt then .notice else .stopped)
  else if 0x5A01 ≤ code && code ≤ 0x5A0C then .stopped
  else if noticeCodes.contains code then .notice
  else if recoveredCodes.contains code then .recovered
  else if stoppedCodes.contains code then .stopped
  else if outOfServiceCodes.contains code then .outOfService
  else if [0x1902, 0x190B, 0x2902, 0x2906, 0x4202, 0x4204, 0x4302, 0x4402, 0x4403, 0x6303, 0x6904].contains code
    then .info
  else .refused

/-- The partitions and parties that raise events (Table 13.13, SOURCE). -/
inductive Source where
  | compute | media | link | tier | host | management | stratus | dawn
deriving DecidableEq, Repr

/-- The value of a source. -/
def Source.code : Source → Nat
  | .compute => 0 | .media => 1 | .link => 2 | .tier => 3 | .host => 4 | .management => 5 | .stratus => 6 | .dawn => 7

/-- The partition with a number (Table 10.4 numbers partitions as Table 13.13 does). -/
def Source.ofPartition : Nat → Source
  | 0 => .compute | 1 => .media | 2 => .link | 3 => .tier | _ => .host

/-- The source of a code (Table 13.25): `detectedIn` names the partition of a class 0x4 detection, `inDawn` says
that a Dawn raises it. -/
def sourceOf (code : Nat) (detectedIn : Source) (inDawn : Bool) : Source :=
  if isPlanLoad code then .dawn
  else match code / 4096 with
    | 1 => if code ≤ 0x17FF && code != 0x1302 then .compute else .management
    | 2 => if code == 0x290B then .management else .tier
    | 3 => if 0x3201 ≤ code && code ≤ 0x3205 then .dawn else if code == 0x3A05 then .management else .link
    | 4 =>
      if (0x4201 ≤ code && code ≤ 0x4209) || code == 0x420C then detectedIn
      else if code == 0x4402 || code == 0x4C02 then .dawn else .management
    | 5 => if (0x5A01 ≤ code && code ≤ 0x5A0C) || code == 0x5C01 || code == 0x5D01 then .stratus else .management
    | 6 => .host
    | 7 => .media
    | _ => if inDawn then .dawn else .management

/-- The codes whose ARG the manual gives: the plan index, a command's CMD_INDEX and core, an entry index, a dropped count,
a frame number (Table 13.13), or what the code's own table or rule names. The ARG of every other code is free (log 17). -/
def argGiven (code : Nat) : Bool :=
  isPlanLoad code
  || [0x1188, 0x1189, 0x1207, 0x1208, 0x1702, 0x1707, 0x2902, 0x2903, 0x2907, 0x2909, 0x290A, 0x4201,
      0x4206, 0x4207, 0x4208, 0x4301].contains code
  || [0x2901, 0x2904, 0x2905, 0x2906, 0x2908].contains code
  || [0x1901, 0x6901, 0x6902, 0x6903, 0x6904, 0x7901, 0x7902, 0x7903, 0x7904].contains code
  || [0x190B, 0x4302, 0x4303, 0x4C01, 0x8101, 0x8201, 0x8402, 0x8406].contains code

/-- An event record as bytes (Table 13.13). -/
def EventRec.bytes (e : EventRec) : Bytes :=
  toLe 2 e.code ++ toLe 1 (e.severity % 16 + 16 * e.source) ++ toLe 1 (bitOf e.oob) ++ toLe 4 e.seq
    ++ toLe 8 e.time ++ toLe 8 e.tick ++ toLe 8 e.arg

/-- FLAGS of a frame record without LATE and CHEAPER (Table 13.12). -/
def FrameFlags.code (f : FrameFlags) : Nat :=
  bitOf f.held + 2 * bitOf f.default + 4 * bitOf f.flywheel + 8 * bitOf f.resumed + 16 * bitOf f.damaged
    + 32 * bitOf f.capped

/-- FLAGS of an output record (Table 13.12). -/
def OutRecord.flagsCode (r : OutRecord) : Nat := r.flags.code + 64 * bitOf r.cheaper + 128 * bitOf r.late

end Sys2Proof.Machine
end

