-- ==== Sys2Proof/Machine/Flits.lean ====
section
/-! DEFINITION. Flits of the Kenum link: their layout, sending under credits and the replay buffer, and routes round
the ring (R317 to R320). -/

namespace Sys2Proof.Machine

/-! ### Layout (Tables 12.2, 12.3) -/

/-- SEQ of a flit. -/
def flitSeq (f : Bytes) : Nat := bits (le f 0 8) 0 12
/-- ACK of a flit. -/
def flitAck (f : Bytes) : Nat := bits (le f 0 8) 12 12
/-- NAK. -/
def flitNak (f : Bytes) : Bool := bitAt (le f 0 8) 24
/-- VC: control. -/
def flitControl (f : Bytes) : Bool := bitAt (le f 0 8) 25
/-- KIND: 0 idle, 1 transaction, 2 link control. -/
def flitKind (f : Bytes) : Nat := bits (le f 0 8) 26 2
/-- CRED_D. -/
def flitCredD (f : Bytes) : Nat := bits (le f 0 8) 32 8
/-- CRED_C. -/
def flitCredC (f : Bytes) : Nat := bits (le f 0 8) 40 8
/-- OP. -/
def flitOp (f : Bytes) : Nat := byteAt f 8
/-- GROUP. -/
def flitGroup (f : Bytes) : Nat := byteAt f 9
/-- SRC. -/
def flitSrc (f : Bytes) : Nat := byteAt f 10 % 16
/-- DST. -/
def flitDst (f : Bytes) : Nat := byteAt f 11
/-- CMD_INDEX. -/
def flitIndex (f : Bytes) : Nat := le f 12 4
/-- OFFSET in bytes. -/
def flitOffset (f : Bytes) : Nat := 32 * le f 16 4
/-- LEN. -/
def flitLen (f : Bytes) : Nat := le f 20 2
/-- TICK, low 16 bits of the tick index. -/
def flitTick (f : Bytes) : Nat := le f 22 2
/-- PAYLOAD. -/
def flitPayload (f : Bytes) : Bytes := (f.drop 24).take 224
/-- The CRC of a flit matches, and its codewords were decoded (R316, R317). -/
def flitGood (f : Bytes) (decoded : Bool) : Bool :=
  decoded && f.length == 256 && le f 248 4 == crc32c (f.take 248)

/-- Bytes 8 to 247 of a flit. -/
def flitBody (op group src dst index offset len tick : Nat) (payload : Bytes) : Bytes :=
  toLe 1 op ++ toLe 1 group ++ toLe 1 src ++ toLe 1 dst ++ toLe 4 index ++ toLe 4 (offset / 32) ++ toLe 2 len
    ++ toLe 2 tick ++ slice payload 0 224

/-- A whole flit from its link header and bytes 8 to 247. -/
def flitOf (kind seq ack : Nat) (control nak : Bool) (credD credC : Nat) (body : Bytes) : Bytes :=
  let hdr := seq % 4096 + 2 ^ 12 * (ack % 4096) + 2 ^ 24 * bitOf nak + 2 ^ 25 * bitOf control + 2 ^ 26 * kind
    + 2 ^ 32 * credD + 2 ^ 40 * credC
  let b := toLe 8 hdr ++ slice body 0 240
  b ++ toLe 4 (crc32c b) ++ zeros 4

/-! ### Codewords (R316) -/

/-- The lane that carries symbol i of a codeword. -/
def symbolLane (i : Nat) : Nat := i % 4

/-- Symbols of a codeword, those of data, and the most errors that it corrects (RS(544,514), Table 12.1). -/
def codewordSymbols : Nat × Nat × Nat := (544, 514, 15)

/-- Whether a codeword begins in the flit at a place among the five that two codewords carry: 5,120 bits of flit stream
are two flits and a half, so the third flit lies in both. -/
def beginsCodeword (beat : Nat) : Bool := beat == 0 || beat == 2

/-- One received flit passes the decoder: whether every codeword that it touches was corrected, and the port after it. The
errors are those of the codeword that begins in the flit, if one does. -/
def Port.decode (p : Port) (errors : Nat) : Bool × Port :=
  let fails := codewordSymbols.2.2 < errors
  let good := if p.beat == 0 then !fails else if p.beat == 2 then !p.bad && !fails else !p.bad
  let q := { p with beat := (p.beat + 1) % 5 }
  (good, if beginsCodeword p.beat then
    { q with bad := fails, codewords := (p.codewords + 1) % 65536,
             corrected := if fails then p.corrected else p.corrected + errors } else q)

/-! ### Ports -/

/-- Port n. -/
def State.port (s : State) (n : Nat) : Port := s.link.ports.getD n {}

/-- The state with port n replaced. -/
def State.setPort (s : State) (n : Nat) (p : Port) : State :=
  { s with link := { s.link with ports := s.link.ports.set n p } }

/-- Flits leave a port. -/
def Port.emit (p : Port) (fs : List Bytes) : Port := { p with out := (p.out ++ fs).drop ((p.out ++ fs).length - 512) }

/-- Waiting flits are sent while a credit of their channel and room in the replay buffer are there; control flits
never wait for data credits (R319). Those that have left are the second result. -/
def pumpPort : Nat → Port → List Waiting → Port × List Waiting
  | 0, p, left => (p, left)
  | fuel + 1, p, left =>
    if p.phase != .up || 512 ≤ p.replay.length then (p, left)
    else
      let ready := fun (w : Waiting) => if w.control then 0 < p.ctrlCredits else 0 < p.dataCredits
      match p.waiting.find? ready with
      | none => (p, left)
      | some w =>
        let f := flitOf 1 p.nextSeq p.lastSeq w.control false 0 0 w.body
        pumpPort fuel ({ p with
          waiting := p.waiting.erase w, replay := p.replay ++ [f], retrans := p.retrans ++ [0],
          nextSeq := (p.nextSeq + 1) % 4096,
          ctrlCredits := if w.control then p.ctrlCredits - 1 else p.ctrlCredits,
          dataCredits := if w.control then p.dataCredits else p.dataCredits - 1 }.emit [f]) (left ++ [w])

/-- A flit that is not a transaction (idle or link control) is sent at once; it takes no SEQ. -/
def sendPlain (port kind : Nat) (nak : Bool) (credD credC : Nat) (body : Bytes) (s : State) : State :=
  let p := s.port port
  s.setPort port (p.emit [flitOf kind 0 p.lastSeq true nak credD credC body])

/-- A credit of a channel goes back to the sender of a port (R319). -/
def returnCredit (port : Nat) (control : Bool) (s : State) : State :=
  sendPlain port 0 false (bitOf (!control)) (bitOf control) [] s

/-- What waits at a port is sent as far as its credits allow; the buffers of flits that passed through are free again. -/
def pump (port : Nat) (s : State) : State :=
  let r := pumpPort 600 (s.port port) []
  r.2.foldl (fun s w => match w.origin with | some n => returnCredit n w.control s | none => s) (s.setPort port r.1)

/-- A transaction flit is given to a port. -/
def sendOn (port : Nat) (w : Waiting) (s : State) : State :=
  let p := s.port port
  pump port (s.setPort port { p with waiting := p.waiting ++ [w] })

/-- The port that takes a control flit of a hop: the lower one whose ACK advanced within 2 µs, else port 0 or 2
(R320). -/
def controlPort (s : State) (forward : Bool) : Nat :=
  let a := if forward then 0 else 2
  let recent := fun n => match (s.port n).ackAt with | some t => decide (s.now ≤ t + us 2) | none => false
  if recent a then a else if recent (a + 1) then a + 1 else a

/-- A control flit on one hop. -/
def sendControl (forward : Bool) (origin : Option Nat) (body : Bytes) (s : State) : State :=
  sendOn (controlPort s forward) ⟨true, body, origin⟩ s

/-- The transfer that a data flit belongs to: SRC, DST and CMD_INDEX, from bytes 8 to 247 of the flit. -/
def transferKey (body : Bytes) : Nat × Nat × Nat := (byteAt body 2 % 16, byteAt body 3, le body 4 4)

/-- A data flit on one hop: those of one transfer take its two ports in turn (R320). -/
def sendData (forward : Bool) (origin : Option Nat) (body : Bytes) (s : State) : State :=
  let k := transferKey body
  let second := s.link.turns.contains k
  let s := { s with link := { s.link with turns := if second then s.link.turns.erase k else k :: s.link.turns } }
  sendOn ((if forward then 0 else 2) + bitOf second) ⟨false, body, origin⟩ s

/-- Whether a flit to a position travels forward (R320). -/
def goesForward (s : State) (dst : Nat) : Bool :=
  let r := s.link.ringSize
  let fwd := (dst + r - s.link.position % max 1 r) % max 1 r
  2 * fwd ≤ r

/-- Bytes 8 to 247 of a control flit from this member. -/
def controlBody (s : State) (op dst : Nat) (payload : Bytes) : Bytes :=
  flitBody op 0 s.link.position dst 0 0 32 (s.tick.index % 65536) payload

/-- A control flit both ways round the ring. -/
def sendBothWays (op : Nat) (payload : Bytes) (s : State) : State :=
  let b := controlBody s op 0xFF payload
  sendControl false none b (sendControl true none b s)

/-- A control flit to one member. -/
def sendTo (op dst : Nat) (payload : Bytes) (s : State) : State :=
  sendControl (goesForward s dst) none (controlBody s op dst payload) s

/-- A report of this member to position 0 on the control channel: 0 a Dusk cause (R333), 1 the newest committed tick (R335),
2 the job digest (R181, R338). Table 12.4 gives these no OP: it is a constant of Config (log 41). -/
def reportToHead (kind : Nat) (payload : Bytes) (s : State) : State := sendTo (Config.reportOp kind) 0 payload s

/-- Whether every hop of the ring is up (R315). -/
def State.ringUp (s : State) : Bool := s.link.formed && (s.link.ports.all fun p => p.phase == .up)

end Sys2Proof.Machine
end

