-- ==== Sys2Proof/Machine/Ops.lean ====
section
/-! DEFINITION. The named operations over the state: memories, host rings, events, output records, mailbox responses
and the running plan. Every other file changes these parts of the state through them only. -/

namespace Sys2Proof.Machine

/-! ### Time and free values -/

/-- Module time moves on to the instant of a command (R47). -/
def State.arrive (s : State) (t : Time) : State := { s with now := max s.now t }

/-- A fresh free value. -/
def State.free (s : State) : BitVec 64 × State := (Config.freeValue s.freeCtr, { s with freeCtr := s.freeCtr + 1 })

/-- n free bytes. -/
def State.freeBytes (s : State) (n : Nat) : Bytes × State :=
  ((List.range n).map fun i => (Config.freeValue (s.freeCtr + i)).truncate 8, { s with freeCtr := s.freeCtr + n })

/-! ### Sorting -/

/-- An element put into a sorted list, after its equals. -/
def insertBy {α : Type} (le : α → α → Bool) (x : α) : List α → List α
  | [] => [x]
  | y :: ys => if le y x then y :: insertBy le x ys else x :: y :: ys

/-- A list sorted by insertion; equal elements keep their order. -/
def sortBy {α : Type} (le : α → α → Bool) (l : List α) : List α := l.foldl (fun acc x => insertBy le x acc) []

/-! ### Memories -/

/-- The memory of a space. -/
def Mems.get (m : Mems) : Space → Memory
  | .hbm => m.hbm | .cache => m.cache | .scratch => m.scratch | .acc => m.acc | .halo => m.halo
  | .store => m.store | .host => m.host

/-- The memories with the memory of one space replaced. -/
def Mems.put (m : Mems) (sp : Space) (v : Memory) : Mems := match sp with
  | .hbm => { m with hbm := v } | .cache => { m with cache := v } | .scratch => { m with scratch := v }
  | .acc => { m with acc := v } | .halo => { m with halo := v } | .store => { m with store := v }
  | .host => { m with host := v }

/-- The bytes from an address of a space on. -/
def State.readMem (s : State) (sp : Space) (addr n : Nat) : Bytes := (s.mem.get sp).readBytes addr n

/-- The state with bytes written from an address of a space on. -/
def State.writeMem (s : State) (sp : Space) (addr : Nat) (b : Bytes) : State :=
  { s with mem := s.mem.put sp ((s.mem.get sp).writeBytes addr b) }

/-- A list of writes, in order. -/
def State.writeMany (s : State) (ws : List (Space × Nat × Bytes)) : State :=
  ws.foldl (fun s w => s.writeMem w.1 w.2.1 w.2.2) s

/-- Base of the host-exchange region in HBM (R344). -/
def exchangeBase : Nat := 0x2F00000000
/-- Size of the host-exchange region (R344). -/
def exchangeSize : Nat := 0x100000000

/-- Whether an area of the host-exchange region lies inside it and is 4 KiB aligned (R366). -/
def exchangeOk (off len : Nat) : Bool := off % 4096 == 0 && off + len ≤ exchangeSize

/-- Bytes of the host-exchange region. -/
def State.readExchange (s : State) (off n : Nat) : Bytes := s.readMem .hbm (exchangeBase + off) n

/-- Bytes written to the host-exchange region. -/
def State.writeExchange (s : State) (off : Nat) (b : Bytes) : State := s.writeMem .hbm (exchangeBase + off) b

/-! ### The running plan -/

/-- An empty plan. -/
def noPlan : Plan := ⟨zeros 128, []⟩

/-- A plan of the active plan set. -/
def State.planAt (s : State) (i : Nat) : Option PlanEntry := s.dawn.plans[i]?

/-- The plan of the current or most recent job. -/
def State.plan (s : State) : Plan := ((s.planAt s.job.planIndex).map (·.plan)).getD noPlan

/-- Latency L of the job's plan. -/
def State.latency (s : State) : Nat := planL s.plan

/-- Tensor-table entry i of the running variant. -/
def State.tensor (s : State) (i : Nat) : Tensor := tensorOf (tensorEntry s.plan s.job.variant i)

/-- Whether a job has placed boundaries and has not ended. -/
def State.inJob (s : State) : Bool := match s.job.phase with
  | .running => true | .draining => true | .squall => true | .stopping => true | _ => false

/-- Whether a tick of the job is under way. -/
def State.ticking (s : State) : Bool := s.job.phase == .running || s.job.phase == .draining

/-- Whether a job owns the module (ARMED to STOPPING). -/
def State.hasJob (s : State) : Bool := s.inJob || s.job.phase == .armed

/-- Whether the job runs on a ring of two or more members. -/
def State.inRing (s : State) : Bool := s.hasJob && 2 ≤ s.job.variant

/-- Whether a Dawn is in progress. -/
def State.inDawn (s : State) : Bool := s.dawn.phase == .cold

/-- Whether the module answers its interfaces: a Dawn has ended in service, recovery boot or Eclipse. -/
def State.inService (s : State) : Bool := match s.dawn.phase with
  | .passed => true | .recoveryBoot => true | .eclipse => true | _ => false

/-! ### Rings (R351 to R355) -/

/-- Ring n. -/
def State.ring (s : State) (n : Nat) : Ring := s.host.rings.getD n {}

/-- The state with ring n replaced. -/
def State.setRing (s : State) (n : Nat) (r : Ring) : State :=
  { s with host := { s.host with rings := s.host.rings.set n r } }

/-- Entry size of a ring; ring 2 is a byte ring (Table 13.3). -/
def entrySize : Nat → Nat
  | 0 => 64 | 1 => 128 | 2 => 1 | 3 => 32 | _ => 256

/-- Whether the host produces into a ring (Table 13.3). -/
def hostProduces (n : Nat) : Bool := n == 0 || n == 4

/-- (a - b) mod 2^32, the number of entries between two pointers (R352). -/
def ptrDiff (a b : Nat) : Nat := (a + 4294967296 - b % 4294967296) % 4294967296

/-- A pointer advanced by n (R352). -/
def ptrAdd (a n : Nat) : Nat := (a + n) % 4294967296

/-- Entries held in a ring (R352). -/
def Ring.count (r : Ring) (n : Nat) : Nat := if hostProduces n then ptrDiff r.host r.mine else ptrDiff r.mine r.host

/-- Whether the module can reach host memory. -/
def State.dmaUp (s : State) : Bool := s.host.linkUp && !s.host.flr && !s.host.inReset

/-- Whether a ring is in use and served. -/
def State.served (s : State) (n : Nat) : Bool := (s.ring n).enable && !(s.ring n).error && s.dmaUp

/-- Free entries (bytes for ring 2) of a ring that the module produces into. -/
def State.room (s : State) (n : Nat) : Nat := (s.ring n).size - (s.ring n).count n

/-- An entry of n bytes written at the module pointer of a ring, which advances by one (R352). -/
def State.produce (s : State) (n : Nat) (b : Bytes) : State :=
  let r := s.ring n
  (s.writeMem .host (r.base + r.mine % max 1 r.size * entrySize n) b).setRing n { r with mine := ptrAdd r.mine 1 }

/-- Bytes written into ring 2 from its tail on, wrapping at its size. -/
def State.produceData (s : State) (b : Bytes) : State :=
  let r := s.ring 2
  let at0 := r.mine % max 1 r.size
  let upto := max 1 r.size - at0
  let s := s.writeMem .host (r.base + at0) (b.take upto)
  let s := s.writeMem .host r.base (b.drop upto)
  s.setRing 2 { r with mine := ptrAdd r.mine b.length }

/-- The status page (Table 13.4). -/
def State.statusPage (s : State) : Bytes :=
  toLe 4 (s.ring 0).mine ++ toLe 4 (s.ring 1).mine ++ toLe 4 (s.ring 2).mine ++ toLe 4 (s.ring 3).mine
    ++ toLe 4 (s.ring 4).mine ++ toLe 4 (s.ring 5).mine ++ toLe 8 s.tick.index ++ toLe 8 (toNs s.now) ++ zeros 24

/-- While any ring is enabled, the status page is written after the entries that it covers (R354), and the MSI-X
vector of the ring whose module pointer advanced becomes due (R363). -/
def State.publish (s : State) (vector : Option Nat) : State :=
  if s.host.rings.any (·.enable) && s.dmaUp then
    let s := s.writeMem .host s.host.statusBase s.statusPage
    match vector with
    | none => s
    | some v => { s with host := { s.host with msixDue := s.host.msixDue.set v true } }
  else s

/-! ### Events (R361, R362) -/

/-- The tick index that an event carries: TCK_INDEX from admission until the job ends (Table 13.13). -/
def State.eventTick (s : State) : Nat := if s.hasJob then s.tick.index else 0xFFFFFFFFFFFFFFFF

/-- Events in SEQ order from the queue into the event ring while it has free entries (R362). -/
def drainEvents : Nat → State → State
  | 0, s => s
  | fuel + 1, s => match s.host.evQueue with
    | [] => s
    | e :: rest =>
      if s.served 3 && 0 < s.room 3 then
        let s := { s with host := { s.host with evQueue := rest } }
        drainEvents fuel ((s.produce 3 e.bytes).publish (some 0))
      else s

/-- One event takes the next SEQ, is entered in the log, and is written, queued or dropped (R362). -/
def emit (code severity source arg : Nat) (oob : Bool) (s : State) : State :=
  let e : EventRec := ⟨code, severity, source, oob, s.host.nextSeq, toNs s.now, s.eventTick, arg⟩
  let full := 1024 ≤ s.host.evQueue.length
  let s := { s with
    host := { s.host with
      nextSeq := ptrAdd s.host.nextSeq 1,
      log := (e :: s.host.log).take 256,
      logCount := ptrAdd s.host.logCount 1,
      evQueue := if full then s.host.evQueue else s.host.evQueue ++ [e],
      dropped := if full then s.host.dropped + 1 else s.host.dropped },
    sideband := if oob then { s.sideband with queue := (s.sideband.queue ++ [e]).drop (s.sideband.queue.length - 63) }
      else s.sideband }
  drainEvents 1025 s

/-- When the full queue next has room, one 0x6903 carries the count of dropped events (R362). -/
def reportDropped (s : State) : State :=
  if 0 < s.host.dropped && s.host.evQueue.length < 1024 then
    let n := s.host.dropped
    emit 0x6903 (severityOf 0x6903 false).code (sourceOf 0x6903 .host false).code n false
      { s with host := { s.host with dropped := 0 } }
  else s

/-- An event is raised (R362), by a code, with its severity and source (R461, R462). A class 0x4 code is also the
latest of INT_LAST, and a code of Table 1.6 the latest of JOB_STATE.LAST_CODE. An ARG that the manual does not give is a
free value. -/
def raiseAs (code : Nat) (alt : Bool) (detectedIn : Source) (oob : Bool) (arg : Nat) (s : State) : State :=
  let s := reportDropped s
  let (v, s) := s.free
  let arg := if argGiven code then arg else v.toNat
  let s := if code / 4096 == 4 then { s with integrity := { s.integrity with lastCode := code } } else s
  let s := if code / 256 == 0x19 || (code == 0x1803 && alt) then { s with job := { s.job with lastCode := code } } else s
  emit code (severityOf code alt).code (sourceOf code detectedIn s.inDawn).code arg oob s

/-- An event with one severity, not signalled out of band. -/
def raise (code arg : Nat) (s : State) : State := raiseAs code false .compute false arg s

/-- Events of several codes with one argument, in order. -/
def raiseAll (codes : List Nat) (arg : Nat) (s : State) : State := codes.foldl (fun s c => raise c arg s) s

/-! ### Output records (R359, R360) -/

/-- An access unit padded to a multiple of 64 bytes (R359). -/
def padUnit (b : Bytes) : Bytes := b ++ zeros ((64 - b.length % 64) % 64)

/-- Bytes that the access units of a record take in ring 2. -/
def OutRecord.dataBytes (r : OutRecord) : Nat := r.units.foldl (fun n u => n + (padUnit u.data).length) 0

/-- The output record of Table 13.12 as bytes, its access units starting at the given ring 2 indices. -/
def OutRecord.bytes (r : OutRecord) (time shift : Nat) (offsets : List Nat) : Bytes :=
  let slot := fun i => match r.units[i]? with
    | some u => toLe 1 u.stream ++ toLe 1 (bitOf u.key + 2 * bitOf u.capped) ++ zeros 2 ++ toLe 4 u.data.length
        ++ toLe 4 (offsets.getD i 0) ++ zeros 4
    | none => toLe 1 0xFF ++ zeros 15
  toLe 1 (if r.gap.isSome then 2 else 1) ++ toLe 1 ((r.gap.map GapReason.code).getD 0) ++ toLe 2 r.flagsCode
    ++ toLe 4 r.frame ++ toLe 8 r.tick ++ toLe 8 r.accepted ++ toLe 8 time ++ toLe 4 shift ++ zeros 4
    ++ ((List.range 9).flatMap fun i => toLe 2 (r.paths.getD i 0)) ++ zeros 6
    ++ slot 0 ++ slot 1 ++ slot 2 ++ slot 3

/-- Whether a record can be written now: a free entry in ring 1 and room in ring 2 (R359). -/
def State.recordFits (s : State) (r : OutRecord) : Bool :=
  s.served 1 && s.served 2 && 0 < s.room 1 && r.dataBytes ≤ s.room 2

/-- One record is written: its access units, then the record, then the status page (R354, R359). A frame record makes
its frame delivered (R30); CNT_RECORDS counts (Table 13.21). -/
def writeRecord (r : OutRecord) (s : State) : State :=
  let start := (s.ring 2).mine
  let offs := (r.units.foldl (fun (acc : List Nat × Nat) u =>
    (acc.1 ++ [acc.2], ptrAdd acc.2 (padUnit u.data).length)) ([], start)).1
  let s := r.units.foldl (fun s u => s.produceData (padUnit u.data)) s
  let s := (s.produce 1 (r.bytes (toNs s.now) s.job.shift offs)).publish (some 1)
  let bump := fun (l : List Nat) k (b : Bool) => if b then l.set k (l.getD k 0 + 1) else l
  let c := bump s.host.records 0 r.gap.isNone
  let c := bump c 1 r.gap.isSome
  let c := bump c 2 r.late
  let c := bump c 3 (r.gap.isNone && r.flags.held)
  let s := { s with host := { s.host with records := c } }
  let s := { s with job := if r.gap.isNone then { s.job with delivered := r.frame } else s.job }
  if r.late && r.hostLate then raise 0x6901 r.frame s else s

/-- The state with the list of waiting records replaced. -/
def State.setWaiting (s : State) (w : List OutRecord) : State := { s with host := { s.host with waiting := w } }

/-- Waiting records are written in slot order while there is room (R359). -/
def drainRecords : Nat → State → State
  | 0, s => s
  | fuel + 1, s => match s.host.waiting with
    | [] => s
    | r :: rest =>
      if s.recordFits r then drainRecords fuel (writeRecord r (s.setWaiting rest)) else s

/-- The records left waiting are late (R359); the lateness is the host's unless the Host partition resets (R397). -/
def markLate (s : State) : State :=
  s.setWaiting (s.host.waiting.map fun r => if r.late then r else { r with late := true, hostLate := !s.host.inReset })

/-- The watch period, ended in a job, has its effect at the next boundary or once no job is left (R419). -/
def applyWatchEnd (s : State) : State :=
  if s.integrity.watchEnds then { s with integrity := { s.integrity with watch := false, watchEnds := false } } else s

/-! ### Mailbox responses (R365) -/

/-- A response as bytes (R365). -/
def responseBytes (req : Bytes) (status time : Nat) (body : Bytes) : Bytes :=
  req.take 2 ++ toLe 2 status ++ (req.drop 4).take 4 ++ toLe 8 time ++ slice body 0 240

/-- Responses that wait are written while ring 5 has room. -/
def drainResponses : Nat → State → State
  | 0, s => s
  | fuel + 1, s => match s.host.responses with
    | [] => s
    | b :: rest =>
      if s.served 5 && 0 < s.room 5 then
        let s := { s with host := { s.host with responses := rest } }
        drainResponses fuel ((s.produce 5 b).publish (some 2))
      else s

/-- A request gets its one response. -/
def respond (req : Bytes) (status : Nat) (body : Bytes) (s : State) : State :=
  let b := responseBytes req status (toNs s.now) body
  let s := { s with host := { s.host with responses := s.host.responses ++ [b] } }
  drainResponses (s.host.responses.length + 1) s

/-- An ARMED job returns to IDLE (Table 1.8), and its pending tier requests go. -/
def leaveArmed (s : State) : State :=
  applyWatchEnd { s with
    job := { s.job with phase := .idle },
    tick := { s.tick with start := none },
    tier := { s.tier with requests := [], judged := [], holds := [], queue := s.tier.queue.filter fun i =>
      match s.tier.fill with | some f => i.entry == f.entry | none => false } }

/-- A Dusk cause arises: it takes effect at the next boundary (R36), or ends an ARMED job at once (Table 1.8). The
first cause stands. A ring member other than position 0 sends its code there (R333). -/
def causeDusk (code : Nat) (s : State) : State :=
  match s.job.phase with
  | .armed => leaveArmed s
  | .running | .draining | .squall =>
    match s.job.dusk with
    | some _ => s
    | none =>
      let s := { s with job := { s.job with dusk := some ⟨.dusk, code, s.tick.index⟩ } }
      if s.inRing && s.job.position != 0 then reportToHead 0 (toLe 2 code) s else s
  | _ => s

/-- A record joins the waiting records and is written if it can be; a 65th that would wait leads to Dusk with 0x6908
(R359). -/
def pushRecord (r : OutRecord) (s : State) : State :=
  let s := drainRecords 82 (s.setWaiting (s.host.waiting ++ [r]))
  let s := markLate s
  if s.host.waiting.length == 65 && s.job.phase != .stopping then causeDusk 0x6908 (raise 0x6908 s.host.waiting.length s)
  else s

/-- Everything that waits for a host ring is written as room allows. -/
def drainAll (s : State) : State :=
  let s := drainEvents 1025 s
  let s := drainEvents 1025 (reportDropped s)
  let s := drainRecords 82 s
  drainResponses (s.host.responses.length + 1) s

end Sys2Proof.Machine
end

