-- ==== Sys2Proof/Machine/Operands.lean ====
section
/-! DEFINITION. Operands of commands: the address spaces of Table 2.9, resident blocks, and the reading and writing
of tensor elements in every format (R60, R61, R72, R272). -/

namespace Sys2Proof.Machine

/-! ### The residency directory (R271, R272) -/

/-- Directory entry i, if a plan declares it. -/
def State.dirEntry (s : State) (i : Nat) : Option DirEntry := (s.tier.entries.find? (·.1 == i)).map (·.2)

/-- The state with directory entry i replaced. -/
def State.setEntry (s : State) (i : Nat) (e : DirEntry) : State :=
  { s with tier := { s.tier with entries := s.tier.entries.map fun p => if p.1 == i then (i, e) else p } }

/-- Whether entry i is resident. -/
def State.isResident (s : State) (i : Nat) : Bool := match s.dirEntry i with
  | some e => e.status == .resident | none => false

/-- Physical address of a resident-block address; none while the entry is not resident (R272). -/
def State.residentAddr (s : State) (a : Nat) : Option Nat := match s.dirEntry (bits a 20 17) with
  | some e => if e.status == .resident then some (s.dawn.layout.poolBase + e.frame * 1048576 + bits a 0 20) else none
  | none => none

/-! ### Address spaces (Table 2.9) -/

/-- What a command reads and writes with: its core, its physical accumulator slots in ordinal order, and the bytes
that the host window returned from the tensor's base on. -/
structure Access where
  core  : Nat
  slots : List Nat
  host  : Bytes
deriving DecidableEq, Repr

/-- The memory and the address in it of a byte address of a space; none for T4, for resident blocks that are not
resident and for the reserved space. -/
def locate (s : State) (cx : Access) (space addr : Nat) : Option (Space × Nat) := match space with
  | 0 => some (.hbm, addr)
  | 1 => some (.cache, addr)
  | 2 => some (.scratch, cx.core * 0x400000 + addr)
  | 3 => some (.acc, cx.core * 0x100000 + cx.slots.getD (bits addr 16 4) 0 * 0x10000 + bits addr 0 16)
  | 4 => some (.halo, cx.core * 0x80000 + addr)
  | 6 => (s.residentAddr addr).map fun a => (.hbm, a)
  | _ => none

/-- Whether n bytes from an address on lie inside a space (R61, R251). -/
def insideSpace (space addr n : Nat) : Bool := match space with
  | 0 => addr + n ≤ 0x3000000000
  | 1 => addr % 0x20000000 + n ≤ 0x3E00000 && addr / 0x20000000 < 8
  | 2 => addr + n ≤ 0x400000
  | 3 => addr + n ≤ 0x100000
  | 4 => addr + n ≤ 0x80000
  | 5 => addr + n ≤ 0x1000000000
  | 6 => addr + n ≤ 0x2000000000
  | _ => false

/-- One byte that a command reads; base is where the tensor starts, for T4. -/
def readByte (s : State) (cx : Access) (space base addr : Nat) : Byte :=
  if space == 5 then cx.host.getD (addr - base) 0
  else match locate s cx space addr with
    | some (sp, a) => (s.mem.get sp).read a
    | none => 0

/-- n bytes that a command reads, as a little-endian number. -/
def readLeAt (s : State) (cx : Access) (space base addr n : Nat) : Nat :=
  leValue ((List.range n).map fun i => readByte s cx space base (addr + i))

/-! ### Elements (R61, R72) -/

/-- The storage code of the element at logical indices. -/
def readCode (s : State) (cx : Access) (t : Tensor) (ix : List Nat) : Nat :=
  let (a, b, w) := elementPlace t.fmt t.base (t.offset ix)
  let n := (b + w + 7) / 8
  bits (readLeAt s cx t.space t.base a n) b w

/-- The block scale of the element at logical indices; 0x7F for a format without scales. -/
def readScale (s : State) (cx : Access) (t : Tensor) (ix : List Nat) : Nat :=
  if t.fmt.blockScaled then (readByte s cx t.space t.base (t.scaleAddr ix)).toNat else 0x7F

/-- The value stored as the element at logical indices, its block scale applied (R80). -/
def readStored (s : State) (cx : Access) (t : Tensor) (ix : List Nat) : Val :=
  elementVal t.fmt (readCode s cx t ix) (readScale s cx t ix)

/-- The value of the element at logical indices as an engine reads it; the FP32 data of a tensor of format F19 becomes F19 on
read (R72, R83). DEDUCED: by RNE where the command selects no conversion (log 52). -/
def readVal (s : State) (cx : Access) (t : Tensor) (ix : List Nat) : Val :=
  let v := readStored s cx t ix
  if t.fmt == .f19 then toF19 false v else v

/-- The element as FP32, every format widening exactly (R89). -/
def readWord (s : State) (cx : Access) (t : Tensor) (ix : List Nat) : Word :=
  if t.fmt == .int32 then BitVec.ofNat 32 (readCode s cx t ix) else widen32 (readVal s cx t ix)

/-- An INT32 element as an integer. -/
def readInt (s : State) (cx : Access) (t : Tensor) (ix : List Nat) : Int := signed 32 (readCode s cx t ix)

/-- How many bytes a store to a place rewrites: for U10P the whole word, whose bits [31:30] are zero (R61). -/
def placeBytes (f : Fmt) (place : Nat × Nat × Nat) : Nat :=
  if f == .u10p then 4 else (place.2.1 + place.2.2 + 7) / 8

/-- Single bytes that storing a code at logical indices changes, given the byte now there for packed formats. -/
def codeBytes (f : Fmt) (place : Nat × Nat × Nat) (old code : Nat) : List (Nat × Byte) :=
  let (a, b, w) := place
  let n := placeBytes f place
  let merged := match f with
    | .f4s => old - bits old b w * 2 ^ b + code % 2 ^ w * 2 ^ b
    | .u10p => (old - bits old b w * 2 ^ b + code % 2 ^ w * 2 ^ b) % 2 ^ 30
    | _ => code
  (List.range n).map fun i => (a + i, BitVec.ofNat 8 (merged / 2 ^ (8 * i)))

/-- A write of bytes by a command, in its own address space. -/
structure Put where
  space : Nat
  addr  : Nat
  value : Byte
deriving DecidableEq, Repr

/-- One byte written by a command. -/
def putByte (cx : Access) (s : State) (p : Put) : State := match locate s cx p.space p.addr with
  | some (sp, a) => s.writeMem sp a [p.value]
  | none => s

/-- The bytes of one element with a code, written. -/
def writeCode (cx : Access) (t : Tensor) (ix : List Nat) (code : Nat) (s : State) : State :=
  let place := elementPlace t.fmt t.base (t.offset ix)
  let n := placeBytes t.fmt place
  let old := readLeAt s cx t.space t.base place.1 n
  (codeBytes t.fmt place old code).foldl (fun s p => putByte cx s ⟨t.space, p.1, p.2⟩) s

/-- The block scale of the element at logical indices, written. -/
def writeScale (cx : Access) (t : Tensor) (ix : List Nat) (scale : Nat) (s : State) : State :=
  putByte cx s ⟨t.space, t.scaleAddr ix, BitVec.ofNat 8 scale⟩

/-- The logical indices of every element, dimension 0 fastest. -/
def Tensor.indices (t : Tensor) : List (List Nat) := (List.range t.count).map (unflatten t.dims)

/-- The bytes of an element in a dense stream of the tensor's elements: where its code goes. -/
def Tensor.blockOf (t : Tensor) (n : Nat) : Nat × Nat :=
  let d0 := t.dim 0
  let row := n / d0
  let col := n % d0
  (row * ceilDiv d0 32 + col / 32, col % 32)

/-- A whole output tensor written from FP32 words or integer values in logical order, with conversion to its format
(Table 3.8): elements of a block-scaled format take the scale of their block of 32 along dimension 0 (R82). -/
def writeVals (cx : Access) (t : Tensor) (rd : Nat → Rounding) (vals : List Val) (s : State) : State :=
  let vs := vals.toArray
  if t.fmt.blockScaled then
    let d0 := t.dim 0
    let rows := t.count / d0
    (List.range (rows * ceilDiv d0 32)).foldl (fun s blk =>
      let row := blk / ceilDiv d0 32
      let c0 := 32 * (blk % ceilDiv d0 32)
      let m := min 32 (d0 - c0)
      let block := (List.range m).map fun i => vs.getD (row * d0 + c0 + i) (.fin false 0 0)
      let sc := chooseScale t.fmt block
      let s := writeScale cx t (unflatten t.dims (row * d0 + c0)) sc s
      (List.range m).foldl (fun s i =>
        let n := row * d0 + c0 + i
        writeCode cx t (unflatten t.dims n) (convertScaled t.fmt (rd n) sc (block.getD i (.fin false 0 0))) s) s) s
  else
    (List.range t.count).foldl (fun s n =>
      writeCode cx t (unflatten t.dims n) (convertElement t.fmt (rd n) (vs.getD n (.fin false 0 0))) s) s

/-- A whole tensor written from storage codes in logical order. -/
def writeCodes (cx : Access) (t : Tensor) (codes : List Nat) (s : State) : State :=
  let cs := codes.toArray
  (List.range t.count).foldl (fun s n => writeCode cx t (unflatten t.dims n) (cs.getD n 0) s) s

/-- Every storage code of a tensor in logical order. -/
def readCodes (s : State) (cx : Access) (t : Tensor) : List Nat := t.indices.map (readCode s cx t)

/-! ### Dense streams of elements (R61, R408) -/

/-- Codes of consecutive elements as dense bytes (R61, R408). -/
def packCodes (f : Fmt) : List Nat → Bytes
  | [] => []
  | a :: rest => match f with
    | .f4s => match rest with
      | b :: more => BitVec.ofNat 8 (a % 16 + 16 * (b % 16)) :: packCodes f more
      | [] => [BitVec.ofNat 8 (a % 16)]
    | .u10p => match rest with
      | b :: c :: more => toLe 4 (a % 1024 + 1024 * (b % 1024) + 1048576 * (c % 1024)) ++ packCodes f more
      | [b] => toLe 4 (a % 1024 + 1024 * (b % 1024))
      | [] => toLe 4 (a % 1024)
    | _ => toLe (f.storageBits / 8) a ++ packCodes f rest

/-- Bytes that n dense elements take. -/
def packedBytes (f : Fmt) (n : Nat) : Nat := match f with
  | .f4s => ceilDiv n 2 | .u10p => 4 * ceilDiv n 3 | _ => n * (f.storageBits / 8)

/-- The code of element i of a dense stream. -/
def packedCode (f : Fmt) (b : Bytes) (i : Nat) : Nat :=
  let (a, lo, w) := elementPlace f 0 i
  bits (le b a ((lo + w + 7) / 8)) lo w

/-! ### What a tensor spans -/

/-- The byte addresses of the elements and block scales of a tensor: what reading it reads (R61, R263). -/
def Tensor.touched (t : Tensor) : List Nat := t.indices.flatMap fun ix =>
  let (a, b, w) := elementPlace t.fmt t.base (t.offset ix)
  (List.range ((b + w + 7) / 8)).map (a + ·) ++ (if t.fmt.blockScaled then [t.scaleAddr ix] else [])

/-- The aligned blocks of a size that hold a byte of a tensor, by number. -/
def Tensor.blocksRead (t : Tensor) (size : Nat) : List Nat := (t.touched.map (· / size)).eraseDups

/-- The directory entries whose blocks a resident-space tensor reads. -/
def Tensor.entriesRead (t : Tensor) : List Nat := if t.space == 6 then t.blocksRead 1048576 else []

/-- Whether the whole of a tensor lies inside its space (R61). -/
def Tensor.inside (t : Tensor) : Bool := insideSpace t.space t.base t.extent

end Sys2Proof.Machine
end

