-- ==== Sys2Proof/Machine/Regulators.lean ====
section
/-! DEFINITION. The bandwidth regulators: the shares in force, the token buckets and what a transfer in HBM takes from
them (R257, R259 to R263, Table 10.24). -/

namespace Sys2Proof.Machine

/-! ### HBM addresses (R257) -/

/-- Bytes of HBM on a die (R257). -/
def dieBytes : Nat := 0x1800000000

/-- The die whose stacks hold a physical address. -/
def dieOf (a : Nat) : Nat := a / dieBytes

/-- The stack that holds a physical address. -/
def stackOf (a : Nat) : Nat := 4 * dieOf a + a % dieBytes / 256 % 4

/-- The pseudo-channel, within its stack, that holds a physical address. -/
def pchanOf (a : Nat) : Nat := a % dieBytes / 256 / 4 % 32

/-! ### Regions of HBM (Table 14.9) -/

/-- Whether two ranges (base, length) overlap. -/
def rangesOverlap (a b : Nat × Nat) : Bool := a.1 < b.1 + b.2 && b.1 < a.1 + a.2

/-- Whether no two of a list of ranges overlap. -/
def rangesApart : List (Nat × Nat) → Bool
  | [] => true
  | r :: rest => rest.all (fun q => !rangesOverlap r q) && rangesApart rest

/-- The regions of a layout: plan regions, pool, media region, checkpoint regions. -/
def layoutRegions (l : Layout) : List (Nat × Nat) :=
  [(l.planBase0, l.planSize), (l.planBase1, l.planSize), (l.poolBase, l.poolFrames * 1048576),
   (l.mediaBase, 520 * 1048576), (l.ckptBase0, l.ckptSize), (l.ckptBase1, l.ckptSize)]

/-! ### Shares and depths (R259, R260, R262) -/

/-- The default shares of Table 10.24 for a partition, in GB/s per die. -/
def defaultRate : Nat → Nat
  | 0 => 1000 | 1 => 200 | 2 => 400 | 3 => 1000 | _ => 500

/-- Depth of a default bucket: max(4,096, RATE × 1,000), rounded up to a multiple of 4,096 (R262). -/
def defaultDepth (rate : Nat) : Nat := ceilDiv (max 4096 (rate * 1000)) 4096 * 4096

/-- The regulator table entry of a partition on a die (Table 10.4). -/
def regulatorEntry (p : Plan) (part die : Nat) : Bytes :=
  ((List.range 10).map (tableEntry p 0x09 32)).find? (fun e => byteAt e 0 == part && byteAt e 1 == die)
    |>.getD (zeros 32)

/-- Depth of a Compute sub-bucket (R260). -/
def subDepth (burst clusterRate rate : Nat) : Nat :=
  max 4096 (burst * clusterRate / max 1 rate / 4096 * 4096)

/-- Rate in GB/s and depth in bytes of bucket i in force: 0 to 15 are Compute by die and cluster, 16 to 23 are Media,
Link, Tier and Host by die. -/
def bucketRate (s : State) (i : Nat) : Nat × Nat :=
  if s.inJob then
    if i < 16 then
      let e := regulatorEntry s.plan 0 (i / 8)
      let c := le e (16 + 2 * (i % 8)) 2
      (c, subDepth (le e 4 4) c (le e 2 2))
    else
      let e := regulatorEntry s.plan (1 + (i - 16) / 2) (i % 2)
      (le e 2 2, le e 4 4)
  else if i < 16 then
    let own := i % 8 / 4 == i / 8
    (if own then 250 else 0, if own then defaultDepth 250 else 4096)
  else
    let r := defaultRate (1 + (i - 16) / 2)
    (r, defaultDepth r)

/-- FLAGS.EXCESS of bucket i in force: requests may be served from unused capacity (R260, R262). -/
def bucketExcess (s : State) (i : Nat) : Bool :=
  if s.inJob then
    bitAt (byteAt (regulatorEntry s.plan (if i < 16 then 0 else 1 + (i - 16) / 2) (if i < 16 then i / 8 else i % 2)) 8) 0
  else true

/-- The buckets of a partition. -/
def partitionBuckets (part : Nat) : List Nat :=
  if part == 0 then List.range 16 else [16 + 2 * (part - 1), 17 + 2 * (part - 1)]

/-! ### Filling and serving (R260) -/

/-- Bucket i, full at the present instant, with nothing that waits. -/
def fullBucket (s : State) (i : Nat) : Bucket := ⟨(bucketRate s i).2, s.now, 0⟩

/-- Every bucket full, as at T(0) and when the default table takes effect (R260, R262). -/
def fillBuckets (s : State) : State :=
  { s with tier := { s.tier with buckets := (List.range 24).map (fullBucket s) } }

/-- The buckets of one partition full, after its reset (R260). -/
def fillPartition (part : Nat) (s : State) : State :=
  { s with tier := { s.tier with buckets :=
      (partitionBuckets part).foldl (fun bs i => bs.set i (fullBucket s i)) s.tier.buckets } }

/-- A bucket with what it has gained in the whole microseconds since it was last served, up to its depth; requests that
wait are served from it first. -/
def gained (s : State) (i : Nat) : Bucket :=
  let r := bucketRate s i
  match s.tier.buckets[i]? with
  | some b =>
    let have_ := min r.2 (b.tokens + (s.now / us 1 - b.stamp / us 1) * r.1 * 1000)
    let paid := min b.owed (have_ / 32 * 32)
    ⟨have_ - paid, s.now, b.owed - paid⟩
  | none => fullBucket s i

/-- A transfer of n bytes on bucket i, in requests of 32 bytes (R260): as many as the tokens allow are served with
guaranteed priority and take them. The rest waits; with EXCESS it is served from unused capacity and takes none
(log 42: that capacity counts as there). -/
def takeTokens (i n : Nat) (s : State) : State :=
  let b := gained s i
  let want := ceilDiv n 32 * 32
  let served := if b.owed == 0 then min want (b.tokens / 32 * 32) else 0
  let b : Bucket := ⟨b.tokens - served, b.stamp, if bucketExcess s i then b.owed else b.owed + (want - served)⟩
  { s with tier := { s.tier with buckets := s.tier.buckets.set i b } }

/-- A transfer of a partition other than Compute to or from HBM, at an address (R260). -/
def chargeHbm (part addr n : Nat) (s : State) : State := takeTokens (16 + 2 * (part - 1) + dieOf addr % 2) n s

/-- A transfer of a core's commands to or from HBM, at an address: local and remote accesses count alike (R260). -/
def chargeCore (core addr n : Nat) (s : State) : State := takeTokens (8 * (dieOf addr % 2) + core / 8 % 8) n s

/-- The rates that TIR_RATE shows, from the plan's table (Table 10.22). -/
def planRates (p : Plan) : List (Nat × Nat × Nat) :=
  (List.range 10).map fun i =>
    let e := regulatorEntry p (i / 2) (i % 2)
    (le e 4 4 / 1024, byteAt e 8 % 2, le e 2 2)

end Sys2Proof.Machine
end

