-- ==== Sys2Proof/Machine/MediaTable.lean ====
section
/-! DEFINITION. The media table: the fields of an entry (Table 11.4), what they say of the bitstream (R292, R295) and of
the frame buffers (R304), and the entries of the running variant. -/

namespace Sys2Proof.Machine

/-! ### Media table entry (Table 11.4) -/

/-- FORMAT: 0 AV1, 1 HEVC. -/
def meFormat (e : Bytes) : Nat := byteAt e 1
/-- PROFILE. -/
def meProfile (e : Bytes) : Nat := byteAt e 2
/-- BIT_DEPTH. -/
def meDepth (e : Bytes) : Nat := byteAt e 3
/-- LEVEL. -/
def meLevel (e : Bytes) : Nat := byteAt e 4
/-- ENGINES. -/
def meEngines (e : Bytes) : Nat := byteAt e 5 % 64
/-- REFS. -/
def meRefs (e : Bytes) : Nat := byteAt e 6
/-- KEY_INTERVAL. -/
def meKeyInterval (e : Bytes) : Nat := le e 8 2
/-- WIDTH. -/
def meWidth (e : Bytes) : Nat := le e 10 2
/-- HEIGHT. -/
def meHeight (e : Bytes) : Nat := le e 12 2
/-- PIX_TENSOR. -/
def mePix (e : Bytes) : Nat := le e 14 2
/-- HINT_TENSOR. -/
def meHint (e : Bytes) : Nat := le e 16 2
/-- QP_INIT. -/
def meQpInit (e : Bytes) : Nat := byteAt e 18
/-- QP_MIN. -/
def meQpMin (e : Bytes) : Nat := byteAt e 19
/-- QP_MAX. -/
def meQpMax (e : Bytes) : Nat := byteAt e 20
/-- TARGET_KBPS. -/
def meKbps (e : Bytes) : Nat := le e 24 4
/-- BUFFER_KBIT. -/
def meBufferKbit (e : Bytes) : Nat := le e 28 4
/-- Frame buffers that a frame takes (R304). -/
def meBuffers (e : Bytes) : Nat := ceilDiv (meWidth e * meHeight e) 8294400
/-- Buffers that the stream of an entry needs (R304). -/
def meBudget (e : Bytes) : Nat :=
  meBuffers e * (if byteAt e 0 == 1 then 1 + meRefs e else if meFormat e == 0 then 10 else 8)
/-- The quantiser that the bitstream carries for a QP: the HEVC slice QP, or the AV1 base_q_idx (R295). -/
def meQuantiser (e : Bytes) (qp : Nat) : Nat := if meFormat e == 1 then qp else min 255 (5 * qp)
/-- The level that the bitstream carries: the AV1 seq_level_idx, or the HEVC general_level_idc (R295). -/
def meLevelCode (e : Bytes) : Nat :=
  let major := meLevel e / 10
  let minor := meLevel e % 10
  if meFormat e == 0 then 4 * (major - 2) + minor else 30 * major + 3 * minor
/-- The format of the pixel tensors (R296). -/
def meFmt (e : Bytes) : Fmt := if meDepth e == 8 then .u8 else .u10p
/-- Superblocks (CTBs) of 64 × 64 in a row, and rows. -/
def meBlocks (e : Bytes) : Nat × Nat := (ceilDiv (meWidth e) 64, ceilDiv (meHeight e) 64)

/-! ### Rate control (R298, R299) -/

/-- c, the bits drained per tick: floor(TARGET_KBPS × 1000 × Tp). -/
def drainBits (e : Bytes) (tp : Time) : Nat := meKbps e * 1000 * tp / 30000000000000

/-- Bs in bits. -/
def bufferBits (e : Bytes) : Nat := meBufferKbit e * 1000

/-! ### The media table of the running variant (Table 11.4) -/

/-- Media table entry n. -/
def mediaEntry (s : State) (n : Nat) : Bytes :=
  slice ((findSection s.plan 0x0B s.job.variant s.job.position 0).getD []) (64 * n) 64

/-- KIND of media entry n: 1 encode, 2 decode. -/
def mediaKind (s : State) (n : Nat) : Nat := byteAt (mediaEntry s n) 0

/-- Whether entry n of the media table encodes, or decodes. -/
def isEncoder (s : State) (n : Nat) : Bool := n < 4 && mediaKind s n == 1

/-- The encode entries of the running variant. -/
def encodeEntries (s : State) : List Nat := (List.range 4).filter fun n => mediaKind s n == 1

/-- The decode entries of the running variant. -/
def decodeEntries (s : State) : List Nat := [4, 5].filter fun n => mediaKind s n == 2

/-- Whether this member writes output records: it is alone, or holds an encode entry (R338). -/
def writesRecords (s : State) : Bool := s.job.variant ≤ 1 || !(encodeEntries s).isEmpty

/-- Whether every encode entry has committed its access unit of a frame. -/
def unitsCommitted (s : State) (f : Frame) : Bool :=
  (encodeEntries s).all fun n => f.units.any fun u => u.stream == n

end Sys2Proof.Machine
end

