-- ==== Sys2Proof/Machine/Fetch.lean ====
section
/-! DEFINITION. Command fetch: the lists of the chosen path read from the plan region of each core's die into its command
buffer (R52, Table 2.3, R412), and the table sets of plans and the function banks that hold them. -/

namespace Sys2Proof.Machine

/-- Descriptors that a command buffer holds (Table 2.3). -/
def bufferCommands : Nat := 512

/-- Whether a poisoned word lies in a range of HBM (R258). -/
def poisonedIn (s : State) (a n : Nat) : Bool := s.integrity.poisoned.any fun w => w + 32 > a && w < a + n

/-- Bytes of the body of the plan image for a core: from the plan region of its die, or where a poisoned word lies there
from the copy on the other die (R52, R412). -/
def readBody (s : State) (core off n : Nat) : Bytes :=
  let own := if core < 32 then s.dawn.layout.planBase0 else s.dawn.layout.planBase1
  let other := if core < 32 then s.dawn.layout.planBase1 else s.dawn.layout.planBase0
  s.readMem .hbm ((if poisonedIn s (own + off) n then other else own) + off) n

/-- BODY_LEN of an image. -/
def imgBodyLen (i : Bytes) : Nat := le i 16 8

/-- The plan region copies checked against the digest that Dawn recorded (Table 15.8): where one alone matches, the other is
written anew from it, so that every later read has the good copy (Table 15.10; DEDUCED, log 47). -/
def checkPlanRegions (s : State) : State :=
  let n := imgBodyLen s.dawn.planImage
  let a := s.dawn.layout.planBase0
  let b := s.dawn.layout.planBase1
  let same := fun x => Config.sha384 (s.readMem .hbm x n) == s.dawn.regionDigest
  match same a, same b with
  | true, false => s.writeMem .hbm b (s.readMem .hbm a n)
  | false, true => s.writeMem .hbm a (s.readMem .hbm b n)
  | _, _ => s

/-- Where the command lists of the running variant's chosen path start in the body. -/
def listsPlace (s : State) : Option Nat :=
  (sectionPlace s.plan 0x01 s.job.variant s.job.position s.job.path).map fun o =>
    ((s.planAt s.job.planIndex).map (·.place)).getD 0 + o

/-- How many commands the list of a core holds. -/
def fetchTotal (s : State) (core : Nat) : Nat := match listsPlace s with
  | some o => le (readBody s core (o + 8 * core + 4) 4) 0 4
  | none => 0

/-- The command at a place of a core's list. -/
def fetchCommand (s : State) (core place : Nat) : Bytes := match listsPlace s with
  | some o => readBody s core (o + le (readBody s core (o + 8 * core) 4) 0 4 + 64 * place) 64
  | none => zeros 64

/-- Every sequencer restarts at the head of its list: the first commands are fetched (R52). -/
def fetchLists (s : State) : State :=
  let totals := (List.range 64).map (fetchTotal s)
  { s with compute := { s.compute with
      totals := totals,
      buffers := totals.mapIdx fun core n => (List.range (min n bufferCommands)).map (fetchCommand s core) } }

/-- The head of a core's command buffer issues: the next command of the list is fetched behind those that remain (R52). -/
def refillBuffer (core : Nat) (s : State) : State :=
  let place := s.compute.issued.getD core 0 + bufferCommands
  let rest := (s.compute.buffers.getD core []).drop 1
  let more := if place < s.compute.totals.getD core 0 then [fetchCommand s core place] else []
  { s with compute := { s.compute with buffers := s.compute.buffers.set core (rest ++ more) } }

/-! ### Table sets (Table 14.12, type 0x08) -/

/-- How many tables a table set starts with: every 4,096 bytes that are a table of Table 6.5; 4,096 bytes at the end that
are none are 16 micro-programs. DESIGN CHOICE (log 33): section 0x08 gives neither slot numbers nor counts, so table i of
the section takes slot i and its length tells tables from micro-programs. -/
def tablesIn (set : Bytes) : Nat :=
  let n := set.length / 4096
  if n != 0 && set.length % 4096 == 0 && !tableValid (slice set (4096 * (n - 1)) 4096) then n - 1 else n

/-- Table i of a set. -/
def tableOf (set : Bytes) (i : Nat) : Bytes := slice set (4096 * i) 4096

/-- Micro-program i of a set. -/
def microOf (set : Bytes) (i : Nat) : Bytes := slice set (4096 * tablesIn set + 256 * i) 256

/-- How many micro-programs a set holds. -/
def microCount (set : Bytes) : Nat := (set.length - 4096 * tablesIn set) / 256

/-! ### The function banks (R160, R164, R165) -/

/-- The active bank (R160). -/
def State.activeBank (s : State) : FunctionBank := if s.compute.bank == 0 then s.compute.bank0 else s.compute.bank1

/-- The inactive bank. -/
def State.inactiveBank (s : State) : FunctionBank := if s.compute.bank == 0 then s.compute.bank1 else s.compute.bank0

/-- A bank with a plan's set in its slots 0x00 to 0x1F and 0x2F (Table 6.4); its A5 tables stay. -/
def FunctionBank.withSet (b : FunctionBank) (set : Bytes) : FunctionBank :=
  { b with
    tables := (List.range (tablesIn set)).map (tableOf set), micros := (List.range (microCount set)).map (microOf set) }

/-- Whether a bank holds a plan's set. -/
def FunctionBank.holdsSet (b : FunctionBank) (set : Bytes) : Bool := b == b.withSet set

/-- A write goes to the inactive bank only (R160). -/
def writeInactive (f : FunctionBank → FunctionBank) (s : State) : State :=
  if s.compute.bank == 0 then { s with compute := { s.compute with bank1 := f s.compute.bank1 } }
  else { s with compute := { s.compute with bank0 := f s.compute.bank0 } }

/-- The banks swap on all 64 cores together (R165). -/
def swapBanks (s : State) : State := { s with compute := { s.compute with bank := 1 - s.compute.bank } }

/-- A write of the inactive bank with its read-back: a swap, or 0x4209 and no swap (R165). -/
def loadBank (ok : Bool) (f : FunctionBank → FunctionBank) (s : State) : State :=
  if ok then swapBanks (writeInactive f s) else raise 0x4209 0 (writeInactive f s)

/-- The running plan's set as the plan region in HBM holds it (R164, Table 6.6): that of die 0, or where a poisoned word lies
there the copy on die 1. -/
def storedSet (s : State) : Bytes := match s.plan.sections.find? (·.type == 0x08) with
  | some x => readBody s 0 (((s.planAt s.job.planIndex).map (·.place)).getD 0 + x.place) x.content.length
  | none => []

end Sys2Proof.Machine
end

