-- ==== Sys2Proof/Machine/Recover.lean ====
section
/-! DEFINITION. The ends that a fault or a request can have, shared by every command: killing commands, stopping the
job (R38), Squall (R39), the common abort (R334), counted errors and Eclipse (R416 to R420). -/

namespace Sys2Proof.Machine

/-! ### Killing -/

/-- Every command in flight is killed: staged state, slots and event counts go without waiting for their holders
(Table 2.13, R412), and so do the reservations of collectives (R252). -/
def killCompute (s : State) : State :=
  { s with
    compute := { s.compute with
      issued := List.replicate 64 0, reissue := [], runs := [], done := [], counts := [], ordered := [],
      totals := List.replicate 64 0, buffers := List.replicate 64 [],
      edge := List.replicate 8 none, edgeQueue := [], hosted := [], guests := [], agreed := [] },
    link := { s.link with transfers := [], turns := [] } }

/-- Encodes and decodes in progress are killed and their CURRENT buffers return to FREE (R38, R305). -/
def killMedia (s : State) : State :=
  { s with media := { s.media with
      streams := s.media.streams.map fun x => { x with busy := none, staged := false, queue := [], out := none },
      buffers := s.media.buffers.map fun b => if b.current then {} else b } }

/-- Decodes of an abandoned tick are abandoned with their buffers; encodes of committed pixels complete (R308). -/
def killDecodes (s : State) : State :=
  { s with media := { s.media with
      streams := s.media.streams.mapIdx fun i x => if 4 ≤ i then { x with busy := none, staged := false } else x,
      buffers := s.media.buffers.map fun b => if b.current && 4 ≤ b.stream then {} else b } }

/-- The pool returns to FREE (R305); no frame is in progress, and each encoder's next frame is a key frame. -/
def freePool (s : State) : State :=
  { s with media := { s.media with
      streams := s.media.streams.map fun x =>
        { x with busy := none, staged := false, queue := [], out := none, sinceKey := none, keyWanted := true,
                 prevKey := false },
      buffers := List.replicate 32 {} } }

/-- Every rate controller restarts: F is Bs div 2 (R298, R309). -/
def restartControllers (s : State) : State :=
  { s with media := { s.media with
      streams := s.media.streams.mapIdx fun n x =>
        if isEncoder s n then { x with fullness := (bufferBits (mediaEntry s n) / 2 : Nat) } else x } }

/-! ### Records -/

/-- The record that delivers a frame in the slot of tick m (R360). -/
def frameRecord (f : Frame) (m : Nat) : OutRecord :=
  { gap := none, flags := f.flags, cheaper := f.paths.any (· != 0), frame := f.number, tick := m,
    accepted := f.accepted, paths := f.paths, units := f.units, late := false, hostLate := false }

/-- A gap record in the slot of tick m (R31). -/
def gapRecord (reason : GapReason) (m latency : Nat) : OutRecord :=
  { gap := some reason, flags := {}, cheaper := false, frame := 0xFFFFFFFF, tick := m, accepted := m - latency,
    paths := [], units := [], late := false, hostLate := false }

/-- A record is due at this member, unless it writes none (R338) or the reset discards it (R346). -/
def dueRecord (r : OutRecord) (s : State) : State := if writesRecords s && !s.host.flr then pushRecord r s else s

/-- Whether the slot of tick m is one of the job: a draining job has none after that of its last frame, whose end tick
a Squall still moves (R37, R39). -/
def slotOpen (s : State) (m : Nat) : Bool := match s.job.endTick with
  | some e => m < e + s.latency || s.job.squall.isSome
  | none => true

/-- The slots of boundaries placed that have no record yet and hold no frame. -/
def emptySlots (s : State) : List Nat :=
  ((List.range (s.tick.index + 1 - s.job.nextSlot)).map (s.job.nextSlot + ·)).filter fun m =>
    s.latency ≤ m && slotOpen s m && !(s.job.frames.any fun f => f.accepted + s.latency == m)

/-- The reason of a gap record in the slot of tick m that no accepted frame fills: recovery in SQUALL, and where the slot's
own tick ran; in the slots that the shift of a resume skipped, the STOP_REASON (R31, R38, R40). -/
def slotReason (s : State) (m : Nat) : GapReason :=
  if s.job.squall.isSome || s.job.first + s.latency ≤ m then .recovery else s.job.gapReason

/-- The records of a stop, in slot order. Every accepted frame not yet delivered receives one: its own if its access
units were committed, else a gap record with a reason (R38); in Eclipse every one is a gap record (R420). A boundary
already placed whose slot holds no frame has its gap record too (R31). A frame that keeps its place in a Squall although
its slot already has a gap record of reason recovery gets its record of the stop under the tick index of that slot, its
acceptance tick + L, which so occurs twice (DESIGN CHOICE, log 43: R38 gives no tick index to such a record). -/
def closingRecords (reason : GapReason) (s : State) : List OutRecord :=
  let l := s.latency
  let own := s.job.frames.map fun f =>
    if unitsCommitted s f && reason != .eclipse then frameRecord f (f.accepted + l)
    else gapRecord reason (f.accepted + l) l
  sortBy (fun a b => decide (a.tick ≤ b.tick)) ((emptySlots s).map (fun m => gapRecord (slotReason s m) m l) ++ own)

/-- The records of a stop are written, and no slot is left. -/
def closeFrames (reason : GapReason) (s : State) : State :=
  let s := (closingRecords reason s).foldl (fun s r => dueRecord r s) s
  { s with job := { s.job with frames := [], nextSlot := max s.job.nextSlot (s.tick.index + 1) } }

/-! ### Checkpoint regions (R407) -/

/-- The checkpoint declaration of the running variant (Table 15.5). -/
def ckptDecl (s : State) : Bytes := (findSection s.plan 0x10 s.job.variant 0xFF 0).getD []

/-- CKPT_BYTES. -/
def ckptBytes (s : State) : Nat := le (ckptDecl s) 0 4

/-- The base of a checkpoint region. -/
def ckptBase (s : State) (die : Nat) : Nat := if die == 0 then s.dawn.layout.ckptBase0 else s.dawn.layout.ckptBase1

/-- The state seen under another ring variant of the same plan: its declaration and its tensor table. -/
def State.asVariant (s : State) (v : Nat) : State := { s with job := { s.job with variant := v } }

/-- Where the checkpoint whose header names tick c starts in the region of a die. -/
def ckptAddr (s : State) (die c : Nat) : Nat := ckptBase s die + 4096 + c % 2 * ckptBytes s

/-- STOP_REASON and STOP_TICK entered in the header of the retained checkpoint, with its CRC, in both copies (R38). -/
def stampCheckpoint (reason : GapReason) (stopTick ckpt : Nat) (s : State) : State :=
  [0, 1].foldl (fun s die =>
    let a := ckptAddr s die ckpt
    let s := s.writeMem .hbm (a + 316) (toLe 1 reason.code)
    let s := s.writeMem .hbm (a + 320) (toLe 8 stopTick)
    s.writeMem .hbm (a + 4092) (toLe 4 (crc32c (s.readMem .hbm a 4092)))) s

/-! ### Stop (R38) -/

/-- FAULT_N deasserts where no Eclipse, safe state or failed Dawn holds it. -/
def releaseFault (s : State) : State :=
  if s.dawn.phase == .passed && s.stratus.phase == .on && s.stratus.healthy
      && !s.media.inReset && !s.tier.inReset && !s.host.inReset then
    { s with sideband := { s.sideband with faultN := false }, integrity := { s.integrity with level := 0 } }
  else s

/-- The code that reports the completion of a stop by its reason: 0x1909 or 0x190A (Table 1.6, R366). -/
def stopCode : Option GapReason → Option Nat
  | some .preemption => some 0x1909
  | some .aborted => some 0x190A
  | _ => none

/-- All records of a stop written: STOPPING passes to IDLE (Table 1.8), the default regulator table takes effect (R262),
and 0x1909 or 0x190A reports it (R366). -/
def stopComplete (s : State) : State :=
  if s.job.phase == .stopping && s.host.waiting.isEmpty then
    let u := fillBuckets { s with job := { s.job with phase := .idle } }
    match stopCode s.job.stopping with
    | some c => raise c 0 u
    | none => u
  else s

/-- What a Dusk or a pre-emption keeps (R38); none when no tick has committed. -/
def retainedOf (reason : GapReason) (s : State) : Option Retained :=
  match s.job.committed, s.job.ckptTick with
  | some c, some ck =>
    let p := planP s.plan
    let keep := s.job.frames.filter fun f => !unitsCommitted s f && c < f.accepted + p + 1
    some { planIndex := s.job.planIndex, measurement := s.dawn.planMeasure, planId := planId s.plan, c := c,
           ckptTick := ck, stopTick := s.tick.index, reason := reason, endTick := s.job.endTick,
           nextFrame := s.job.nextFrame, variant := s.job.variant, frames := keep, condFrames := s.job.condFrames,
           previous := s.job.previous, shift := s.job.shift, seed := s.job.seed, ak := s.job.akCommitted }
  | _, _ => none

/-- What the fill queue keeps when the pending requests are discarded: the entry that is being filled (R287). -/
def fillingOnly (s : State) : List FillItem := s.tier.queue.filter fun i => match s.tier.fill with
  | some f => i.entry == f.entry | none => false

/-- The job leaves its tick machinery: nothing pending, TICK_OUT low, pending tier requests discarded (R287). -/
def leaveJob (s : State) : State :=
  { s with
    job := { s.job with
      endPending := none, dusk := none, deferred := none, squall := none, endedAt := some s.now,
      keyMask := 0, condFrames := [] },
    tick := { s.tick with pulse := none, flywheel := 0, start := none },
    tier := { s.tier with requests := [], judged := [], queue := fillingOnly s, holds := [] },
    link := { s.link with abortTick := none, resumeAt := none, reports := [], memberDusk := none, ready := [],
                          transfers := [], turns := [], readySent := none },
    compute := { s.compute with inReset := false } }

/-- The conditioning picked up for frames not yet accepted is discarded. -/
def dropConditioning (s : State) : State := { s with host := { s.host with conds := [] } }

/-- A stop (R38): kill, one record per frame not yet delivered, then the checkpoint is kept, or discarded with the
conditioning. -/
def stopJob (reason : GapReason) (keep : Bool) (s : State) : State :=
  let s := killMedia (killCompute s)
  let kept := if keep then retainedOf reason s else none
  let s := { s with job := { s.job with phase := .stopping, stopping := some reason } }
  let s := closeFrames reason s
  let s := match kept with
    | some r => stampCheckpoint reason r.stopTick r.ckptTick s
    | none => dropConditioning s
  let s := leaveJob { s with job := { s.job with retained := kept, resumable := kept.isSome } }
  let s := freePool s
  stopComplete (applyWatchEnd (releaseFault s))

/-- The stop of a Dusk at a boundary: the cause was reported, and a class 0x5 cause is reported with 0x1908 (R433). -/
def duskStop (code : Nat) (s : State) : State :=
  stopJob .dusk true (if code / 4096 == 5 then raise 0x1908 code s else s)

/-- JOB_PREEMPT or JOB_ABORT. -/
def requestStop (reason : GapReason) (s : State) : State := stopJob reason (reason == .preemption) s

/-! ### Counted errors and Eclipse (R415 to R420) -/

/-- Cumulative operation in units of 0.001 device-hour, which is 3.6 s (R417). -/
def State.millihours (s : State) : Nat := match s.integrity.since with
  | some t => s.integrity.baseHours + (s.now - t) / (sec 36 / 10)
  | none => s.integrity.baseHours

/-- INT_ERRORS_k counts one more (Table 15.19). -/
def countKind (k : Nat) (s : State) : State :=
  { s with integrity := { s.integrity with counts := s.integrity.counts.set k (s.integrity.counts.getD k 0 + 1) } }

/-- A history page is due within 60 s (R417). -/
def pageSoon (s : State) : State :=
  { s with integrity := { s.integrity with pageDue := some (match s.integrity.pageDue with
      | some t => min t (s.now + sec 60) | none => s.now + sec 60) } }

/-- Rule 1 of R418: three counted errors of the unit at most 72,000 millihours apart. -/
def ruleOne (unit : BitVec 32) (es : List HistEntry) : Bool :=
  let h := (es.filter (·.unit == unit)).map (·.millihours)
  h.any fun a => h.any fun b => a + 72000 ≥ b && a ≤ b && 3 ≤ (h.filter fun x => a ≤ x && x ≤ b).length

/-- Rule 2 of R418: two entries with the same unit and the same known site, weight-store channels apart. -/
def ruleTwo (unit : BitVec 32) (es : List HistEntry) : Bool :=
  unit.toNat / 0x1000000 != 8 &&
    es.any fun a => a.unit == unit && a.site != 0xFFFFFFFF
      && 2 ≤ (es.filter fun b => b.unit == a.unit && b.site == a.site).length

/-- The rule of R418 that classifies a unit permanent, the lowest-numbered one (R467); 0 if none. -/
def permanentRule (unit : BitVec 32) (failedTest : Bool) (es : List HistEntry) : Nat :=
  if ruleOne unit es then 1 else if ruleTwo unit es then 2 else if failedTest then 3
  else if unit.toNat / 0x1000000 == 7 && es.any (·.unit == unit) then 4 else 0

/-- A port enters a state: nothing waits or awaits acknowledgement, and its codewords start anew. -/
def Port.withPhase (p : Port) (ph : PortPhase) : Port :=
  { p with phase := ph, lanes := if ph == .up then 15 else 0, replay := [], waiting := [], retrans := [],
           beat := 0, bad := false, codewords := 0,
           dataCredits := 0, ctrlCredits := 0, nextSeq := 0, lastSeq := 4095, ackAt := none, identified := false }

/-- The state that is Eclipse (R420): all work killed, gap records, READY deasserted, FAULT_N asserted, ports disabled, a
history page due; the default regulator table takes effect (R262). -/
def eclipseState (s : State) : State :=
  let s := killMedia (killCompute s)
  let s := if s.inJob then closeFrames .eclipse s else s
  let s := leaveJob s
  pageSoon (fillBuckets { s with
    job := { s.job with phase := .eclipse },
    dawn := { s.dawn with phase := .eclipse, due := false },
    integrity := { s.integrity with level := 0 },
    sideband := { s.sideband with ready := false, faultN := true },
    tier := { s.tier with fill := none },
    link := { s.link with ports := s.link.ports.map (·.withPhase .disabled), formed := false, ringSize := 0 } })

/-- A unit is classified permanent: Eclipse with 0x4C01 (R420). -/
def enterEclipse (unit : BitVec 32) (rule : Nat) (s : State) : State :=
  let s := eclipseState { s with integrity := { s.integrity with permanent := true, permUnit := unit, rule := rule } }
  raiseAs 0x4C01 false .management true (unit.toNat + rule * 0x100000000) s

/-- The order of the history: by MILLIHOURS, then EVENT_SEQ (R415). -/
def HistEntry.notAfter (a b : HistEntry) : Bool :=
  a.millihours < b.millihours || (a.millihours == b.millihours && a.seq ≤ b.seq)

/-- A detection is entered in the history (R416, R466) under the SEQ of its event, the latest event raised; the 126 newest
entries are kept (R415). -/
def enterHistory (code : Nat) (unit site : BitVec 32) (s : State) : State :=
  let e : HistEntry := ⟨unit, site, code, s.millihours, ptrAdd s.host.nextSeq 4294967295⟩
  pageSoon { s with integrity := { s.integrity with
      entries := (insertBy HistEntry.notAfter e s.integrity.entries).drop (s.integrity.entries.length - 125),
      total := min 4294967295 (s.integrity.total + 1), lastUnit := unit } }

/-- A unit is classified permanent if a rule of R418 holds; the module then enters Eclipse. -/
def classify (unit : BitVec 32) (failedTest : Bool) (s : State) : State :=
  if s.dawn.phase == .eclipse then s else
    let r := permanentRule unit failedTest s.integrity.entries
    if r == 0 then s else enterEclipse unit r s

/-- A counted error: its event, its history entry, and the evaluation of R418. -/
def countError (code : Nat) (detectedIn : Source) (oob : Bool) (unit site : BitVec 32) (arg : Nat) (s : State) : State :=
  classify unit false (enterHistory code unit site (raiseAs code false detectedIn oob arg s))

/-- A unit number of Table 15.13. -/
def unitOf (cls inst : Nat) : BitVec 32 := BitVec.ofNat 32 (cls * 0x1000000 + inst)

/-- An unknown site. -/
def noSite : BitVec 32 := 0xFFFFFFFF

/-! ### Squall (R39) and the common abort (R334) -/

/-- A fault that needs level 2 or 3 asserts FAULT_N (R413). -/
def assertFault (s : State) : State := { s with sideband := { s.sideband with faultN := true } }

/-- Fill order: ascending deadline, then CMD_INDEX, then entry (R281). -/
def FillItem.before (a b : FillItem) : Bool :=
  a.deadline < b.deadline || (a.deadline == b.deadline &&
    (a.cmdIndex < b.cmdIndex || (a.cmdIndex == b.cmdIndex && a.entry < b.entry)))

/-- The requests of the abandoned ticks after c (R287): those that their commands committed were never enqueued, and go;
those that fell due at them fall due again. A queued entry whose place a request that goes gave it takes the place that the
pending requests give it, or leaves the queue with them unless it is being filled. -/
def withdrawRequests (c : Option Nat) (s : State) : State :=
  let gone := fun (r : TierRequest) => match r.made, c with
    | none, _ => false
    | some _, none => true
    | some k, some c => c < k
  let again := s.tier.judged.filter fun r =>
    !s.tier.requests.contains r && match c with | some c => decide (c < r.due) | none => true
  let lost := s.tier.requests.filter gone
  let kept := (again ++ s.tier.requests).filter fun r => !gone r
  let filling := fillingOnly s
  let place := fun (i : FillItem) =>
    if lost.any fun r => r.due == i.deadline && r.cmdIndex == i.cmdIndex && r.entries.contains i.entry then
      (kept.filter (·.entries.contains i.entry)).foldl (fun (best : Option FillItem) r =>
        let n : FillItem := ⟨r.due, r.cmdIndex, i.entry⟩
        match best with
        | some b => if n.before b then some n else some b
        | none => some n) (if filling.contains i then some i else none)
    else some i
  { s with tier := { s.tier with requests := kept, queue := s.tier.queue.filterMap place } }

/-- A committed tick, or none, as a flit or a report carries it. -/
def tickCode (c : Option Nat) : Nat := c.getD 0xFFFFFFFFFFFFFFFF

/-- In a ring Squall a member other than position 0 reports its newest committed tick there once its Compute partition is
reset, and again once it is restored (R335). -/
def reportNewest (s : State) : State := match s.job.squall with
  | some q =>
    if q.ring && s.job.position != 0 then
      reportToHead 1 (toLe 8 (tickCode q.c) ++ toLe 1 (bitOf q.complete.isSome)) s
    else s
  | none => s

/-- Compute Squall begins in RUNNING or DRAINING: uncommitted work is killed and the partition is reset. With a Dusk
cause of the same tick there is no Squall, and the Dusk stops the job at the next boundary (Table 1.9); in a ring it is
position 0 that decides it, so another member enters Squall and waits for its TICK (R333, Table 12.11). In SQUALL a
further fault restarts recovery from the Compute reset (R414). Outside a job the partition alone is reset. -/
def beginSquall (level : Nat) (charged : Option (BitVec 32)) (die : Option Nat) (ring : Bool) (s : State) : State :=
  let s := killDecodes (killCompute s)
  let s := assertFault { s with compute := { s.compute with inReset := true, abandoned := true } }
  match s.job.phase with
  | .running | .draining =>
    if s.job.dusk.isSome && !(s.inRing && s.job.position != 0) then s
    else
      let s := withdrawRequests s.job.committed (if level == 2 then countKind 9 s else s)
      { s with
        job := { s.job with
          phase := .squall,
          squall := some { detected := s.now, tick := s.tick.index, c := s.job.committed, level := level,
                           resetDone := false, complete := none, charged := charged, die := die, ring := ring } },
        integrity := { s.integrity with level := level } }
  | .squall =>
    match s.job.squall with
    | some q =>
      { s with
        job := { s.job with squall := some { q with
          resetDone := false, complete := none, level := max q.level level, charged := charged.or q.charged,
          die := die.or q.die, ring := q.ring || ring } },
        integrity := { s.integrity with level := max q.level level } }
    | none => s
  | _ => s

/-- ABORT both ways round (Table 12.4), with this member as originator. -/
def sendAbort (cause : Nat) (s : State) : State :=
  sendBothWays 0x22 (toLe 8 s.tick.index ++ toLe 2 cause ++ toLe 1 s.link.position) s

/-- Whether the common abort of the current tick has begun at this member. -/
def State.aborted (s : State) : Bool := s.link.abortTick == some s.tick.index

/-- Whether an abort may begin at this member: the tick is under way and not aborted, or for a reset of a member
(0x3A08) the ring is in Squall (R334, R337, R339, Table 12.11). -/
def State.abortable (s : State) (cause : Nat) : Bool :=
  s.inRing && (((s.job.phase == .running || s.job.phase == .draining) && !s.aborted)
    || (cause == 0x3A08 && s.job.phase == .squall))

/-- The abort takes effect at this member: 0x3A01, then Squall, or for cause 0x3A08 the stop of R339. -/
def takeAbort (cause : Nat) (charged : Option (BitVec 32)) (die : Option Nat) (s : State) : State :=
  let s := { s with link := { s.link with abortTick := some s.tick.index, aborts := s.link.aborts + 1 } }
  let s := raiseAs 0x3A01 false .link true 0 s
  if cause == 0x3A08 then stopJob .aborted false (raiseAs 0x3A08 false .link false 0 s)
  else beginSquall 2 charged die true s

/-- The common abort begins at this member (R334): ABORT both ways and the cause, unless its event has been raised. -/
def startAbort (cause : Nat) (reported : Bool) (charged : Option (BitVec 32)) (die : Option Nat) (s : State) : State :=
  if s.abortable cause then
    let s := sendAbort cause s
    let s := if reported || cause == 0x3A08 then s else raiseAs cause false .link true 0 s
    takeAbort cause charged die s
  else s

/-- Squall for a cause reported by the caller; in a ring it starts the common abort with 0x3A04. -/
def enterSquall (charged : Option (BitVec 32)) (die : Option Nat) (s : State) : State :=
  if s.dawn.phase == .eclipse then s
  else if s.inRing && (s.job.phase == .running || s.job.phase == .draining) && !s.aborted then
    startAbort 0x3A04 false charged die s
  else beginSquall 2 charged die s.inRing s

/-- A cold Dawn begins at S (R370): every register of the module returns to its reset value, and what the flash, the
weight store, the host's memory, Stratus and the latches hold stays. -/
def coldReset (s : State) : State :=
  { s with
    tick := {}, job := {}, compute := {}, tier := {}, media := {}, link := {},
    mem := { store := s.mem.store, host := s.mem.host },
    host := { perstN := s.host.perstN, retryFrom := some s.now },
    dawn := { phase := .cold, due := true, overruns := s.dawn.overruns, ga := s.dawn.ga },
    integrity := {},
    nimbus := { valveLatch := s.nimbus.valveLatch, plausLatch := s.nimbus.plausLatch,
                readings := s.nimbus.readings },
    sideband := {} }

/-- Level 3 (R397, R413): Stratus forces a module reset and a warm Dawn follows if a job was running and the previous
Dawn had passed, else a cold one (R370). Its ports drop (R337), and the I3C dynamic addresses are lost (R454). -/
def forceModuleReset (s : State) : State :=
  if s.dawn.phase == .eclipse then s else
    let warm := s.dawn.phase == .passed && (s.job.phase == .running || s.job.phase == .draining || s.job.phase == .squall)
    let s := countKind 10 (assertFault s)
    if warm then
      let s := beginSquall 3 none none s.inRing s
      { s with
        dawn := { s.dawn with phase := .warm, due := true },
        link := { s.link with ports := s.link.ports.map (·.withPhase .down) },
        sideband := { s.sideband with dynManagement := none, dynStratus := none } }
    else coldReset s

/-- A command is killed at run time with a code, and the tick enters Squall. -/
def commandFault (code arg : Nat) (core : Nat) (s : State) : State :=
  enterSquall (some (unitOf 1 core)) none (raiseAs code false .compute true arg s)

/-- ARG of an event about a command: CMD_INDEX, and the core above it (Table 13.13). -/
def cmdArg (core index : Nat) : Nat := index + core * 0x100000000

/-! ### Whether a ring forms (R322) -/

/-- Whether the ring forms or re-forms now: in a Dawn, in IDLE, or during a ring Squall (R322). MAINTENANCE, which R322 does
not name, counts as IDLE (DESIGN CHOICE, log 32). -/
def forming (s : State) : Bool := s.inDawn || s.job.phase == .idle || s.job.phase == .maintenance
  || (s.job.phase == .squall && s.inRing)

/-- Formation fails with a code; it begins anew when a port comes up. -/
def formFails (code : Nat) (s : State) : State :=
  raiseAs code false .link false 0 { s with link := { s.link with formed := false, probes := [], formBy := none } }

/-- A ring that has not formed 500 ms after its last port came up is not closed: 0x3205 (R322). No row of the table is that
instant: IDLE_FLIT, PORT_TRAINING_TIMEOUT and JOB_START find it (DESIGN CHOICE, log 32). -/
def formationDue (s : State) : State := match s.link.formBy with
  | some t => if t ≤ s.now && !s.link.formed && forming s then formFails 0x3205 s else s
  | none => s

end Sys2Proof.Machine
end

