-- ==== Sys2Proof/Machine/Tiers.lean ====
section
/-! DEFINITION. The memory tiers: segments and their blocks (R266 to R270), requests, fills and eviction (R274, R279
to R283), the path decision (R284) and the regulators (R259 to R262). -/

namespace Sys2Proof.Machine

/-! ### Stored blocks (R268 to R270) -/

/-- Code length of symbol s in a LENGTHS field. -/
def codeLen (lengths sym : Nat) : Nat := bits lengths (4 * sym) 4

/-- The canonical code: (symbol, length, code) in assignment order (R269). -/
def canonicalCode (lengths : Nat) : List (Nat × Nat × Nat) :=
  ((List.range 15).foldl (fun (acc : Nat × List (Nat × Nat × Nat)) i =>
    let n := i + 1
    let step := (List.range 16).foldl (fun (a : Nat × List (Nat × Nat × Nat)) sym =>
      if codeLen lengths sym == n then (a.1 + 1, a.2 ++ [(sym, n, a.1)]) else a) acc
    (2 * step.1, step.2)) (0, [])).2

/-- Whether a set of code lengths is valid (R270). -/
def codeValid (lengths : Nat) : Bool :=
  let ls := ((List.range 16).map (codeLen lengths)).filter (· != 0)
  match ls with
  | [] => false
  | [n] => n == 1
  | _ => (ls.map fun n => 2 ^ (15 - n)).foldl (· + ·) 0 == 2 ^ 15

/-- Bit p of a payload (R269). -/
def payloadBit (b : Bytes) (p : Nat) : Nat := (byteAt b (p / 8) / 2 ^ (p % 8)) % 2

/-- One symbol decoded from bit p on: the symbol and the next bit; none when decoding fails (R269). -/
def decodeSymbol (code : List (Nat × Nat × Nat)) (b : Bytes) : Nat → Nat → Nat → Nat → Option (Nat × Nat)
  | 0, _, _, _ => none
  | fuel + 1, p, v, n =>
    if 8 * b.length ≤ p || n == 15 then none
    else
      let v := 2 * v + payloadBit b p
      match code.find? fun c => c.2.1 == n + 1 && c.2.2 == v with
      | some c => some (c.1, p + 1)
      | none => decodeSymbol code b fuel (p + 1) v (n + 1)

/-- n symbols decoded from bit p on. -/
def decodeSymbols (code : List (Nat × Nat × Nat)) (b : Bytes) : Nat → Nat → Option (List Nat × Nat)
  | 0, p => some ([], p)
  | n + 1, p => match decodeSymbol code b 16 p 0 0 with
    | none => none
    | some (sym, p') => match decodeSymbols code b n p' with
      | none => none
      | some (rest, q) => some (sym :: rest, q)

/-- Pairs of 4-bit symbols as bytes (R269). -/
def pairBytes : List Nat → Bytes
  | a :: b :: rest => BitVec.ofNat 8 (a + 16 * b) :: pairBytes rest
  | _ => []

/-- The 4,096 bytes of a stored block; none when the block fails (R268 to R270). -/
def decodeBlock (b : Bytes) : Option Bytes :=
  let kind := byteAt b 0
  let plen := le b 2 2
  let lengths := le b 8 8
  let payload := (b.drop 16).take plen
  let checked := fun (d : Bytes) => if crc32c d == le b 4 4 then some d else none
  if byteAt b 1 != 0 || plen == 0 || 4096 < plen || payload.length != plen then none
  else if kind == 0 then
    if plen == 4096 && lengths == 0 then checked payload else none
  else if kind == 1 && codeValid lengths then
    match decodeSymbols (canonicalCode lengths) payload 8192 0 with
    | none => none
    | some (syms, p) =>
      if 8 ≤ 8 * plen - p || ((List.range (8 * plen - p)).any fun i => payloadBit payload (p + i) != 0) then none
      else checked (pairBytes syms)
  else none

/-- What reading a segment gives. -/
inductive SegmentResult where
  /-- The 1 MiB of logical data. -/
  | data (b : Bytes)
  /-- The segment's header fails (0x2905). -/
  | segmentFault
  /-- A block fails (0x2904). -/
  | blockFault
deriving DecidableEq, Repr

/-- The logical bytes of a segment stored for a directory entry (R267, R270); bytes beyond BLOCKS × 4,096 are zero. -/
def decodeSegment (entry : Nat) (seg : Bytes) : SegmentResult :=
  let n := le seg 4 2
  let offs := (List.range n).map fun i => le seg (16 + 4 * i) 4
  let rising := (List.range n).all fun i =>
    offs.getD i 0 % 16 == 0 && 1040 ≤ offs.getD i 0 && (i == 0 || offs.getD (i - 1) 0 < offs.getD i 0)
  let rest := (List.range 256).all fun i => i < n || le seg (16 + 4 * i) 4 == 0
  if le seg 0 4 != entry || n == 0 || 256 < n || !zeroBytes seg 6 2 || !zeroBytes seg 12 4 || !rising || !rest
      || le seg 8 4 != crc32c (slice seg 0 8 ++ slice seg 16 (4 * n)) then .segmentFault
  else
    let blocks := offs.map fun o => decodeBlock (seg.drop o)
    if blocks.all (·.isSome) then .data ((blocks.flatMap fun b => b.getD []) ++ zeros ((256 - n) * 4096))
    else .blockFault

/-! ### Requests and the fill queue (R279 to R283) -/

/-- Whether an entry may be enqueued: absent, or failed and named again (R281). -/
def fillable (s : State) (entry : Nat) : Bool := match s.dirEntry entry with
  | some e => e.status == .absent || e.status == .failed
  | none => false

/-- An entry joins the fill queue; the earliest deadline that names it sets its place (R281). -/
def enqueueEntry (deadline cmdIndex entry : Nat) (s : State) : State :=
  let q := s.tier.queue
  match q.find? (·.entry == entry) with
  | some i =>
    if deadline < i.deadline || (deadline == i.deadline && cmdIndex < i.cmdIndex) then
      { s with tier := { s.tier with queue := (q.filter (·.entry != entry)) ++ [⟨deadline, cmdIndex, entry⟩] } }
    else s
  | none =>
    if fillable s entry then { s with tier := { s.tier with queue := q ++ [⟨deadline, cmdIndex, entry⟩] } } else s

/-- RATE in force of the Tier partition on the pool's die, in GB/s (R262, R282). -/
def tierShare (s : State) : Nat :=
  if s.inJob then
    let die := if s.dawn.layout.poolBase < 0x1800000000 then 0 else 1
    (s.tier.rates.getD (6 + die) (0, 0, 0)).2.2
  else 1000

/-- Whether the estimator uses the maximum times of a source: fewer than 1,024 of its fill times are known, or the watch
period is in force (R283, R419). -/
def timesUnknown (s : State) (times : List Nat) : Bool := times.length < 1024 || s.integrity.watch

/-- TIR_STATUS.EST_NEW: the estimator uses the maximum times for a source (R283). -/
def estimatorNew (s : State) : Bool := timesUnknown s s.tier.storeTimes || timesUnknown s s.tier.windowTimes

/-- The fills of a queue from one source. -/
def fillsFrom (s : State) (window : Bool) (q : List FillItem) : List DirEntry :=
  (q.filterMap fun i => s.dirEntry i.entry).filter (·.fromWindow == window)

/-- The estimate for the fills of one source, in ns: from its latest 1,024 fill times, or the maximum of Table 10.12. -/
def sourceEstimate (s : State) (window : Bool) (q : List FillItem) : Nat :=
  let es := fillsFrom s window q
  let times := if window then s.tier.windowTimes else s.tier.storeTimes
  let stored := es.foldl (fun n e => n + e.segLen * 256) 0
  let decoded := es.length * 1048576
  if es.isEmpty then 0
  else if timesUnknown s times then
    let read := if window then ceilDiv (stored * 1000) (max 1 (Config.windowShare (planId s.plan) s.host.mbps))
      else ceilDiv stored 32
    5000 + (if window then 20000 else 120000)
      + max read (max (ceilDiv decoded 64) (ceilDiv decoded (max 1 (tierShare s)))) + 4000
  else Config.fillEstimate times stored es.length

/-- The fill estimate at enqueue (R283): 0x2902 when the last of the request's entries that are still to be filled, with
all that the queue fills before it, is estimated to be resident after the deadline. -/
def estimateFill (r : TierRequest) (s : State) : State :=
  let mine := s.tier.queue.filter fun i => r.entries.contains i.entry
  let q := s.tier.queue.filter fun i => mine.any fun m => !m.before i
  let est := sourceEstimate s false q + sourceEstimate s true q
  let deadline := if s.tick.placed then s.tick.boundary + (r.due - s.tick.index) * s.tick.tp
    else s.tick.start.getD s.now + (r.due - s.job.first) * s.tick.tp
  if !mine.isEmpty && deadline < s.now + ns est then raise 0x2902 r.cmdIndex s else s

/-- A committed request (R279, R280): pending until due, its entries held and enqueued, its fill estimated. -/
def addRequest (r : TierRequest) (s : State) : State :=
  let s := { s with tier := { s.tier with requests := s.tier.requests ++ [r] } }
  if r.missed then s
  else estimateFill r (r.entries.foldl (fun s e => enqueueEntry r.due r.cmdIndex e s) s)

/-- The head of the fill queue. -/
def queueHead (s : State) : Option FillItem :=
  s.tier.queue.foldl (fun best i => match best with
    | some b => if i.before b then some i else some b
    | none => some i) none

/-- Whether an entry is held: a pending request names it, or a hold has not run out (R274). -/
def isHeld (s : State) (entry : Nat) : Bool :=
  s.tier.requests.any (fun r => r.entries.contains entry)
    || s.tier.holds.any fun h => h.1 == entry && s.tick.index ≤ h.2

/-- Frames that an entry occupies. -/
def usedFrames (s : State) : List Nat :=
  s.tier.entries.filterMap fun p => if p.2.status == .resident || p.2.status == .filling then some p.2.frame else none

/-- A frame for a fill: the lowest free one, else that of the evictable entry with the smallest LAST_USE, on a tie
the lowest index (R274); with the entry evicted, if any. -/
def takeFrame (s : State) : Option (Nat × Option Nat) :=
  let used := usedFrames s
  match (List.range (used.length + 1)).find? fun f => f < s.tier.frames && !used.contains f with
  | some f => some (f, none)
  | none =>
    let cand := s.tier.entries.filter fun p =>
      p.2.status == .resident && !p.2.pinned && !isHeld s p.1
        && p.2.lastUse < (if s.inJob then s.tick.index % 4294967296 else 4294967296)
    (cand.foldl (fun (best : Option (Nat × DirEntry)) p => match best with
      | none => some p
      | some b => if p.2.lastUse < b.2.lastUse || (p.2.lastUse == b.2.lastUse && p.1 < b.1) then some p else some b)
      none).map fun p => (p.2.frame, some p.1)

/-- STATE of an entry set. -/
def setStatus (entry : Nat) (st : Residency) (s : State) : State := match s.dirEntry entry with
  | some e => s.setEntry entry { e with status := st }
  | none => s

/-- FILL_START: the head of the queue takes a frame and starts its read (R281); 0x2906 once per tick when no frame can
be taken. -/
def beginFill (s : State) : State :=
  if s.tier.fill.isSome || s.tier.inReset then s else
    match queueHead s with
    | none => s
    | some i => match takeFrame s with
      | none =>
        if s.tier.starved == some s.tick.index then s
        else raise 0x2906 i.entry { s with tier := { s.tier with starved := some s.tick.index } }
      | some (f, evicted) =>
        let s := match evicted with | some e => setStatus e .absent s | none => s
        match s.dirEntry i.entry with
        | none => s
        | some e =>
          let s := s.setEntry i.entry { e with status := .filling, frame := f }
          { s with tier := { s.tier with fill := some ⟨i.entry, f, 0, s.now⟩ } }

/-- The host address that a window offset reads, if its page is valid (R265). -/
def windowPage (s : State) (off : Nat) : Option Nat :=
  (s.tier.window.find? (·.1 == off / 0x200000)).map fun p => p.2 + off % 0x200000

/-- Whether every page that a span of the window touches is valid (R265). -/
def windowOk (s : State) (off n : Nat) : Bool :=
  (List.range ((off + n - 1) / 0x200000 + 1 - off / 0x200000)).all fun i =>
    (windowPage s ((off / 0x200000 + i) * 0x200000)).isSome

/-- The channel of the weight store in which a segment starts (R264). -/
def storeChannel (src : Nat) : Nat := src * 4096 / 16384 % 16

/-- A fill that failed twice: STATE failed, its report, the frame freed. A weight-store failure is a counted error of
the channel that holds the segment, one of the host window is not counted (R281, R416, R466). -/
def failFill (f : Fill) (e : DirEntry) (code : Nat) (s : State) : State :=
  let s := setStatus f.entry .failed s
  let s := { s with tier := { s.tier with fill := none, queue := s.tier.queue.filter (·.entry != f.entry) } }
  if e.fromWindow then raiseAs code true .tier false f.entry s
  else countError code .tier false (unitOf 8 (storeChannel e.src)) (BitVec.ofNat 32 e.src) f.entry s

/-- LAST_USE of entries set to the current tick (R274). -/
def touchEntries (entries : List Nat) (s : State) : State :=
  entries.foldl (fun s i => match s.dirEntry i with
    | some e => s.setEntry i { e with lastUse := s.tick.index % 4294967296 }
    | none => s) s

/-! ### The path decision (R284) -/

/-- Requests due at the boundary of tick m, in ascending CMD_INDEX; those that a recovery skipped fall due too (R287). -/
def dueRequests (s : State) (m : Nat) : List TierRequest :=
  sortBy (fun a b => decide (a.cmdIndex ≤ b.cmdIndex)) (s.tier.requests.filter (·.due ≤ m))

/-- ARG of 0x2901: the first missing entry, ALT_LIST above it and CMD_INDEX above that. -/
def missArg (r : TierRequest) (entry : Nat) : Nat := entry + r.alt * 2 ^ 20 + r.cmdIndex * 2 ^ 32

/-- Whether an entry became resident at or before the newest boundary (R284, R288). -/
def residentInTime (s : State) (i : Nat) : Bool := match s.dirEntry i with
  | some e => e.status == .resident && e.since ≤ s.tick.boundary
  | none => false

/-- The first entry by which a request misses at the newest boundary, if any. -/
def missingEntry (s : State) (r : TierRequest) : Option Nat :=
  if r.missed then some (r.entries.headD 0) else r.entries.find? fun e => !residentInTime s e

/-- The cheaper-path decision at T(m) (R284): the path, and 0x2901 for every request that missed. The entries named
take LAST_USE m and are held to m + HOLD (R274). -/
def decidePath (m : Nat) (s : State) : State :=
  let due := dueRequests s m
  let s := { s with tier := { s.tier with
      requests := s.tier.requests.filter fun r => !(r.due ≤ m), missed := 0, path := 0,
      judged := (s.tier.judged.filter fun r => m ≤ r.due + 1) ++ due.map fun r => { r with due := m } } }
  let s := due.foldl (fun s r =>
    let missing := missingEntry s r
    let s := touchEntries r.entries s
    let s := { s with tier := { s.tier with holds := s.tier.holds ++ r.entries.map fun e => (e, m + r.hold) } }
    match missing with
    | none => s
    | some e =>
      raise 0x2901 (missArg r e) { s with tier := { s.tier with
        missed := s.tier.missed + 1, path := max s.tier.path r.alt } }) s
  { s with
    job := { s.job with path := s.tier.path },
    tier := { s.tier with
      holds := s.tier.holds.filter fun h => m ≤ h.2,
      cheapTicks := s.tier.cheapTicks + (if s.tier.path == 0 then 0 else 1) } }

/-- A fill that becomes resident exactly at T(m) counts for T(m) (R288), also where its command stands behind that of the
boundary: while no command of the tick has issued, the path is chosen anew from the requests judged there. A 0x2901 that was
reported stands (log 45). -/
def redecide (s : State) : State :=
  let k := s.tick.index
  if (s.job.phase == .running || s.job.phase == .draining) && s.now == s.tick.boundary && s.compute.runs.isEmpty
      && s.compute.issued.all (· == 0) then
    let missed := (s.tier.judged.filter (·.due == k)).filter fun r => (missingEntry s r).isSome
    let path := missed.foldl (fun p r => max p r.alt) 0
    if path == s.tier.path then { s with tier := { s.tier with missed := missed.length } }
    else
      fetchLists { s with
        job := { s.job with path := path },
        tier := { s.tier with
          missed := missed.length, path := path,
          cheapTicks := s.tier.cheapTicks - (if path == 0 then 1 else 0) } }
  else s

/-! ### The end of a fill (R281) -/

/-- The code with which a fill fails: 0x2908 where the window's page is invalid or its read ends in a PCIe error, else 0x2905
for the segment's header and 0x2904 for a block or for a read of the weight store that fails (R281, Table 10.23; log 44: R281
gives that last read no code of its own). -/
def fillCode (windowFault : Bool) (r : SegmentResult) : Nat :=
  if windowFault then 0x2908 else if r == .segmentFault then 0x2905 else 0x2904

/-- Where a decoded block goes: the frame of the pool. -/
def frameAddr (s : State) (frame : Nat) : Nat := s.dawn.layout.poolBase + frame * 1048576

/-- FILL_COMPLETE: the segment read is checked and decoded; the entry becomes resident, or is retried once, or fails
(R281). `ok` is false for a read that fails; `host` is what the window returned. -/
def endFill (ok : Bool) (host : Bytes) (s : State) : State :=
  match s.tier.fill with
  | none => s
  | some f => match s.dirEntry f.entry with
    | none => s
    | some e =>
      let n := e.segLen * 256
      let seg := if e.fromWindow then host else s.readMem .store (e.src * 4096) n
      let good := ok && (!e.fromWindow || windowOk s (e.src * 4096) n)
      let result := if good then decodeSegment f.entry seg else .blockFault
      match result with
      | .data b =>
        let a := frameAddr s f.frame
        let s := chargeHbm 3 a 1048576 (s.writeMem .hbm a b)
        let s := s.setEntry f.entry { e with status := .resident, frame := f.frame, since := s.now }
        let took := toNs (s.now - f.start)
        redecide { s with tier := { s.tier with
            fill := none, queue := s.tier.queue.filter (·.entry != f.entry), filled := s.tier.filled + 1,
            storeTimes := if e.fromWindow then s.tier.storeTimes else (took :: s.tier.storeTimes).take 1024,
            windowTimes := if e.fromWindow then (took :: s.tier.windowTimes).take 1024 else s.tier.windowTimes } }
      | r =>
        if f.tries == 0 then { s with tier := { s.tier with fill := some { f with tries := 1, start := s.now } } }
        else failFill f e (fillCode (e.fromWindow && !good) r) s

/-- A recovery with shift d moves the deadline of every pending request (R287); holds already run to their own ticks
(R274). -/
def shiftRequests (d : Nat) (s : State) : State :=
  { s with tier := { s.tier with
      requests := s.tier.requests.map fun r => { r with due := r.due + d }, judged := [],
      queue := s.tier.queue.map fun i => { i with deadline := i.deadline + d } } }

/-- The Tier partition resets: the fill in progress is abandoned and its entry becomes absent (Table 10.13). -/
def resetTier (s : State) : State :=
  let s := match s.tier.fill with | some f => setStatus f.entry .absent s | none => s
  fillPartition 3 { s with tier := { s.tier with fill := none, inReset := true } }

/-- The meaning of FILL_START (R281). -/
def execFillStart (t : Nat) (s : State) : Host.Outcome State Fault Refusal := .next (beginFill (s.arrive t))

/-- The meaning of FILL_COMPLETE (R281). -/
def execFillComplete (t : Nat) (ok : Bool) (host : Bytes) (s : State) : Host.Outcome State Fault Refusal :=
  .next (endFill ok host (s.arrive t))

end Sys2Proof.Machine
end

