-- ==== Sys2Proof/Machine/Motion.lean ====
section
/-! DEFINITION. Motion search of the encoders: hints, candidates, costs and refinement (R301, R302), and the motion field
that a coded frame leaves for the next (R304). -/

namespace Sys2Proof.Machine

/-- A vector in 1/8 luma sample. -/
abbrev Vec := Int × Int

/-- A block: x, y, width and height in luma samples. -/
abbrev Block := Nat × Nat × Nat × Nat

/-- A luma plane. -/
structure Luma where
  w       : Nat
  h       : Nat
  samples : Array Nat

/-- The sample at a place; beyond the edge that of the nearest place inside. -/
def Luma.at (p : Luma) (x y : Int) : Int :=
  (p.samples.getD ((clampInt 0 (p.h - 1 : Int) y).toNat * p.w + (clampInt 0 (p.w - 1 : Int) x).toNat) 0 : Nat)

/-- The sample at a place given in 1/8 sample: interpolated between samples by the format's filter. -/
def Luma.sub (format : Nat) (p : Luma) (x y : Int) : Int :=
  if x % 8 == 0 && y % 8 == 0 then p.at (x / 8) (y / 8) else (Config.interpolate format p.samples.toList p.w p.h x y : Nat)

/-! ### Cost (R302) -/

/-- Bits set in a number below 8. -/
def parity3 (n : Nat) : Nat := (n % 2 + n / 2 % 2 + n / 4 % 2) % 2

/-- The sum of the magnitudes of the 8 × 8 Hadamard transform of differences. -/
def hadamard8 (d : Nat → Nat → Int) : Nat :=
  (List.range 64).foldl (fun n uv =>
    n + ((List.range 64).foldl (fun (a : Int) xy =>
      let v := d (xy % 8) (xy / 8)
      if (parity3 (uv % 8 &&& xy % 8) + parity3 (uv / 8 &&& xy / 8)) % 2 == 0 then a + v else a - v) 0).natAbs) 0

/-- SATD of a block predicted with a vector. -/
def satd (format : Nat) (cur ref : Luma) (b : Block) (v : Vec) : Nat :=
  let (x, y, w, h) := b
  (List.range (w / 8 * (h / 8))).foldl (fun n k =>
    let x0 := x + 8 * (k % (w / 8))
    let y0 := y + 8 * (k / (w / 8))
    n + hadamard8 fun i j =>
      cur.at (x0 + i : Nat) (y0 + j : Nat) - ref.sub format (8 * (x0 + i : Nat) + v.1) (8 * (y0 + j : Nat) + v.2)) 0

/-- λ = 2^((q - 12)/6) in FP32. q is the QP with which the block's row is coded (log 46). -/
def lambda (qp : Nat) : Word := exp2 (div32 (int32w ((qp : Int) - 12)) (int32w 6))

/-- J = SATD + λ × R_mv, in FP32. -/
def cost (format qp : Nat) (cur ref : Luma) (near : List Vec) (b : Block) (v : Vec) : Word :=
  add32 (ofInt32 (satd format cur ref b v : Nat)) (mul32 (lambda qp) (ofInt32 (Config.vectorBits format near v : Nat)))

/-- The first of a list of vectors with the lowest cost. -/
def lowest (j : Vec → Word) : List Vec → Option Vec
  | [] => none
  | v :: vs => some (vs.foldl (fun (best : Vec × Word) u => let c := j u; if lt32 c best.2 then (u, c) else best) (v, j v)).1

/-! ### Candidates (R301, R302, Table 11.6) -/

/-- A vector with which the reference block extends at most 64 luma samples beyond the picture. -/
def clampVec (w h : Nat) (b : Block) (v : Vec) : Vec :=
  let (x, y, bw, bh) := b
  (clampInt (-8 * (64 + x : Nat)) (8 * ((w : Int) + 64 - (x + bw : Nat))) v.1,
   clampInt (-8 * (64 + y : Nat)) (8 * ((h : Int) + 64 - (y + bh : Nat))) v.2)

/-- The tile column of a luma column: one for each engine, uniform in superblocks as each format divides them. -/
def tileOf (e : Bytes) (x : Nat) : Nat :=
  let cols := (meBlocks e).1
  let n := max 1 ((List.range 6).filter fun i => (meEngines e).testBit i).length
  let sb := x / 64
  if meFormat e == 0 then sb / max 1 (ceilDiv cols n) else ((List.range n).filter fun i => (i + 1) * cols / n ≤ sb).length

/-- The final vector, for a reference, of the coded block that covers a place of the same tile. -/
def neighbour (e : Bytes) (done : List (Block × List Vec)) (r tile : Nat) (x y : Int) : Option Vec :=
  if x < 0 || y < 0 || tileOf e x.toNat != tile then none
  else match done.find? fun d => decide ((d.1.1 : Int) ≤ x ∧ x < (d.1.1 + d.1.2.2.1 : Nat)
      ∧ (d.1.2.1 : Int) ≤ y ∧ y < (d.1.2.1 + d.1.2.2.2 : Nat)) with
    | some d => d.2[r]?
    | none => none

/-- a × b / c rounded to nearest, ties away from zero. -/
def scaleAway (a : Int) (b c : Nat) : Int :=
  let m := (2 * a.natAbs * b + c) / (2 * max 1 c)
  if a < 0 then -(m : Int) else m

/-- The 16 × 16 blocks in a row of a motion field. -/
def fieldWidth (e : Bytes) : Nat := ceilDiv (meWidth e) 16

/-- The vector and its frame distance in a motion field at a luma place: 8 bytes for each 16 × 16 block, the two parts and the
distance; distance 0 is no vector (log 46: R304 gives the field's size alone). -/
def fieldAt (e : Bytes) (field : Bytes) (x y : Nat) : Option (Vec × Nat) :=
  if meWidth e ≤ x || meHeight e ≤ y then none
  else
    let o := 8 * (y / 16 * fieldWidth e + x / 16)
    let d := le field (o + 4) 2
    if d == 0 then none else some ((signed 16 (le field o 2), signed 16 (le field (o + 2) 2)), d)

/-- A hint as a vector; 0x8000_8000 is absent. -/
def hintVec (code : Nat) : Option Vec :=
  if code % 4294967296 == 0x80008000 then none
  else some (2 * signed 16 (bits code 0 16), 2 * signed 16 (bits code 16 16))

/-- What the search of one frame reads. -/
structure SearchInput where
  entry  : Bytes
  cur    : Luma
  /-- Lumas of the references, newest first. -/
  refs   : List Luma
  /-- The motion field of reference 0. -/
  field  : Bytes
  /-- The codes of the hint set, hint fastest, then x, then y; empty for none. -/
  hints  : Array Nat

/-- The candidates of a block for reference r in index order: absent where unavailable. -/
def candidates (i : SearchInput) (done : List (Block × List Vec)) (r : Nat) (b : Block) : List (Option Vec) :=
  let (x, y, w, h) := b
  let tile := tileOf i.entry x
  let n := neighbour i.entry done r tile
  let co := fun (px py : Nat) => (fieldAt i.entry i.field px py).map fun f =>
    ((scaleAway f.1.1 (r + 1) f.2, scaleAway f.1.2 (r + 1) f.2) : Vec)
  let hint := fun k => if r != 0 || i.hints.isEmpty then none
    else hintVec (i.hints.getD (k + 4 * (x / 16 + fieldWidth i.entry * (y / 16))) 0x80008000)
  [some (0, 0), n (x - 1 : Int) y, n x (y - 1 : Int), n (x + w : Nat) (y - 1 : Int), n (x - 1 : Int) (y - 1 : Int),
   co x y, co (x + w) y, co x (y + h), hint 0, hint 1, hint 2, hint 3]

/-- The final vectors of the neighbours, from which the standard predicts a vector. -/
def nearVecs (i : SearchInput) (done : List (Block × List Vec)) (r : Nat) (b : Block) : List Vec :=
  ((candidates i done r b).drop 1 |>.take 4).filterMap id

/-! ### Search (R302) -/

/-- Integer positions within ±8 luma samples of a vector in raster order; a vector between samples counts from the nearest,
ties away from zero (log 46). -/
def integerPlaces (v : Vec) : List Vec :=
  let cx := scaleAway v.1 1 8
  let cy := scaleAway v.2 1 8
  (List.range 289).map fun k => (8 * (cx + (k % 17 : Nat) - 8), 8 * (cy + (k / 17 : Nat) - 8))

/-- A vector and its 8 neighbours at a step, in raster order behind it: the vector stays unless a neighbour costs less. -/
def stepPlaces (step : Int) (v : Vec) : List Vec :=
  v :: ((List.range 9).filter (· != 4)).map fun k =>
    (v.1 + step * ((k % 3 : Nat) - 1 : Int), v.2 + step * ((k / 3 : Nat) - 1 : Int))

/-- The steps of fractional refinement: 1/2, 1/4, and for AV1 with base_q_idx below 128 1/8 (Table 11.3). -/
def fractionSteps (e : Bytes) (qp : Nat) : List Int :=
  if meFormat e == 0 && meQuantiser e qp < 128 then [4, 2, 1] else [4, 2]

/-- The final vector of a block for reference r. -/
def searchBlock (i : SearchInput) (qp : Nat) (done : List (Block × List Vec)) (r : Nat) (b : Block) : Vec :=
  match i.refs[r]? with
  | none => (0, 0)
  | some ref =>
    let j := cost (meFormat i.entry) qp i.cur ref (nearVecs i done r b) b
    let lim := clampVec i.cur.w i.cur.h b
    let start := (lowest j (((candidates i done r b).filterMap id).map lim).eraseDups).getD (0, 0)
    let whole := (lowest j ((integerPlaces start).map lim)).getD start
    (fractionSteps i.entry qp).foldl (fun v st => (lowest j ((stepPlaces st v).map lim)).getD v) whole

/-- The blocks of a row with their final vectors for every reference, behind those done before. -/
def searchRow (i : SearchInput) (qp : Nat) (done : List (Block × List Vec)) (blocks : List Block) :
    List (Block × List Vec) :=
  blocks.foldl (fun d b => d ++ [(b, (List.range i.refs.length).map fun r => searchBlock i qp d r b)]) done

/-- The motion field of a coded frame: for each 16 × 16 block the vector of the block that covers its corner, for the
reference that the coded row predicts it from. -/
def motionField (e : Bytes) (done : List (Block × List Vec)) (rows : List Bytes) : Bytes :=
  (List.range (fieldWidth e * ceilDiv (meHeight e) 16)).flatMap fun k =>
    let x := 16 * (k % fieldWidth e)
    let y := 16 * (k / fieldWidth e)
    match done.find? fun d => d.1.1 ≤ x && x < d.1.1 + d.1.2.2.1 && d.1.2.1 ≤ y && y < d.1.2.1 + d.1.2.2.2 with
    | none => zeros 8
    | some d => match Config.rowReference (rows.getD (y / 64) []) d.1 with
      | none => zeros 8
      | some r =>
        let v := d.2.getD r (0, 0)
        toLe 2 (unsignedOf 16 v.1) ++ toLe 2 (unsignedOf 16 v.2) ++ toLe 2 (r + 1) ++ zeros 2

end Sys2Proof.Machine
end

