-- ==== Sys2Proof/Machine/Media.lean ====
section
/-! DEFINITION. The Media partition: the rate controller (R298, R299), encodes and decodes with their frame buffers
(R296, R297, R300, R305 to R309), and the Media reset. -/

namespace Sys2Proof.Machine

/-! ### Rate control (R298, R299) -/

/-- What frame_plan gives. -/
structure FramePlan where
  t   : Nat
  cap : Nat
  q0  : Nat
deriving DecidableEq, Repr

/-- floor(6 × log2(b / t) + 0.5) in FP32 with LOG2 of R159 (R298). -/
def qpShift (b t : Nat) : Int :=
  floorInt (add32 (mul32 (int32w 6) (log2w (div32 (ofInt32 b) (ofInt32 t)))) (0x3F000000#32))

/-- frame_plan of R298. Where b / t has no logarithm that floor turns into an integer (t not above 0, or b = 0), the
change of q is the value given (log 7). -/
def framePlan (e : Bytes) (tp : Time) (x : Stream) (key : Bool) (unstated : Int) : FramePlan :=
  let c : Int := drainBits e tp
  let bs : Int := bufferBits e
  let f := x.fullness
  let cap := bs - f + c
  let t := c + (bs / 2 - f) / 8
  let t1 := if key then 4 * t else t
  let q0 : Int := if key then (meQpInit e : Int) else if x.prevKey then (x.lastQp : Int) + 4
    else (x.lastQp : Int) + (if 0 < t && 0 < x.lastBits then qpShift x.lastBits t.toNat else unstated)
  let t2 := min (max t1 (c / 4)) (cap / 2)
  ⟨t2.toNat, cap.toNat, (min (max q0 (meQpMin e)) (meQpMax e)).toNat⟩

/-- RATE_CONTROL_ROW: the QP of the next row after row r of R rows with s bits so far (R298). -/
def nextRowQp (e : Bytes) (p : FramePlan) (rows r s q : Nat) : Nat :=
  let q' : Int := if 5 * p.t * (r + 1) < 4 * s * rows then (q : Int) + 1
    else if 4 * s * rows < 3 * p.t * (r + 1) then (q : Int) - 1 else q
  (clampInt (max ((p.q0 : Int) - 6) (meQpMin e)) (min ((p.q0 : Int) + 6) (meQpMax e)) q').toNat

/-- Whether s bits up to row r break the reserve of 64 bits for each remaining superblock and 4,096 bits of headers (R299). -/
def reserveBroken (e : Bytes) (cap r s : Nat) : Bool :=
  let n := meBlocks e
  cap < s + 64 * (n.1 * (n.2 - (r + 1))) + 4096

/-! ### Streams and buffers -/

/-- Stream of a media entry. -/
def State.stream (s : State) (n : Nat) : Stream := s.media.streams.getD n {}

/-- The state with the stream of a media entry replaced. -/
def State.setStream (s : State) (n : Nat) (x : Stream) : State :=
  { s with media := { s.media with streams := s.media.streams.set n x } }

/-- FREE (R305). -/
def FrameBuffer.isFree (b : FrameBuffer) : Bool := !b.current && !b.ref && !b.held

/-- b buffers allocated CURRENT to a stream; when its budget of R304 is used up, its oldest REF buffers that are not HELD are
released first (log 7). -/
def allocate (n count : Nat) (s : State) : State :=
  let budget := meBudget (mediaEntry s n)
  let used := fun (bs : List FrameBuffer) => (bs.filter fun b => !b.isFree && b.stream == n).length
  let release := fun (bs : List FrameBuffer) =>
    match (bs.filter fun b => b.ref && !b.held && b.stream == n).foldl (fun (o : Option Nat) b =>
        some (match o with | some a => min a b.age | none => b.age)) none with
    | some age => bs.map fun b => if b.stream == n && b.ref && !b.held && b.age == age then {} else b
    | none => bs
  let bs := (List.range 32).foldl (fun bs _ => if budget < used bs + count then release bs else bs) s.media.buffers
  let bs := (bs.foldl (fun (acc : List FrameBuffer × Nat) b =>
    if b.isFree && 0 < acc.2 then
      (acc.1 ++ [{ current := true, stream := n, age := s.tick.index }], acc.2 - 1)
    else (acc.1 ++ [b], acc.2)) ([], count)).1
  { s with media := { s.media with buffers := bs } }

/-- An encoded frame's buffers become REF, and those that REFS or a key frame no longer lets the stream refer to are
released (R293, R305). -/
def commitRefs (n refs : Nat) (key : Bool) (s : State) : State :=
  let bs := s.media.buffers
  let ages := (bs.filter fun b => b.stream == n && b.ref).map (·.age)
  let keepAge := fun a => !key && (ages.eraseDups.filter (a < ·)).length + 1 < refs
  { s with media := { s.media with buffers := bs.map fun b =>
      if b.stream == n && b.current then { b with current := false, ref := true }
      else if b.stream == n && b.ref && !keepAge b.age then {} else b } }

/-! ### Samples in HBM (R304) -/

/-- Bytes of a frame buffer: samples and motion field. -/
def bufferSize : Nat := 0x1000000
/-- Bytes of a motion field. -/
def fieldSize : Nat := 0x40000

/-- Where a buffer stands in the media region: the samples of a buffer, then its motion field (log 47). -/
def bufferAddr (s : State) (i : Nat) : Nat := s.dawn.layout.mediaBase + i * (bufferSize + fieldSize)

/-- The buffers with a property, in ascending order. -/
def buffersWhere (s : State) (p : FrameBuffer → Bool) : List Nat :=
  (List.range 32).filter fun i => match s.media.buffers[i]? with | some b => p b | none => false

/-- The samples and the motion field of a frame written into its buffers, the samples running on from one to the next; a field
stands behind the first (log 47). -/
def storeFrame (bufs : List Nat) (samples field : Bytes) (s : State) : State :=
  let s := (bufs.mapIdx fun j i => (j, i)).foldl (fun s p =>
    let part := (samples.drop (p.1 * bufferSize)).take bufferSize
    chargeHbm 1 (bufferAddr s p.2) part.length (s.writeMem .hbm (bufferAddr s p.2) part)) s
  match bufs with
  | [] => s
  | i :: _ => s.writeMem .hbm (bufferAddr s i + bufferSize) (field.take fieldSize)

/-- Bytes of a frame's three planes. -/
def frameBytes (e : Bytes) : Nat :=
  packedBytes (meFmt e) (meWidth e * meHeight e) + 2 * packedBytes (meFmt e) (meWidth e / 2 * (meHeight e / 2))

/-- Three planes as one stream of samples. -/
def packPlanes (e : Bytes) (planes : List (List Nat)) : Bytes :=
  (List.range 3).flatMap fun i => packCodes (meFmt e) (planes.getD i [])

/-- Width and height of plane i. -/
def planeSize (e : Bytes) (i : Nat) : Nat × Nat := if i == 0 then (meWidth e, meHeight e) else (meWidth e / 2, meHeight e / 2)

/-- Where plane i starts in the stream of a frame. -/
def planeStart (e : Bytes) (i : Nat) : Nat :=
  (List.range i).foldl (fun n j => n + packedBytes (meFmt e) ((planeSize e j).1 * (planeSize e j).2)) 0

/-- Plane i of a frame's stream, as codes. -/
def planeCodes (e : Bytes) (samples : Bytes) (i : Nat) : List Nat :=
  let b := samples.drop (planeStart e i)
  (List.range ((planeSize e i).1 * (planeSize e i).2)).map (packedCode (meFmt e) b)

/-- The luma plane of a frame's stream. -/
def lumaOf (e : Bytes) (samples : Bytes) : Luma := ⟨meWidth e, meHeight e, (planeCodes e samples 0).toArray⟩

/-- The reference frames of a stream, newest first, by the tick that wrote them. -/
def refAges (s : State) (n : Nat) : List Nat :=
  sortBy (fun a b => decide (b ≤ a)) ((s.media.buffers.filter fun b => b.stream == n && b.ref).map (·.age)).eraseDups

/-- The buffers of the reference frame that a tick wrote. -/
def refBuffers (s : State) (n age : Nat) : List Nat := buffersWhere s fun b => b.stream == n && b.ref && b.age == age

/-- The samples of a reference frame. -/
def refSamples (s : State) (n age : Nat) : Bytes :=
  let e := mediaEntry s n
  ((refBuffers s n age).mapIdx fun j i =>
    s.readMem .hbm (bufferAddr s i) (min bufferSize (frameBytes e - j * bufferSize))).flatten

/-- The motion field of a reference frame. -/
def refField (s : State) (n age : Nat) : Bytes := match refBuffers s n age with
  | [] => []
  | i :: _ => s.readMem .hbm (bufferAddr s i + bufferSize) fieldSize

/-! ### Encode (R293, R296 to R303) -/

/-- How Media reaches T2: no core, no slots. -/
def mediaAccess : Access := ⟨0, [], []⟩

/-- The six pixel tensors of an entry: set p, plane i (R296). -/
def pixelTensor (s : State) (n p i : Nat) : Tensor := s.tensor (mePix (mediaEntry s n) + 3 * p + i)

/-- The codes of a pixel set, plane by plane. -/
def pixelSet (s : State) (n p : Nat) : List (List Nat) := (List.range 3).map fun i => readCodes s mediaAccess (pixelTensor s n p i)

/-- The codes of hint set p; empty for an entry without hints (R301). -/
def hintSet (s : State) (n p : Nat) : List Nat :=
  let h := meHint (mediaEntry s n)
  if h == 0xFFFF then [] else readCodes s mediaAccess (s.tensor (h + p))

/-- Whether the frame is a key frame (R300): the first of the job, every KEY_INTERVAL frames by number, the first after
a resume or a Media reset, or one requested. -/
def isKeyFrame (e : Bytes) (x : Stream) (number : Nat) : Bool :=
  x.sinceKey.isNone || x.keyWanted || (meKeyInterval e != 0 && number % meKeyInterval e == 0)

/-- A frame while its rows are coded. -/
structure Coding where
  rows    : List Bytes := []
  bits    : Nat := 0
  qp      : Nat
  lastQp  : Nat
  skipped : Bool := false
  done    : List (Block × List Vec) := []

/-- Superblock row r is coded (R293, R298, R299, R302): its blocks are searched and coded with the row's QP, unless it would
break the reserve of the cap; it and every row after it are then coded as skip. -/
def codeRow (i : SearchInput) (key : Bool) (frame : List (List Nat)) (refs : List Bytes) (p : FramePlan) (st : Coding)
    (r : Nat) : Coding :=
  let e := i.entry
  let done := searchRow i st.qp st.done (Config.predictionBlocks e (key, st.qp, r) frame refs st.rows)
  let row := Config.codeRow e (key, st.qp, r) frame refs st.rows (done.drop st.done.length)
  if st.skipped || reserveBroken e p.cap r (st.bits + row.2) then
    let qp := if key then meQpMax e else st.qp
    let skip := Config.skipRow e (key, qp, r) st.rows
    { st with rows := st.rows ++ [skip.1], bits := st.bits + skip.2, lastQp := qp, skipped := true }
  else
    let s := st.bits + row.2
    { rows := st.rows ++ [row.1], bits := s, qp := nextRowQp e p (meBlocks e).2 r s st.qp, lastQp := st.qp, done := done }

/-- What stands before the coded frame in its unit (Table 11.2): the temporal delimiter of AV1, or before an IDR of HEVC the
parameter sets. -/
def unitPrefix (e : Bytes) (key : Bool) : Bytes :=
  if meFormat e == 0 then [0x12#8, 0x00#8] else if key then Config.parameterSets e (meLevelCode e) else []

/-- An access unit and what coding it leaves: a fixed function of pixels, hints, entry, controller state and references
(R303). A unit never exceeds cap bits (R299). -/
def encodeFrame (e : Bytes) (key : Bool) (p : FramePlan) (frame : List (List Nat)) (hints : List Nat) (refs : List Bytes)
    (field : Bytes) : Encoded :=
  let i : SearchInput :=
    ⟨e, ⟨meWidth e, meHeight e, (frame.headD []).toArray⟩, refs.map (lumaOf e), field, hints.toArray⟩
  let st := (List.range (meBlocks e).2).foldl (codeRow i key frame refs p) { qp := p.q0, lastQp := p.q0 }
  let unit := unitPrefix e key ++ Config.frameUnit e (meQuantiser e p.q0) (meLevelCode e) key st.rows
  { unit := unit.take (p.cap / 8), capped := st.skipped, rowQp := st.lastQp,
    samples := packPlanes e (Config.reconstruct e refs key st.rows), motion := motionField e st.done st.rows }

/-- Encoding of a frame begins in tick k, the one after that which committed its pixels into set (k - 1) mod 2 (R296, R297): the
controller plans it (R298), and what the engines will stage is settled by what they read (R303). -/
def beginEncode (n number k : Nat) (s : State) : State :=
  let e := mediaEntry s n
  let x := s.stream n
  let key := isKeyFrame e x number
  let x := if x.sinceKey.isNone || x.keyWanted then { x with fullness := (bufferBits e / 2 : Nat) } else x
  let (v, s) := s.free
  let p := framePlan e s.tick.tp x key v.toInt
  let ages := if key then [] else (refAges s n).take (meRefs e)
  let set := (k + 1) % 2
  let enc := encodeFrame e key p (pixelSet s n set) (hintSet s n set) (ages.map (refSamples s n))
    (refField s n (ages.headD 0))
  let x := { x with
    busy := some (number, k), key := key, target := p.t, cap := p.cap, q0 := p.q0, rowQp := p.q0,
    keyWanted := false, out := some enc }
  let s := [0, 1, 2].foldl (fun s j =>
    let t := pixelTensor s n set j
    chargeHbm 1 t.base t.extent s) s
  allocate n (meBuffers e) (s.setStream n x)

/-- ENCODE_START: encoding of the frame committed in the previous tick begins (R297), or waits for the one still in
progress. -/
def startEncode (n : Nat) (f : Frame) (s : State) : State :=
  let x := s.stream n
  if x.busy.isSome then s.setStream n { x with queue := x.queue ++ [(f.number, s.tick.index)] }
  else beginEncode n f.number s.tick.index s

/-- The frame whose pixels were committed with the previous tick. -/
def frameToEncode (s : State) (k : Nat) : Option Frame :=
  s.job.frames.find? fun f => f.decoded && f.accepted + planP s.plan + 1 == k

/-- Every encoder starts on the frame due at this boundary (Table 11.5). -/
def startEncodes (k : Nat) (s : State) : State :=
  if s.media.inReset then s else
    match frameToEncode s k with
    | none => s
    | some f => (encodeEntries s).foldl (fun s n => startEncode n f s) s

/-- A frame of the job, changed. -/
def State.setFrame (s : State) (number : Nat) (g : Frame → Frame) : State :=
  { s with job := { s.job with frames := s.job.frames.map fun f => if f.number == number then g f else f } }

/-- The encode that waits for its engines begins. -/
def nextEncode (n : Nat) (s : State) : State :=
  let x := s.stream n
  match x.queue with
  | [] => s
  | q :: rest => beginEncode n q.1 q.2 (s.setStream n { x with queue := rest })

/-- ACCESS_UNIT_STAGED: an encoder finishes a frame and its access unit commits (R297); the controller is brought up to
date (R298), its samples and motion field stand in its buffers (R304), and a capped frame is reported (R299). -/
def stageUnit (n : Nat) (s : State) : State :=
  let e := mediaEntry s n
  let x := s.stream n
  match x.busy, x.out with
  | some (number, _), some enc =>
    if !isEncoder s n then s
    else
      let b := 8 * enc.unit.length
      let f := max 0 (x.fullness + (b : Int) - (drainBits e s.tick.tp : Int))
      let s := storeFrame (buffersWhere s fun u => u.stream == n && u.current) enc.samples enc.motion s
      let x' := { x with
        busy := none, out := none, fullness := f, lastQp := x.q0, lastBits := b, prevKey := x.key, capped := enc.capped,
        rowQp := enc.rowQp, sinceKey := some (if x.key then 0 else (x.sinceKey.getD 0) + 1) }
      let s := commitRefs n (meRefs e) x.key (s.setStream n x')
      let s := { s with media := { s.media with
          keyframes := s.media.keyframes + bitOf x.key, capped := s.media.capped + bitOf enc.capped } }
      let s := s.setFrame number fun f =>
        { f with units := f.units ++ [⟨n, x.key, enc.capped, enc.unit⟩],
                 flags := { f.flags with capped := f.flags.capped || enc.capped } }
      nextEncode n (if enc.capped then raise 0x7904 number s else s)
  | _, _ => s

/-! ### Decode (R294, R296, R297, R305 to R308) -/

/-- What a decoder found in one access unit (Table 11.9). -/
inductive DecodeError where
  | none
  /-- Syntax error or bitstream overrun (0x7901). -/
  | parseError
  /-- Reference missing (0x7902). -/
  | missingReference
  /-- Stream outside the entry or R294 (0x7903). -/
  | outside
deriving DecidableEq, Repr

/-- The code of a decoder error (Table 11.9). -/
def DecodeError.code : DecodeError → Option Nat
  | .none => Option.none | .parseError => some 0x7901 | .missingReference => some 0x7902 | .outside => some 0x7903

/-- What decoding one access unit gives. -/
structure Decoded where
  error  : DecodeError
  key    : Bool
  planes : List (List Nat)
  /-- Each 8 × 8 luma block in raster order: whether it was decoded. -/
  blocks : List Bool
  /-- The references, newest first, that it predicts from. -/
  uses   : List Nat

/-- The decoder at an access unit (R294): an HEVC stream whose sps_max_dec_pic_buffering exceeds 6 is outside. -/
def decodeUnit (e : Bytes) (unit : Bytes) (refs : List Bytes) : Decoded :=
  let d := Config.decodeUnit e unit refs
  let err : DecodeError := if meFormat e == 1 && 6 < d.2.2.2.2.2 then .outside
    else match d.1 with | 0 => .none | 1 => .parseError | 2 => .missingReference | _ => .outside
  ⟨err, d.2.1, d.2.2.1, d.2.2.2.1, d.2.2.2.2.1⟩

/-- Every block that was not decoded copies the co-located block of the newest REF frame; with none, it is filled with
2^(BIT_DEPTH-1) (R306). -/
def conceal (e : Bytes) (d : Decoded) (newest : Option Bytes) : List (List Nat) :=
  let blocks := d.blocks.toArray
  (List.range 3).map fun i =>
    let (w, h) := planeSize e i
    let got := (d.planes.getD i []).toArray
    let old := newest.map fun b => (planeCodes e b i).toArray
    let side := if i == 0 then 8 else 4
    (List.range (w * h)).map fun k =>
      if blocks.getD (k / w / side * ceilDiv (meWidth e) 8 + k % w / side) false then got.getD k 0
      else match old with
        | some a => a.getD k 0
        | none => 2 ^ (meDepth e - 1)

/-- A picture of which nothing was decoded. -/
def nothingDecoded : Decoded := ⟨.none, false, [], [], []⟩

/-- A picture goes into set k mod 2 of a decode entry (R296). -/
def putPicture (n k : Nat) (planes : List (List Nat)) (s : State) : State :=
  (List.range 3).foldl (fun s i =>
    let t := pixelTensor s n (k % 2) i
    chargeHbm 1 t.base t.extent (writeCodes mediaAccess t (planes.getD i []) s)) s

/-- Set k mod 2 of a decode entry repeats the previous decoded picture, which stands in the other set (R307). -/
def repeatPicture (n k : Nat) (s : State) : State := putPicture n k (pixelSet s n ((k + 1) % 2)) s

/-- A frame carries the damaged flag (R307). -/
def flagDamaged (number : Nat) (s : State) : State :=
  s.setFrame number fun f => { f with flags := { f.flags with damaged := true } }

/-- The picture of a frame is staged (R297), DAMAGED or not; its frame carries the flag (R307) and MED_DAMAGED counts. -/
def pictureStaged (n number : Nat) (damaged : Bool) (s : State) : State :=
  let s := s.setStream n { s.stream n with busy := none, staged := true, stagedDamaged := damaged }
  let s := { s with media := { s.media with
      damaged := s.media.damaged + bitOf damaged,
      buffers := s.media.buffers.map fun b => if b.stream == n && b.current then { b with damaged := damaged } else b } }
  if damaged then flagDamaged number s else s

/-- While Media resets, and for a decode lost to the reset, the picture is concealed and DAMAGED; the pool holds no REF buffer
(R306, R309). -/
def concealFrame (n number k : Nat) (s : State) : State :=
  pictureStaged n number true (putPicture n k (conceal (mediaEntry s n) nothingDecoded none) s)

/-- The access unit that the conditioning of a frame holds for a decode entry: the segment of kind 3 of its stream, unless the
frame reuses the conditioning of the previous one (R28, R307). -/
def unitFor (n : Nat) (f : Frame) (segs : List Segment) : Option Bytes :=
  if f.reused then none
  else (segs.find? fun g => g.kind == 3 && g.stream == n).map (·.payload)

/-- DECODE_START: the reference-clip access unit of the accepted frame, or the previous picture again where there is none
(R297, R307); a frame that repeats a DAMAGED picture carries the flag. -/
def startDecode (n k : Nat) (f : Frame) (segs : List Segment) (s : State) : State :=
  match unitFor n f segs with
  | some _ =>
    if s.media.inReset then concealFrame n f.number k s
    else allocate n (meBuffers (mediaEntry s n))
      (s.setStream n { s.stream n with busy := some (f.number, k), staged := false })
  | none =>
    let s := repeatPicture n k s
    if (s.stream n).damaged then flagDamaged f.number s else s

/-- Every decoder starts on the frame accepted at T(k), or on the one that a replay runs again (R297, R308). -/
def startDecodes (k : Nat) (f : Frame) (segs : List Segment) (s : State) : State :=
  (decodeEntries s).foldl (fun s n => startDecode n k f segs s) s

/-- A replay decodes the saved conditioning again for the frame that counts as accepted at T(k) (R29, R308). -/
def replayDecodes (k : Nat) (s : State) : State := match s.job.frames.find? (·.accepted == k) with
  | some f => startDecodes k f (((s.job.condFrames.find? (·.1 == f.number)).map (·.2)).getD []) s
  | none => s

/-- Whether a reference frame is DAMAGED (R306). -/
def refDamaged (s : State) (n age : Nat) : Bool :=
  (refBuffers s n age).any fun i => match s.media.buffers[i]? with | some b => b.damaged | none => false

/-- What the decode of a frame's access unit gives, whether its picture is DAMAGED, and whether the stream still waits for a
key frame: an error, a DAMAGED reference, and every picture after a reset up to a key frame damage it (R306, R309). -/
def decodePicture (n number : Nat) (s : State) : Decoded × Bool × Bool :=
  let unit := (((s.job.condFrames.find? (·.1 == number)).map (·.2)).getD []).find? fun g => g.kind == 3 && g.stream == n
  let ages := refAges s n
  let d := decodeUnit (mediaEntry s n) ((unit.map (·.payload)).getD []) (ages.map (refSamples s n))
  let waits := (s.stream n).resync && !(d.key && d.error == .none)
  let d := if waits then { d with blocks := [] } else d
  let fromDamaged := d.uses.any fun r => match ages[r]? with | some a => refDamaged s n a | none => false
  (d, d.error != .none || fromDamaged || waits, waits)

/-- A decoded picture in place: in its pixel set and its frame buffers, concealed where it was not decoded (R304, R306); for a
stream outside its entry the previous picture again (R294, R307). -/
def placePicture (n k : Nat) (d : Decoded) (s : State) : State :=
  let e := mediaEntry s n
  let planes := conceal e d (((refAges s n).head?).map (refSamples s n))
  if d.error == .outside then repeatPicture n k s
  else storeFrame (buffersWhere s fun u => u.stream == n && u.current) (packPlanes e planes) [] (putPicture n k planes s)

/-- DECODED_PICTURE_STAGED: a decoder finishes a picture into set a mod 2 (R296), with what R306, R307 and R309 make of an
error, of a DAMAGED reference and of a reset before it. -/
def stagePicture (n : Nat) (s : State) : State :=
  match (s.stream n).busy with
  | none => s
  | some (number, k) =>
    if !(decodeEntries s).contains n then s
    else
      let r := decodePicture n number s
      let s := placePicture n k r.1 s
      let s := pictureStaged n number r.2.1 (s.setStream n { s.stream n with resync := r.2.2 })
      match r.1.error.code with
      | some c => raise c number s
      | none => s

/-- Decoded pictures commit with their tick: the newest is HELD and REF, the one before it is no longer HELD (R305). -/
def commitPictures (s : State) : State :=
  (decodeEntries s).foldl (fun s n =>
    let x := s.stream n
    if x.staged then
      let s := s.setStream n { x with staged := false, damaged := x.stagedDamaged }
      { s with media := { s.media with buffers := s.media.buffers.map fun b =>
          if b.stream == n && b.current then { b with current := false, ref := true, held := true }
          else if b.stream == n && b.held then { b with held := false } else b } }
    else s) s

/-! ### Media reset (R309) -/

/-- The Media partition resets: units not committed are lost, the pool is FREE, controllers restart, its regulators are full
(R260), decodes in progress end concealed, and decoded pictures are DAMAGED until the next key frame. -/
def resetMedia (s : State) : State :=
  let lost := (decodeEntries s).filterMap fun n => ((s.stream n).busy).map fun b => (n, b)
  let s := fillPartition 1 (restartControllers (freePool s))
  let s := { s with media := { s.media with
      inReset := true,
      streams := s.media.streams.mapIdx fun i x => if (decodeEntries s).contains i then { x with resync := true } else x } }
  lost.foldl (fun s p => concealFrame p.1 p.2.1 p.2.2 s) s

/-- At job start every buffer is FREE and every controller starts (R298, R305). -/
def startMedia (s : State) : State :=
  let s := restartControllers (freePool s)
  { s with media := { s.media with
      streams := s.media.streams.map fun x => { x with damaged := false, resync := false, keyWanted := false } } }

/-- Whether a stream's engines work on a frame, begun in a tick. -/
def worksOn (entry frame tick : Nat) (s : State) : Bool := (s.stream entry).busy == some (frame, tick)

/-- The meaning of ACCESS_UNIT_STAGED (R297): the encode in progress is that of the frame named, begun in the tick named. -/
def execAccessUnitStaged (t entry frame tick : Nat) (s : State) : Host.Outcome State Fault Refusal :=
  let s := s.arrive t
  .next (if worksOn entry frame tick s then stageUnit entry s else s)

/-- The meaning of DECODED_PICTURE_STAGED (R297): the decode in progress is that of the frame named, and its set is a mod 2. -/
def execDecodedPictureStaged (t entry frame tick set : Nat) (s : State) : Host.Outcome State Fault Refusal :=
  let s := s.arrive t
  .next (if worksOn entry frame tick s && set == tick % 2 then stagePicture entry s else s)

end Sys2Proof.Machine
end

