-- ==== Sys2Proof/Machine/Checkpoint.lean ====
section
/-! DEFINITION. Checkpoints: what a tick commit writes into both regions (R407, R408) and what a restore reads back
(R409). -/

namespace Sys2Proof.Machine

/-- TENSORS of the declaration (Table 15.5). -/
def ckptTensors (d : Bytes) : Nat := le d 4 2
/-- CIRRUS_SHIFT of the declaration. -/
def ckptShift (d : Bytes) : Nat := byteAt d 6
/-- CIRRUS_MAX of the declaration. -/
def ckptMax (d : Bytes) : Nat := byteAt d 7
/-- LOGICAL_ID of record i. -/
def ckptLogical (d : Bytes) (i : Nat) : Nat := le d (16 + 8 * i) 4
/-- TENSOR of record i. -/
def ckptTensor (d : Bytes) (i : Nat) : Nat := le d (20 + 8 * i) 2
/-- CLASS of record i. -/
def ckptClass (d : Bytes) (i : Nat) : Nat := byteAt d (22 + 8 * i)

/-- The first logical index of every block of 32 along dimension 0, in logical order (R408). -/
def Tensor.blocks (t : Tensor) : List (List Nat) :=
  if t.fmt.blockScaled then t.indices.filter fun ix => ix.headD 0 % 32 == 0 else []

/-- The data of a tensor's record: its elements densely, then its block scales (R408). -/
def recordData (s : State) (t : Tensor) : Bytes :=
  packCodes t.fmt (readCodes s mediaAccess t)
    ++ t.blocks.map fun ix => BitVec.ofNat 8 (readScale s mediaAccess t ix)

/-- Zeros up to a multiple of 64 bytes. -/
def padTo64 (b : Bytes) : Bytes := b ++ zeros ((64 - b.length % 64) % 64)

/-- A record header (Table 15.7). -/
def recordHeader (logical : Nat) (t : Tensor) (data : Bytes) : Bytes :=
  let h := toLe 4 logical ++ toLe 1 (t.fmt.code + 16 * t.rank) ++ zeros 3
    ++ ((List.range 5).flatMap fun j => toLe 2 (t.dim j - 1)) ++ zeros 2 ++ toLe 4 data.length ++ toLe 4 (crc32c data)
  h ++ toLe 4 (crc32c h)

/-- One record: header, data and padding. -/
def recordBytes (s : State) (logical : Nat) (t : Tensor) : Bytes :=
  let d := recordData s t
  recordHeader logical t d ++ padTo64 d

/-- SLOT[j] of the header: the frame at stage j in tick c. -/
def headerSlot (s : State) (c j : Nat) : Bytes :=
  match s.job.frames.find? fun f => f.accepted + j == c && j ≤ planP s.plan with
  | some f => toLe 4 f.number ++ toLe 2 (f.flags.code % 16) ++ ((List.range 9).flatMap fun i => toLe 2 (f.paths.getD i 0))
  | none => toLe 4 0xFFFFFFFF ++ zeros 20

/-- The checkpoint header of tick c (Table 15.6). -/
def checkpointHeader (s : State) (c : Nat) : Bytes :=
  let d := ckptDecl s
  let h := ascii "A7CK" ++ toLe 2 1 ++ toLe 1 s.job.variant ++ toLe 1 s.job.position ++ toLe 8 c ++ toLe 8 s.job.seed
    ++ toLe 4 s.job.shift ++ toLe 4 s.job.ak ++ slice s.dawn.planMeasure 0 48 ++ toLe 8 (planId s.plan)
    ++ toLe 2 (ckptTensors d) ++ zeros 2 ++ ((List.range 9).flatMap (headerSlot s c))
    ++ toLe 8 (s.job.endTick.getD 0xFFFFFFFFFFFFFFFF) ++ zeros 12
  let b := slice h 0 4092
  b ++ toLe 4 (crc32c b)

/-- The whole checkpoint of tick c (R408). -/
def checkpointBytes (s : State) (c : Nat) : Bytes :=
  let d := ckptDecl s
  checkpointHeader s c
    ++ (List.range (ckptTensors d)).flatMap fun i => recordBytes s (ckptLogical d i) (s.tensor (ckptTensor d i))

/-- CHECKPOINT_WRITE: the checkpoint of tick c into slot c mod 2 of both regions (R407); a word written anew is no longer
poisoned. -/
def writeCheckpoint (c : Nat) (s : State) : State :=
  let b := checkpointBytes s c
  let s := [0, 1].foldl (fun s die =>
    chargeCore (32 * die) (ckptAddr s die c) b.length (s.writeMem .hbm (ckptAddr s die c) b)) s
  { s with integrity := { s.integrity with poisoned := s.integrity.poisoned.filter fun w =>
      !([0, 1].any fun die => ckptAddr s die c ≤ w && w + 32 ≤ ckptAddr s die c + b.length) } }

/-- The checkpoint in the slot of tick c counts as that of tick k from now on (R38, R39). Where k has the other slot, slot k mod
2 takes it in both regions, poisoned words included, so that the next commit overwrites the older of the two and not this one
(R332, R407; log 48). `region` is the ring variant whose slots hold it, another one after a resume on another ring size (R410). -/
def moveCheckpoint (region c k : Nat) (s : State) : State :=
  if region == s.job.variant && c % 2 == k % 2 then s
  else
    let n := ckptBytes (s.asVariant region)
    [0, 1].foldl (fun s die =>
      let a := ckptAddr (s.asVariant region) die c
      let b := ckptAddr s die k
      let s := s.writeMem .hbm b (s.readMem .hbm a n)
      let outside := s.integrity.poisoned.filter fun w => !(b ≤ w && w < b + n)
      let moved := (s.integrity.poisoned.filter fun w => a ≤ w && w < a + n).map fun w => w - a + b
      { s with integrity := { s.integrity with poisoned := outside ++ moved } }) s

/-! ### Restore (R409) -/

/-- Whether a checkpoint header has its TAG and its CRC. -/
def headerValid (h : Bytes) : Bool := h.take 4 == ascii "A7CK" && le h 4092 4 == crc32c (h.take 4092)

/-- Whether the header at an address is usable: no poisoned word, tag and CRC right. -/
def headerUsable (s : State) (a : Nat) : Bool := !poisonedIn s a 4096 && headerValid (s.readMem .hbm a 4096)

/-- Offset of record i from the checkpoint's start, by the declaration's tensors (R408). -/
def recordOffset (s : State) (i : Nat) : Nat :=
  let d := ckptDecl s
  (List.range i).foldl (fun o j =>
    let t := s.tensor (ckptTensor d j)
    let n := packedBytes t.fmt t.count + t.blocks.length
    o + 32 + ceilDiv n 64 * 64) 4096

/-- Whether the record at an address is usable. -/
def recordUsable (s : State) (a logical : Nat) : Bool :=
  let h := s.readMem .hbm a 32
  let n := le h 20 4
  le h 0 4 == logical && le h 28 4 == crc32c (h.take 28) && !poisonedIn s a (32 + n)
    && le h 24 4 == crc32c (s.readMem .hbm (a + 32) n)

/-- A tensor written from the data of a record. -/
def restoreTensor (t : Tensor) (data : Bytes) (s : State) : State :=
  let s := writeCodes mediaAccess t ((List.range t.count).map (packedCode t.fmt data)) s
  let off := packedBytes t.fmt t.count
  (List.range t.blocks.length).foldl (fun s i =>
    writeScale mediaAccess t (t.blocks.getD i []) (byteAt data (off + i)) s) s

/-- What reading one part from the preferred copy and the other gives: which die's copy is used; none when neither is
usable. -/
def chooseCopy (first : Nat) (usable : Nat → Bool) : Option Nat :=
  if usable first then some first else if usable (1 - first) then some (1 - first) else none

/-- The tensor of the running variant with a LOGICAL_ID (R409). -/
def logicalTensor (s : State) (logical : Nat) : Option Tensor :=
  let d := ckptDecl s
  ((List.range (ckptTensors d)).find? fun j => ckptLogical d j == logical).map fun j => s.tensor (ckptTensor d j)

/-- Record i of a checkpoint that the ring variant `from_` formed, restored from a usable copy into the running variant's tensor
for its LOGICAL_ID; 0x420C when it comes from the other copy. `addr` gives where each copy starts. -/
def restoreRecord (from_ : Nat) (addr : Nat → Nat) (first i : Nat) (r : Option State) : Option State :=
  match r with
  | none => none
  | some s =>
    let v := s.asVariant from_
    let id := ckptLogical (ckptDecl v) i
    let o := recordOffset v i
    match chooseCopy first fun die => recordUsable s (addr die + o) id with
    | none => none
    | some die =>
      let a := addr die + o
      let n := le (s.readMem .hbm a 32) 20 4
      let s := if die == first then s else raise 0x420C i s
      match logicalTensor s id with
      | some t => some (restoreTensor t (s.readMem .hbm (a + 32) n) s)
      | none => some s

/-- The checkpoint in the slot of tick c, among the slots of the ring variant `region`, restored into the running variant's
tensors, from the copy on the die that does not hold the fault; none when a header or record is unusable in both copies (R409).
The header's VARIANT says whose declaration its records follow (R410). -/
def restoreFrom (region : Nat) (faultDie : Option Nat) (c : Nat) (s : State) : Option State :=
  let first := match faultDie with | some 0 => 1 | _ => 0
  let addr := fun die => ckptAddr (s.asVariant region) die c
  match chooseCopy first fun die => headerUsable s (addr die) with
  | none => none
  | some die =>
    let v := byteAt (s.readMem .hbm (addr die) 4096) 6
    let s := if die == first then s else raise 0x420C 0xFFFF s
    (List.range (ckptTensors (ckptDecl (s.asVariant v)))).foldl (fun r i => restoreRecord v addr first i r) (some s)

/-- The checkpoint in the slot of tick c of the running variant restored (R409). -/
def restoreCheckpoint (faultDie : Option Nat) (c : Nat) (s : State) : Option State := restoreFrom s.job.variant faultDie c s

/-! ### A checkpoint that comes over the data channel (R410) -/

/-- The frame that SLOT[j] of a header holds (Table 15.6). -/
def slotFrame (h : Bytes) (j : Nat) : Option Frame :=
  let o := 92 + 24 * j
  if le h o 4 == 0xFFFFFFFF then none
  else
    let f := byteAt h (o + 4)
    some { number := le h o 4, accepted := le h 8 8 - j,
           flags := { held := bitAt f 0, default := bitAt f 1, flywheel := bitAt f 2, resumed := bitAt f 3 },
           paths := (List.range 9).map fun i => le h (o + 6 + 2 * i) 2, units := [], decoded := false }

/-- What a checkpoint's header keeps for a resume of plan i, with P frames in flight. The next frame is the one after A_c for each boundary up to
STOP_TICK, at which a Dusk accepted none (DEDUCED, log 12: no header field names it). -/
def retainedFrom (i p : Nat) (h : Bytes) : Retained :=
  let c := le h 8 8
  let dusk := byteAt h 316 == 2
  let stop := le h 320 8
  let e := le h 308 8
  { planIndex := i, measurement := slice h 32 48, planId := le h 80 8, c := c, ckptTick := c, stopTick := stop,
    reason := if dusk then .dusk else .preemption, endTick := if e == 0xFFFFFFFFFFFFFFFF then none else some e,
    nextFrame := (le h 28 4 + (stop - c) + (if dusk then 0 else 1)) % 4294967296, variant := byteAt h 6,
    frames := (List.range 9).filterMap fun j => (slotFrame h j).map fun f =>
      { f with decoded := j == p },
    condFrames := [], previous := none, shift := le h 24 4, seed := le h 16 8, ak := le h 28 4 }

/-- Position 0's checkpoint becomes the retained one of this member, in both regions (R410). -/
def takeCheckpoint (i p : Nat) (b : Bytes) (s : State) : State :=
  let r := retainedFrom i p b
  let s := [0, 1].foldl (fun s die => s.writeMem .hbm (ckptAddr (s.asVariant r.variant) die r.c) b) s
  { s with job := { s.job with retained := some r, resumable := true } }

end Sys2Proof.Machine
end

