-- ==== Sys2Proof/Machine/Boundary.lean ====
section
/-! DEFINITION. What happens at a boundary T(k): re-checks, Dusk, JOB_END, acceptance, the start of a tick, the start of
a job and the resume after Squall (R15 to R17, R20, R28, R36 to R41). -/

namespace Sys2Proof.Machine

/-- How a boundary came about. -/
inductive Placed where
  /-- An accepted edge, or a boundary of the internal reference. -/
  | edge
  /-- A flywheel boundary (R17). -/
  | flywheel
  /-- A boundary forwarded from position 0: byte 32 of its TICK (Table 12.4), and the measured delay of its way here
  (R323). -/
  | forwarded (flags : Nat) (delay : Time)
  /-- A boundary that a ring member places from its own reference during a ring Squall (R335). -/
  | ringSquall
deriving DecidableEq, Repr

/-! ### Conditioning (R27 to R29) -/

/-- When the head record of ring 0 comes within range, it and those behind it arrive (R27, R358). -/
def releaseHeld (s : State) : State := match s.host.heldFrame with
  | some f =>
    if ptrDiff f s.job.nextFrame < 16 then
      { s with host := { s.host with heldFrame := none, arrivals := s.host.arrivals.map fun a => max a s.now } }
    else s
  | none => s

/-- The conditioning that counts for a frame at T(a): the newest of those that arrived by T(a) - 1.0 ms (R28, R368). -/
def conditioningFor (s : State) (frame : Nat) (boundary : Time) : Option Conditioning :=
  (s.host.conds.filter fun c => c.frame == frame && c.arrived + ms 1 ≤ boundary).foldl
    (fun best c => match best with
      | none => some c
      | some b => if b.arrived ≤ c.arrived then some c else some b) none

/-- The segments of the default conditioning: a record of Table 13.11 followed by its payloads (Table 14.12). -/
def defaultSegments (p : Plan) : List Segment :=
  let r := sectionOf p 0x0E
  let n := byteAt r 4
  ((List.range n).foldl (fun (acc : List Segment × Nat) i =>
    let len := le r (24 + 16 * i) 4
    (acc.1 ++ [⟨byteAt r (28 + 16 * i), byteAt r (29 + 16 * i), slice r acc.2 len⟩], acc.2 + len)) ([], 64)).1

/-- The regions that conditioning must not reach: those of the plan image and the host-exchange region. -/
def keptRegions (s : State) : List (Nat × Nat) := (exchangeBase, exchangeSize) :: layoutRegions s.dawn.layout

/-- Where a payload of the conditioning goes in the HBM of a die: the manual leaves the place open (log 22). -/
def conditioningAddr (s : State) (g : Segment) (die : Nat) : Nat :=
  dieBytes * die
    + Config.conditioningPlace (sectionOf s.plan 0x0F) g.kind g.stream g.payload.length % (dieBytes - g.payload.length)

/-- A payload written to the HBM of a die, unless its place lies in a region of the plan image (log 22). -/
def writeSegment (g : Segment) (die : Nat) (s : State) : State :=
  let a := conditioningAddr s g die
  if (keptRegions s).any (rangesOverlap (a, g.payload.length)) then s
  else chargeHbm 4 a g.payload.length (s.writeMem .hbm a g.payload)

/-- The conditioning of a frame goes to the HBM of each die (R29). -/
def writeConditioning (segs : List Segment) (s : State) : State :=
  segs.foldl (fun s g => writeSegment g 1 (writeSegment g 0 s)) s

/-- Whether the conditioning lacks the access unit of a decode entry (R307). -/
def lacksUnit (segs : List Segment) (s : State) : Bool :=
  (decodeEntries s).any fun n => !(segs.any fun g => g.kind == 3 && g.stream == n)

/-- FRAME_ACCEPT: exactly one frame is accepted at T(k), with its conditioning, or held with 0x1901 where none arrived in time
or it lacks an access unit (R28, R307). Its conditioning is written to both dies (R29). -/
def acceptFrame (k : Nat) (flywheel : Bool) (s : State) : State :=
  let f := s.job.nextFrame
  let chosen := conditioningFor s f s.tick.boundary
  let segs := match chosen, s.job.previous with
    | some c, _ => c.segments
    | none, some p => p
    | none, none => defaultSegments s.plan
  let held := chosen.isNone || lacksUnit segs s
  let flags : FrameFlags :=
    { held := held, default := chosen.isNone && s.job.previous.isNone, flywheel := flywheel }
  let fr : Frame := ⟨f, k, flags, List.replicate 9 0, [], false, chosen.isNone && s.job.previous.isSome⟩
  let s := { s with
    job := { s.job with
      nextFrame := ptrAdd f 1, acceptedNo := f, frames := s.job.frames ++ [fr], previous := some segs,
      condFrames := s.job.condFrames ++ [(f, segs)], ak := f },
    host := { s.host with conds := s.host.conds.filter (·.frame != f) } }
  let s := if held then raise 0x1901 f s else s
  releaseHeld (startDecodes k fr segs (writeConditioning segs s))

/-! ### The start of a tick -/

/-- A_k where no frame counts as accepted at T(k): that of the frame that does, else A_{k-1} + 1 (R184). -/
def nextAk (k : Nat) (s : State) : State :=
  match s.job.frames.find? (·.accepted == k) with
  | some f => { s with job := { s.job with ak := f.number } }
  | none => { s with job := { s.job with ak := ptrAdd s.job.ak 1 } }

/-- Requests whose effect waits for a boundary: the split-exact switch (R148), key frames (R300), the watch period's
end (R419). -/
def applySwitches (s : State) : State :=
  let s := { s with
    job := { s.job with splitForced := s.job.splitWanted, keyMask := 0 },
    media := { s.media with streams := s.media.streams.mapIdx fun i x =>
      if i < 4 && s.job.keyMask.testBit i then { x with keyWanted := true } else x } }
  applyWatchEnd s

/-- Nimbus refits R_d to the measured junction temperatures, never below 0.020 K/W (R432). The manual states no method
of fitting: the fitted value is free (log 12). -/
def fitModel (s : State) : State :=
  let (a, s) := s.free
  let (b, s) := s.free
  { s with nimbus := { s.nimbus with r0 := max 20 a.toNat, r1 := max 20 b.toNat } }

/-- The tick starts: the path is chosen, every list restarts at its head, events are zero (R52, R62, R284), encodes begin
(R297). -/
def startTick (k : Nat) (s : State) : State :=
  let s := applySwitches s
  let s := decidePath k s
  let s := { s with
    compute := { s.compute with
      issued := List.replicate 64 0, reissue := [], runs := [], done := [], counts := [], hosted := [], guests := [],
      edgeQueue := [], ordered := [], abandoned := false, agreed := [] },
    link := { s.link with transfers := s.link.transfers.filter (·.tick == k % 65536), turns := [] },
    job := { s.job with level1Used := false } }
  let s := fetchLists s
  fitModel (startEncodes k s)

/-! ### Dusk causes at a boundary (R36) -/

/-- Whether the PCIe bandwidth lies below the plan's requirement. -/
def linkShort (s : State) : Bool := (if s.host.linkUp then s.host.mbps else 0) < planHostLink s.plan

/-- The code of a Dusk cause that the re-checks of a boundary find: PCIe bandwidth below the plan's requirement, or in a ring a
hop that is not up. DEDUCED: R36 names 0x1907 for the bandwidth alone; BOUNDARY_RECHECK of 95_what_each_step_holds.md gives it
for a shortfall of any of the three (log 49). -/
def recheck (s : State) : Option Nat :=
  if linkShort s || (s.inRing && !s.ringUp) then some 0x1907 else none

/-- A member other than position 0 reports a cause that its re-checks find; position 0 decides where the ring stops
(R333). -/
def noteShortfall (s : State) : State := match s.job.dusk, recheck s with
  | none, some c => causeDusk c (raise c 0 s)
  | _, _ => s

/-- The Dusk cause of another member that position 0 applies at this boundary, 100 µs after its receipt at the earliest
(R333). -/
def dueMemberDusk (s : State) : Option PendingStop := match s.link.memberDusk with
  | some (code, due, tick) => if s.inRing && due ≤ s.now then some ⟨.dusk, code, tick⟩ else none
  | none => none

/-- The Dusk cause that stops the job at this boundary, if any: one that waits, or one that the re-checks find. A ring
member other than position 0 stops where the TICK says Dusk (R333). -/
def duskHere (how : Placed) (s : State) : Option PendingStop × State :=
  match how with
  | .forwarded fl _ =>
    if bitAt fl 2 then
      match s.job.dusk with
      | some d => (some d, s)
      | none => (some ⟨.dusk, 0x1908, s.tick.index⟩, s)
    else (none, noteShortfall s)
  | _ =>
    if s.inRing && s.job.position != 0 then (none, noteShortfall s)
    else match s.job.dusk.or (dueMemberDusk s) with
    | some d => (some d, s)
    | none => match recheck s with
      | some c => (some ⟨.dusk, c, s.tick.index⟩, raise c 0 s)
      | none => (none, s)

/-- Whether JOB_END takes effect here: 1.0 ms after its pickup, or where the TICK says so (R37, R333). -/
def endsHere (how : Placed) (s : State) : Bool := match how with
  | .forwarded fl _ => bitAt fl 1
  | _ => match s.job.endPending with
    | some t => t + ms 1 ≤ s.now
    | none => false

/-- JOB_END_EFFECT: from T(e) no frame is accepted (R37). -/
def jobEndEffect (e : Nat) (s : State) : State :=
  { s with job := { s.job with phase := .draining, endPending := none, endTick := some e } }

/-! ### Starting and resuming -/

/-- T(0): an ARMED job runs, or for a resume restores its frames and accepts none (Table 1.8, R38). The first slot of the job
is that of its first boundary or of tick L, whichever is later; the record due at T(r) is not written (R31, R38). -/
def startRun (k : Nat) (flywheel : Bool) (s : State) : State :=
  let l := s.latency
  if s.job.resume then
    match s.job.retained with
    | none => s
    | some r =>
      let d := k - r.c - 1
      let s := moveCheckpoint r.variant r.ckptTick (k - 1) s
      let s := { s with job := { s.job with
          phase := if r.endTick.isSome then .draining else .running,
          endTick := r.endTick.map (· + d), frames := r.frames.map fun f =>
            { f with accepted := f.accepted + d, flags := { f.flags with resumed := true } },
          condFrames := r.condFrames, previous := none, shift := r.shift + d, committed := some (k - 1),
          ckptTick := some (k - 1), nextSlot := max (k + 1) l, gapReason := r.reason,
          retained := none, resumable := false, ak := r.ak, akCommitted := r.ak } }
      let s := raise 0x190B d s
      replayDecodes k (nextAk k (startTick k (fillBuckets s)))
  else
    let s := { s with job := { s.job with
        phase := .running, nextSlot := k + l, gapReason := .recovery, retained := none, resumable := false } }
    acceptFrame k flywheel (startTick k (fillBuckets s))

/-- SQUALL_RESUME: tick r runs the work of tick c + 1, with shift d for every frame that is restored (R39). -/
def squallResume (r : Nat) (q : Squall) (s : State) : State :=
  let next := match q.c with | some c => c + 1 | none => s.job.first
  let d := r - next
  let begun := fun (f : Frame) => f.decoded && f.accepted + planP s.plan + 1 ≤ q.tick
  let move := fun (f : Frame) =>
    if unitsCommitted s f || begun f then f else { f with accepted := f.accepted + d }
  let s := match q.c, s.job.ckptTick with | some _, some ck => moveCheckpoint s.job.variant ck (r - 1) s | _, _ => s
  let s := { s with
    job := { s.job with
      phase := if s.job.endTick.isSome then .draining else .running,
      endTick := s.job.endTick.map (· + d), frames := s.job.frames.map move, shift := s.job.shift + d,
      committed := q.c.map fun _ => r - 1, ckptTick := q.c.map fun _ => r - 1, squall := none,
      ak := s.job.akCommitted },
    link := { s.link with abortTick := none, resumeAt := none, reports := [], ready := [], readySent := none } }
  let s := raise 0x190B d (shiftRequests d (releaseFault s))
  replayDecodes r (nextAk r (startTick r s))

/-- Whether Squall resumes at this boundary: recovery complete at least 1.0 ms ago and the source locked (R39, R41), or
in a ring the boundary that RESUME names (R335). -/
def resumesHere (q : Squall) (s : State) : Bool :=
  if q.ring then match s.link.resumeAt with
    | some (_, r) => r == s.tick.index && q.complete.isSome
    | none => false
  else match q.complete with
    | some t => t + ms 1 ≤ s.now && s.tick.locked
    | none => false

/-- Whether a boundary is a flywheel boundary, here or at position 0 (R17, R19). -/
def isFlywheel : Placed → Bool
  | .flywheel => true
  | .forwarded fl _ => bitAt fl 0
  | _ => false

/-- Whether a forwarded boundary carries Dusk (R333). -/
def forwardedDusk : Placed → Bool
  | .forwarded fl _ => bitAt fl 2
  | _ => false

/-- A boundary of a job in RUNNING or DRAINING. -/
def runBoundary (k : Nat) (how : Placed) (s : State) : State :=
  match duskHere how s with
  | (some d, s) => duskStop d.code s
  | (none, s) =>
    if s.job.phase == .draining then nextAk k (startTick k s)
    else if endsHere how s then nextAk k (startTick k (jobEndEffect k s))
    else acceptFrame k (isFlywheel how) (startTick k s)

/-- The re-check of a boundary in SQUALL: a bandwidth shortfall is a Dusk cause of its tick (R36). Ports that are down are
the ring's recovery to bring back. -/
def squallRecheck (s : State) : State :=
  if s.job.dusk.isNone && linkShort s then causeDusk 0x1907 (raise 0x1907 0 s) else s

/-- The Dusk cause that stops the job at a boundary in SQUALL: one of the fault's own tick, or any once the partition reset is
complete (Tables 1.8, 1.9, R41). A ring member other than position 0 stops where a TICK says Dusk (R333, Table 12.11). -/
def squallDusk (how : Placed) (q : Squall) (s : State) : Option PendingStop :=
  let own := if s.inRing && s.job.position != 0 then none else s.job.dusk.or (dueMemberDusk s)
  match how with
  | .forwarded fl _ => if bitAt fl 2 then some (s.job.dusk.getD ⟨.dusk, 0x1908, s.tick.index⟩) else none
  | _ => match own with
    | some d => if d.tick == q.tick || q.resetDone then some d else none
    | none => none

/-- The index of the boundary about to be placed. -/
def State.nextIndex (s : State) : Nat := if s.tick.placed then s.tick.index + 1 else s.job.first

/-- Position 0 of a ring forwards every boundary both ways round, with what takes effect there (R19, R333). -/
def forwardTick (how : Placed) (dusk ended : Bool) (s : State) : State :=
  if s.inRing && s.job.position == 0 then
    let fl := bitOf (how == .flywheel) + 2 * bitOf ended + 4 * bitOf dusk
    sendBothWays 0x20 (toLe 8 s.tick.index ++ toLe 1 fl ++ toLe 1 0) s
  else s

/-- A boundary in SQUALL: the job stops by Dusk, or resumes, or Squall goes on; position 0 of a ring forwards the first two. -/
def squallBoundary (k : Nat) (how : Placed) (s : State) : State :=
  match s.job.squall with
  | none => s
  | some q => match squallDusk how q s with
    | some d => duskStop d.code (forwardTick how true false s)
    | none =>
      if s.job.dusk.isNone && resumesHere q s then squallResume k q (forwardTick how false false s) else s

/-- The registers and the reference of a boundary (R15, R17, R20). The count of flywheel boundaries stays at two once
it has reached it. A boundary that a member places from its own reference in a ring Squall is no edge and does not count
(R335). -/
def placeBoundary (k : Nat) (how : Placed) (s : State) : State :=
  let isEdge := match how with | .edge => true | .forwarded fl _ => !bitAt fl 0 | _ => false
  let at0 := match how with | .forwarded _ d => s.now - d | _ => s.now
  { s with tick := { s.tick with
      index := k, boundary := at0, placed := true,
      edgeIndex := if isEdge then k else s.tick.edgeIndex,
      edgeTime := if isEdge then at0 else s.tick.edgeTime,
      flywheel := if isEdge then 0 else if how == .ringSquall then s.tick.flywheel else min 2 (s.tick.flywheel + 1),
      pulse := some s.now } }

/-- A flywheel boundary that the module places from its own reference is reported with 0x1903, a lost tick apart (R17, R19). -/
def reportFlywheel (how : Placed) (third : Bool) (s : State) : State :=
  if how == .flywheel && (!third || s.job.phase == .squall) then raise 0x1903 s.tick.index s else s

/-- The source of the job's plan is unlocked: its tracked edges and its word-clock lock go (R18). -/
def unlockSource (s : State) : State :=
  { s with tick := { s.tick with
      locked := false,
      trackers := s.tick.trackers.mapIdx fun i tr =>
        if i == s.job.planIndex then { tr with newest := none, run := 0, locked := false } else tr,
      clockLock := if planSource s.plan == 2 then s.tick.clockLock.set (planClock s.plan) false else s.tick.clockLock } }

/-- TICK_LOST: the third consecutive flywheel boundary accepts no frame, reports 0x1904 and stops the job by Dusk; the
source is unlocked (R17, R18). Position 0 of a ring forwards it with both marks (R19, R333). -/
def tickLost (s : State) : State :=
  duskStop 0x1904 (raise 0x1904 0 (unlockSource (forwardTick .flywheel true false s)))

/-- A boundary is placed at the present instant, with everything that happens there. -/
def boundary (how : Placed) (s : State) : State :=
  let k := s.nextIndex
  let third := how == .flywheel && s.tick.flywheel == 2
  let s := reportFlywheel how third (placeBoundary k how s)
  let s := match s.job.phase with
    | .armed =>
      match forwardedDusk how with
      | true => leaveArmed s
      | false => match recheck s with
        | some c => causeDusk c (raise c 0 (forwardTick how true false s))
        | none => startRun k (isFlywheel how) (forwardTick how false false s)
    | .running | .draining =>
      if third then tickLost s
      else
        let dusk := match duskHere how s with | (some _, _) => true | _ => false
        runBoundary k how (forwardTick how dusk (endsHere how s) s)
    | .squall => squallBoundary k how (squallRecheck s)
    | _ => s
  if s.job.phase == .running || s.job.phase == .draining || s.job.phase == .squall then s
  else { s with tick := { s.tick with pulse := none } }

end Sys2Proof.Machine
end

