-- ==== Sys2Proof/Machine/Tick.lean ====
section
/-! DEFINITION. The tick commands: edges and boundaries (R15 to R19), deadlines of the tick (R22, R23), tick commit (R24),
delivery slots (R31), the end of draining (R37) and the end of recovery (R39, R41, R414). -/

namespace Sys2Proof.Machine

/-! ### Sources and lock (R13 to R18) -/

/-- Whether this member follows position 0 of a ring (R19). -/
def State.followsRing (s : State) : Bool := s.inRing && s.job.position != 0

/-- One rising edge followed for lock (R18). -/
def Tracker.edge (tr : Tracker) (t : Time) : Tracker :=
  let w := windowHalf tr.tp
  match tr.newest with
  | none => { tr with newest := some t, run := 1 }
  | some p =>
    if t + w < p + tr.tp then tr
    else if t ≤ p + tr.tp + w then
      { tr with newest := some t, run := min 3 (tr.run + 1), locked := tr.locked || 3 ≤ tr.run + 1 }
    else { tr with newest := some t, run := 1, locked := false }

/-- The tracker of the job's plan. -/
def State.tracker (s : State) (i : Nat) : Tracker := s.tick.trackers.getD i ⟨0, none, 0, false⟩

/-- Whether the source of a plan is locked (R18). -/
def sourceLocked (s : State) (i : Nat) (p : Plan) : Bool := match planSource p with
  | 0 => true | 1 => (s.tracker i).locked | _ => s.tick.clockLock.getD (planClock p) false

/-- TCK_STATUS.LOCKED follows the source of the current or most recent job outside RUNNING and DRAINING (R18). -/
def showLock (s : State) : State := match s.job.phase with
  | .running | .draining => s
  | _ => if s.tick.periodNs == 0 then s
         else { s with tick := { s.tick with locked := sourceLocked s s.job.planIndex s.plan } }

/-- LOCK_LOST_BEFORE_T0: ARMED returns to IDLE with 0x1803 (Table 1.8). -/
def lockLost (s : State) : State :=
  leaveArmed (raiseAs 0x1803 true .management false 0 s)

/-- A frame-pulse edge in a job that has placed a boundary: accepted in its window, or ignored with 0x1902 (R16). -/
def pulseInJob (s : State) : State :=
  let e := s.tick.boundary + s.tick.tp
  let w := windowHalf s.tick.tp
  if s.now + w < e then (if s.tick.boundary < s.now then raise 0x1902 s.tick.index s else s)
  else if s.now ≤ e + w then
    let i := s.job.planIndex
    let s := if s.job.phase == .squall then s else { s with tick := { s.tick with
        trackers := s.tick.trackers.set i { s.tracker i with newest := some s.now, run := 3, locked := true } } }
    boundary .edge s
  else s

/-- Whether TICK_IN is followed: not before a Dawn has passed (Table 14.2). -/
def State.hearsTick (s : State) : Bool := s.dawn.phase == .passed || s.dawn.phase == .warm

/-- FRAME_PULSE_EDGE (R16, R18). -/
def pulseEdge (s : State) : State :=
  let own := s.tick.source == 1 && !s.followsRing
  let running := s.job.phase == .running || s.job.phase == .draining
  let s := { s with tick := { s.tick with trackers := s.tick.trackers.mapIdx fun i tr =>
      if running && own && i == s.job.planIndex then tr else tr.edge s.now } }
  let s := showLock s
  match s.job.phase with
  | .armed =>
    if own then
      match s.tick.start with
      | some e0 =>
        let w := windowHalf s.tick.tp
        if s.now + w < e0 then s else if s.now ≤ e0 + w then boundary .edge s else lockLost s
      | none => s
    else s
  | .running | .draining => if own then pulseInJob s else s
  | .squall => if own && !s.inRing then pulseInJob s else s
  | _ => s

/-- The meaning of FRAME_PULSE_EDGE (R16). -/
def execFramePulseEdge (t : Nat) (s : State) : Host.Outcome State Fault Refusal :=
  let s := s.arrive t
  .next (if s.hearsTick then pulseEdge s else s)

/-- What an edge that completes D × (k - j) periods of the job's word clock places: it is accepted in its window while the
clock is in tolerance, else it is missing (R15, R16). In ARMED the first edge of the start rule is T(0). -/
def wordPlaces (inTolerance : Bool) (s : State) : State :=
  match s.job.phase with
  | .armed => match s.tick.start with
    | some e0 => if e0 ≤ s.now && sourceLocked s s.job.planIndex s.plan then boundary .edge s else s
    | none => s
  | .running | .draining | .squall =>
    let n := s.tick.index + 1 - s.tick.edgeIndex
    let e := s.tick.edgeTime + n * s.tick.tp
    let w := n * s.tick.tp / 10000 + us 1
    if inTolerance && e ≤ s.now + w && s.now ≤ e + w && !(s.inRing && s.job.phase == .squall) then boundary .edge s
    else s
  | _ => s

/-- WORD_CLOCK_EDGE: the edge is seen, and counts for a module whose reference is the word clock. -/
def wordEdge (inTolerance : Bool) (s : State) : State :=
  let s := { s with tick := { s.tick with wordEdge := some s.now } }
  if s.tick.source != 2 || s.followsRing then s else wordPlaces inTolerance s

/-- The meaning of WORD_CLOCK_EDGE (R15). -/
def execWordClockEdge (t : Nat) (inTolerance : Bool) (s : State) : Host.Outcome State Fault Refusal :=
  let s := s.arrive t
  .next (if s.hearsTick then wordEdge inTolerance s else s)

/-- Whether the next boundary of a member that follows position 0 is T(r), for which it waits for TICK (R335). -/
def State.awaitsResume (s : State) : Bool := s.followsRing && s.job.phase == .squall &&
  match s.link.resumeAt with | some (_, r) => r == s.nextIndex | none => false

/-- INTERNAL_BOUNDARY: the internal reference places T(0) at its instant and T(k) at T(k-1) + Tp (R15); in a ring Squall
a member's own reference does so for any source, up to T(r) (R335). -/
def internalEdge (s : State) : State :=
  let ringSquall := s.job.phase == .squall && s.inRing && !s.awaitsResume
  let due := if s.tick.placed then some (s.tick.boundary + s.tick.tp) else s.tick.start
  if due == some s.now && (ringSquall || (s.tick.source == 0 && !s.followsRing)) then
    match s.job.phase with
    | .armed | .running | .draining => boundary .edge s
    | .squall => boundary (if ringSquall then .ringSquall else .edge) s
    | _ => s
  else s

/-- The meaning of INTERNAL_BOUNDARY (R15). -/
def execInternalBoundary (t : Nat) (s : State) : Host.Outcome State Fault Refusal := .next (internalEdge (s.arrive t))

/-- FLYWHEEL_BOUNDARY: at E(k) + W with no edge accepted, the boundary is placed from the reference with 0x1903 (R17);
in ARMED with a frame pulse, lock is lost before T(0) (R15). -/
def flywheelEdge (s : State) : State :=
  if s.tick.source == 0 || s.followsRing then s else
    let w := windowHalf s.tick.tp
    match s.job.phase with
    | .armed => match s.tick.start with
      | some e0 => if s.tick.source == 1 && e0 + w ≤ s.now then lockLost s else s
      | none => s
    | .running | .draining =>
      if s.now == s.tick.boundary + s.tick.tp + w then
        boundary .flywheel s
      else s
    | .squall =>
      if s.now == s.tick.boundary + s.tick.tp + w && !s.inRing then boundary .flywheel s else s
    | _ => s

/-- The meaning of FLYWHEEL_BOUNDARY (R17). -/
def execFlywheelBoundary (t : Nat) (s : State) : Host.Outcome State Fault Refusal := .next (flywheelEdge (s.arrive t))

/-- The common abort that a member starts although its own boundary has just stopped the job (R17, R19): ABORT both ways, the cause
and 0x3A01; nothing is left here to kill. -/
def abortAfterStop (cause : Nat) (s : State) : State :=
  let s := raiseAs cause false .link true 0 (sendAbort cause s)
  raiseAs 0x3A01 false .link true 0 { s with link := { s.link with aborts := s.link.aborts + 1 } }

/-- BOUNDARY_FORWARD_TIMEOUT: a ring member places a flywheel boundary at E(k) + W + 4 µs, with 0x1903, and starts the common
abort with 0x3A09 (R19). -/
def forwardTimeout (s : State) : State :=
  let due := s.tick.boundary + s.tick.tp + windowHalf s.tick.tp + us 4
  if s.followsRing && s.tick.placed && due ≤ s.now
      && (s.job.phase == .running || s.job.phase == .draining || s.awaitsResume) then
    let u := boundary .flywheel s
    if u.inRing && u.job.phase != .stopping then startAbort 0x3A09 false none none u else abortAfterStop 0x3A09 u
  else s

/-- The meaning of BOUNDARY_FORWARD_TIMEOUT (R19). -/
def execBoundaryForwardTimeout (t : Nat) (s : State) : Host.Outcome State Fault Refusal :=
  .next (forwardTimeout (s.arrive t))

/-- LOCK_LOSS_TIMEOUT: outside RUNNING and DRAINING a frame-pulse source unlocks Tp + W after its newest tracked edge
(R18); an ARMED job on it returns to IDLE. -/
def lockTimeout (s : State) : State := match s.job.phase with
  | .running | .draining => s
  | _ =>
    let s := { s with tick := { s.tick with trackers := s.tick.trackers.map fun tr => match tr.newest with
      | some p => if p + tr.tp + windowHalf tr.tp ≤ s.now then { tr with newest := none, run := 0, locked := false } else tr
      | none => tr } }
    let s := showLock s
    if s.job.phase == .armed && s.tick.source == 1 && !s.followsRing && !s.tick.locked then lockLost s else s

/-- The meaning of LOCK_LOSS_TIMEOUT (R18). -/
def execLockLossTimeout (t : Nat) (s : State) : Host.Outcome State Fault Refusal := .next (lockTimeout (s.arrive t))

/-- The state with the lock of the word clock at a rate set: 0, 1 and 2 are 48, 96 and 192 kHz. -/
def setClock (rate : Nat) (locked : Bool) (s : State) : State :=
  { s with tick := { s.tick with clockLock := s.tick.clockLock.set rate locked } }

/-- The meaning of WORD_CLOCK_LOCK (R18): after 10 ms within ±100 ppm of a rate the word clock is locked to it. -/
def execWordClockLock (rate : Timed Nat) (s : State) : Host.Outcome State Fault Refusal :=
  let s := s.arrive rate.time
  .next (if s.hearsTick then showLock (setClock rate.val true s) else s)

/-- Whether a rate is that of the job's own word clock. -/
def ownClock (rate : Nat) (s : State) : Bool := s.tick.source == 2 && !s.followsRing && planClock s.plan == rate

/-- WORD_CLOCK_UNLOCK: the word clock unlocks from a rate, but for the source of a job in RUNNING or DRAINING (R18). -/
def clockUnlock (rate : Nat) (s : State) : State :=
  if s.ticking && ownClock rate s then s
  else
    let s := showLock (setClock rate false s)
    if s.job.phase == .armed && ownClock rate s then lockLost s else s

/-- The meaning of WORD_CLOCK_UNLOCK (R18). -/
def execWordClockUnlock (rate : Timed Nat) (s : State) : Host.Outcome State Fault Refusal :=
  let s := s.arrive rate.time
  .next (if s.hearsTick then clockUnlock rate.val s else s)

/-! ### Deadlines and commit of a tick (R22 to R24) -/

/-- The command list of a core in the chosen path. -/
def State.list (s : State) (core : Nat) : List Bytes := commandList s.plan s.job.variant s.job.position s.job.path core

/-- Whether every command of the tick has committed. -/
def allCommitted (s : State) : Bool :=
  (List.range 64).all fun core => (s.compute.done.filter (·.1 == core)).length == s.compute.totals.getD core 0

/-- Whether the current tick has committed. -/
def State.tickCommitted (s : State) : Bool := s.job.committed == some s.tick.index

/-- COMPUTE_CUTOFF: a command still uncommitted at T(k) + 0.94 Tp; 0x1905 and Squall (R23). -/
def cutoff (s : State) : State :=
  if s.ticking && s.tick.boundary + s.tick.tp * 94 / 100 ≤ s.now && !s.tickCommitted && !allCommitted s then
    enterSquall none none (raiseAs 0x1905 false .compute true s.tick.index s)
  else s

/-- The meaning of COMPUTE_CUTOFF (R23). -/
def execComputeCutoff (t : Nat) (s : State) : Host.Outcome State Fault Refusal := .next (cutoff (s.arrive t))

/-- TICK_COMMIT_DEADLINE: the tick is not committed at T(k) + 0.98 Tp; 0x1906 and Squall (R23). -/
def commitDeadline (s : State) : State :=
  if s.ticking && s.tick.boundary + s.tick.tp * 98 / 100 ≤ s.now && !s.tickCommitted then
    enterSquall none none (raiseAs 0x1906 false .management true s.tick.index s)
  else s

/-- The meaning of TICK_COMMIT_DEADLINE (R23). -/
def execTickCommitDeadline (t : Nat) (s : State) : Host.Outcome State Fault Refusal :=
  .next (commitDeadline (s.arrive t))

/-- Whether READY(k) is held from every position (R332); true on a single module. -/
def readyHeld (s : State) : Bool :=
  !s.inRing || (List.range s.job.variant).all fun p => s.link.ready.contains (p, s.tick.index)

/-- Each frame's stage that the tick ran takes its path; the latent decoder's pixels are committed (R26, R360). -/
def advanceFrames (k : Nat) (s : State) : State :=
  let p := planP s.plan
  { s with job := { s.job with frames := s.job.frames.map fun f =>
      let i := k - f.accepted
      if f.accepted ≤ k && i ≤ p then { f with paths := f.paths.set i s.job.path, decoded := f.decoded || i == p } else f } }

/-- READY(k) goes to every member once the commands of tick k are complete (R332). -/
def sendReady (s : State) : State :=
  let k := s.tick.index
  if s.inRing && s.ticking && allCommitted s && s.link.readySent != some k then
    let s := (List.range s.job.variant).foldl (fun s p =>
      if p == s.job.position then s else sendTo 0x21 p (toLe 8 k) s) s
    { s with link := { s.link with readySent := some k, ready := s.link.ready ++ [(s.job.position, k)] } }
  else s

/-- TICK_COMMIT: tick k commits once every command has committed and the checkpoint stands in both regions (R24). -/
def commitTick (s : State) : State :=
  let s := sendReady s
  let k := s.tick.index
  if s.ticking && !s.tickCommitted && !s.compute.inReset && !s.compute.abandoned && allCommitted s && readyHeld s then
    let s := commitPictures (advanceFrames k s)
    let s := writeCheckpoint k s
    { s with job := { s.job with
        committed := some k, ckptTick := some k, akCommitted := s.job.ak } }
  else s

/-- The meaning of TICK_COMMIT (R24). -/
def execTickCommit (t : Nat) (s : State) : Host.Outcome State Fault Refusal := .next (commitTick (s.arrive t))

/-! ### Delivery (R31) and the end of the job (R37) -/

/-- A frame leaves the job. -/
def dropFrame (number : Nat) (s : State) : State :=
  { s with job := { s.job with
      frames := s.job.frames.filter (·.number != number), condFrames := s.job.condFrames.filter (·.1 != number) } }

/-- Whether an encoder is still at work on a frame, or is to begin on it. -/
def encoding (s : State) (number : Nat) : Bool := (encodeEntries s).any fun n =>
  ((s.stream n).queue.any fun q => q.1 == number) || match (s.stream n).busy with
    | some (f, _) => f == number | none => false

/-- The slot moves on. -/
def slotDone (s : State) : State := { s with job := { s.job with nextSlot := s.job.nextSlot + 1 } }

/-- DELIVERY_SLOT: one record for tick m, the frame accepted at T(m - L) or a gap record (R31, R40). A frame whose access
units are still being encoded waits for them. During a warm Dawn no gap record is written (R40). -/
def deliver (s : State) : State :=
  let m := s.job.nextSlot
  let l := s.latency
  if (s.ticking || s.job.phase == .squall) && m ≤ s.tick.index && l ≤ m && slotOpen s m then
    match s.job.frames.find? fun f => f.accepted + l == m with
    | none => if s.dawn.phase == .warm then s else slotDone (dueRecord (gapRecord (slotReason s m) m l) s)
    | some f =>
      if unitsCommitted s f then slotDone (dropFrame f.number (dueRecord (frameRecord f m) s))
      else if encoding s f.number || s.dawn.phase == .warm then s
      else
        let kept := match s.job.squall with
          | some q => !(f.decoded && f.accepted + planP s.plan + 1 ≤ q.tick)
          | none => false
        let s := slotDone (dueRecord (gapRecord .recovery m l) s)
        if kept then s else dropFrame f.number s
  else s

/-- The meaning of DELIVERY_SLOT (R31). -/
def execDeliverySlot (t : Nat) (s : State) : Host.Outcome State Fault Refusal := .next (deliver (s.arrive t))

/-- DRAIN_END: T(e + L - 1) + 2.0 ms is reached in DRAINING and the job ends in IDLE (R37). -/
def drainEnd (s : State) : State := match s.job.endTick with
  | some e =>
    let last := e + s.latency - 1
    if s.job.phase == .draining && (last < s.tick.index || (s.tick.index == last && s.tick.boundary + ms 2 ≤ s.now)) then
      let s := killMedia (killCompute s)
      let s := leaveJob { s with job := { s.job with phase := .idle, frames := [] } }
      fillBuckets (applyWatchEnd s)
    else s
  | none => s

/-- The meaning of DRAIN_END (R37). -/
def execDrainEnd (t : Nat) (s : State) : Host.Outcome State Fault Refusal := .next (drainEnd (s.arrive t))

/-! ### Recovery (R39, R409, R411, R414) -/

/-- Recovery of Squall q is complete at the present instant: 0x4302 with its duration (R411). -/
def finishRecovery (q : Squall) (s : State) : State :=
  let dur := toNs (s.now - q.detected) / 1000
  let s := { s with
    job := { s.job with squall := some { q with complete := some s.now } },
    integrity := { s.integrity with recoveryUs := dur % 4294967296 } }
  reportNewest (raise 0x4302 dur s)

/-- The checkpoint of tick c is restored; where it is unusable in both copies the job stops with 0x4305 (R409). With no
committed tick there is nothing to restore. -/
def restoreFor (q : Squall) (s : State) : State :=
  match q.c, s.job.ckptTick with
  | some _, some ck => match restoreCheckpoint q.die ck s with
    | some s => finishRecovery q s
    | none => stopJob .aborted false (raise 0x4305 ck s)
  | _, _ => finishRecovery q s

/-- RECOVERY_COMPLETE: reset done, self-test of the charged unit passed, the job's set written from the plan region into the
inactive bank and swapped in (R164), plan region copies checked, checkpoint restored (Table 15.8). A failed self-test classifies the unit permanent; a
table read-back mismatch is reported with 0x4209, no swap takes place and recovery is not complete: the load restarts with
the next RECOVERY_COMPLETE (R177). -/
def recoveryComplete (selfTestOk tablesOk : Bool) (s : State) : State :=
  match s.job.phase, s.job.squall with
  | .squall, some q =>
    if !q.resetDone || q.complete.isSome || s.dawn.phase == .warm then s
    else if !selfTestOk then match q.charged with
      | some u => classify u true s
      | none => s
    else
      let s := checkPlanRegions s
      let s := loadBank tablesOk (·.withSet (storedSet s)) s
      if tablesOk then restoreFor q s else s
  | _, _ => s

/-- The meaning of RECOVERY_COMPLETE (R39). -/
def execRecoveryComplete (t : Nat) (selfTestOk tablesOk : Bool) (s : State) : Host.Outcome State Fault Refusal :=
  .next (recoveryComplete selfTestOk tablesOk (s.arrive t))

/-- The code with which a Squall stops 3 s after first detection: 0x4304 while recovery is not complete, 0x1904 when it is and the
source is not locked; a job that waits for T(r) alone goes on (R39, R41, R414). -/
def timeoutCode (q : Squall) (s : State) : Option Nat :=
  if q.complete.isNone then some 0x4304 else if s.tick.locked then none else some 0x1904

/-- RECOVERY_TIMEOUT: 3 s after first detection the job stops by Dusk unless it only waits for T(r) (R41, R414). -/
def recoveryTimeout (s : State) : State :=
  match s.job.phase, s.job.squall with
  | .squall, some q =>
    if q.ring || s.now < q.detected + sec 3 then s
    else match timeoutCode q s with
      | some code => duskStop code (raise code 0 s)
      | none => s
  | _, _ => s

/-- The meaning of RECOVERY_TIMEOUT (R414). -/
def execRecoveryTimeout (t : Nat) (s : State) : Host.Outcome State Fault Refusal := .next (recoveryTimeout (s.arrive t))

end Sys2Proof.Machine
end

