-- ==== Sys2Proof/Machine/Power.lean ====
section
/-! DEFINITION. Power, cooling and safety: the energy profile (R427), Nimbus (R426, R431 to R434), Stratus with its
trips, watchdog and safe state (R436 to R441), PWR_EN, SENSE_N and the Stratus supply (R370, R443, R459). -/

namespace Sys2Proof.Machine

/-! ### The energy profile (Table 16.2) -/

/-- The energy profile of a ring variant. -/
def profileOf (p : Plan) (variant : Nat) : Bytes := (findSection p 0x0D variant 0xFF 0).getD []

/-- BINS. -/
def epBins (e : Bytes) : Nat := le e 0 2
/-- MEAN_W. -/
def epMean (e : Bytes) : Nat := le e 2 2
/-- INLET_MAX, 0.1 °C. -/
def epInletMax (e : Bytes) : Nat := le e 4 2
/-- FLOW_MIN, 0.01 L/min. -/
def epFlowMin (e : Bytes) : Nat := le e 6 2
/-- VIN_MIN, 0.1 V. -/
def epVinMin (e : Bytes) : Nat := le e 8 2
/-- IN_W[j]; IN_W[BINS] is IN_W[0] of the next tick. -/
def epIn (e : Bytes) (j : Nat) : Nat := le e (32 + 4 * (j % max 1 (epBins e))) 2
/-- LOAD_W[j]. -/
def epLoad (e : Bytes) (j : Nat) : Nat := le e (34 + 4 * j) 2

/-- Length of bin j: 0.5 ms, the last what is left of Tp. -/
def binLength (e : Bytes) (tp : Time) (j : Nat) : Time :=
  if j + 1 == epBins e then tp - (epBins e - 1) * us 500 else us 500

/-- The bin of an instant of the tick. -/
def binOf (e : Bytes) (offset : Time) : Nat := min (offset / us 500) (epBins e - 1)

/-- The input target at an instant of the tick: linear across each bin (R427), in W. -/
def inputTarget (e : Bytes) (tp offset : Time) : Nat :=
  let j := binOf e offset
  let a : Int := epIn e j
  let b : Int := epIn e (j + 1)
  let len : Int := max 1 (binLength e tp j)
  (a + (b - a) * ((offset - j * us 500 : Nat) : Int) / len).toNat

/-- The profile of the running job. -/
def State.profile (s : State) : Bytes := profileOf s.plan s.job.variant

/-! ### Severe readings (R436) -/

/-- The higher reading of a pair. -/
def hotter (p : Int × Int) : Int := max p.1 p.2

/-- The voltage reading further from 44.00 V. -/
def severeVoltage (p : Nat × Nat) : Nat :=
  if ((p.1 : Int) - 4400).natAbs < ((p.2 : Int) - 4400).natAbs then p.2 else p.1

/-- The valve position further from the command. -/
def severeValve (p : Nat × Nat) (command : Nat) : Nat :=
  if ((p.1 : Int) - command).natAbs < ((p.2 : Int) - command).natAbs then p.2 else p.1

/-- The highest junction. -/
def hottest (r : Readings) : Int := max (hotter r.junction0) (hotter r.junction1)

/-- Input power in W from the severe current (10 mA) and voltage (10 mV). -/
def wattsOf (r : Readings) : Nat := max r.current.1 r.current.2 * severeVoltage r.voltage / 10000

/-! ### Flow (R431) -/

/-- P of R431: MEAN_W from admission to 60 s after the job, else the measured input power. -/
def flowPower (s : State) : Nat :=
  let recent := match s.job.endedAt with | some t => s.now < t + sec 60 | none => false
  if s.hasJob || recent then epMean s.profile else s.nimbus.inputW

/-- 0.97 × P / (66.3 × (limit - T_in)) in 0.01 L/min, temperatures in 0.01 °C; the greatest flow where the inlet is at
the limit or above. -/
def flowFor (p : Nat) (limit inlet : Int) : Nat :=
  if limit ≤ inlet then 65535 else min 65535 (97000 * p / (663 * (limit - inlet).toNat))

/-! ### Predictions (R432) -/

/-- R_d in force, in 0.001 K/W: during the watch period never below the conservative 0.040. -/
def rdInForce (s : State) (r : Nat) : Nat := if s.integrity.watch then max 40 r else r

/-- A junction in 0.01 °C: the local coolant plus R_d × P_d, the coolant taken at the outlet (log 13). -/
def junctionFor (s : State) (r pdMw : Nat) : Int :=
  hotter s.nimbus.readings.outlet + (rdInForce s r * pdMw / 10000 : Nat)

/-- The outlet in 0.01 °C at a power and the measured flow (R429's relation). -/
def outletFor (inlet : Int) (p flow : Nat) : Int :=
  if flow == 0 then 32767 else min 32767 (inlet + (97000 * p / (663 * flow) : Nat))

/-- P_d, in mW, after an interval in µs at a load in W: half the load, filtered with the time constant of 100 ms. -/
def filterPd (load us_ pd : Nat) : Nat :=
  ((pd : Int) + ((load * 500 : Nat) - (pd : Int)) * (min us_ 100000 : Nat) / 100000).toNat

/-- The highest P_d within the horizon H = 2 × Tp + 200 ms (R432), in steps of 0.5 ms; `load` gives the load that many steps
ahead. -/
def peakPd (load : Nat → Nat) (tp : Time) (pd : Nat) : Nat :=
  ((List.range ((2 * tp + ms 200) / us 500)).foldl (fun (acc : Nat × Nat) i =>
    let p := filterPd (load i) 500 acc.1
    (p, max acc.2 p)) (pd, pd)).2

/-! ### Sampling (R426, R431) -/

/-- The codes of Table 16.3 whose condition holds on the present readings. Inlet and voltage limits are those of the
job's profile. -/
def conditionsNow (s : State) : List Nat :=
  let r := s.nimbus.readings
  let n := s.nimbus
  let inlet := hotter r.inlet
  let e := s.profile
  let valve := severeValve r.valve n.command
  [(0x5901, 10300 ≤ hottest r || 10500 ≤ n.predictJunction),
   (0x5902, 6300 ≤ hotter r.outlet || 6400 ≤ n.predictOutlet),
   (0x5903, n.store < -10000),
   (0x5904, r.flow < flowFor (flowPower s) 6300 inlet && 95 ≤ n.command),
   (0x5905, s.hasJob && (10 * epInletMax e : Int) < inlet),
   (0x5906, s.hasJob && min r.voltage.1 r.voltage.2 < 10 * epVinMin e),
   (0x5907, 8000 ≤ hotter r.connector),
   (0x5908, 15 < ((valve : Int) - n.command).natAbs)].filterMap fun p => if p.2 then some p.1 else none

/-- Confirm time of a Dusk condition (Table 16.3). -/
def confirmTime : Nat → Time
  | 0x5901 => ms 10 | 0x5902 => ms 100 | 0x5903 => 0 | 0x5906 => ms 20 | 0x5908 => sec 2 | _ => sec 1

/-- What the first stage would draw, in W (R426): in a job the target, less where the store is above +10 J (DESIGN CHOICE, log 13:
down to the load) and up to the current limit of 72 A where it is below -10 J; outside a job the load. -/
def wantedDraw (s : State) (r : Readings) (target : Nat) : Nat :=
  if !s.inJob then r.loadW
  else if 10000 ≤ s.nimbus.store then min target r.loadW
  else if s.nimbus.store < -10000 then 7200 * severeVoltage r.voltage / 10000
  else target

/-- The draw moves toward what is wanted by at most 250 W/ms (R425). -/
def slew (draw want dtUs : Nat) : Nat :=
  let step := 250 * dtUs / 1000
  if draw ≤ want then min want (draw + step) else max want (draw - step)

/-- NIMBUS_SAMPLE: readings taken, the store, energy, filtered load and predictions brought up to date (R426, R431,
R432), and the conditions of Table 16.3 followed since when they hold. -/
def sample (r : Readings) (s : State) : State :=
  let dt := match s.nimbus.sampled with | some t => s.now - t | none => 0
  let dtUs := dt / us 1
  let e := s.profile
  let off := s.now - s.tick.boundary
  let target := if s.inJob then inputTarget e s.tick.tp off else 0
  let w := wattsOf r
  let load := if s.inJob then epLoad e (binOf e off) else r.loadW
  let raw : Int := s.nimbus.store + ((w : Int) - r.loadW) * dtUs / 1000
  let excess := if 10000 < raw then (raw - 10000).toNat else 0
  let pd := s.nimbus.pd
  let (fl, s) := s.free
  let supply := if 100 ≤ min r.valve.1 r.valve.2 then r.flow else fl.toNat % 65536
  let s := { s with nimbus := { s.nimbus with
      readings := r, target := target, inputW := w, draw := slew s.nimbus.draw (wantedDraw s r target) dtUs, store := if 10000 < raw then 10000 else raw,
      ballast := if dtUs == 0 then 0 else excess * 1000 / dtUs, energyUj := s.nimbus.energyUj + w * dtUs,
      pd := filterPd load dtUs pd, sampled := some s.now, supply := supply,
      jobTime := if s.inJob then s.nimbus.jobTime + dt else s.nimbus.jobTime } }
  let ahead := fun i => if s.inJob then epLoad e (binOf e ((off + i * us 500) % max 1 s.tick.tp)) else r.loadW
  let peak := peakPd ahead s.tick.tp s.nimbus.pd
  let s := { s with nimbus := { s.nimbus with
      modelNew := s.nimbus.modelNew && s.nimbus.jobTime < sec 600,
      predictJunction := max (junctionFor s s.nimbus.r0 peak) (junctionFor s s.nimbus.r1 peak),
      predictOutlet := outletFor (hotter r.inlet) (if s.inJob then epMean e else w) r.flow } }
  let holds := conditionsNow s
  { s with nimbus := { s.nimbus with
      holding := holds.map fun c => match s.nimbus.holding.find? (·.1 == c) with
        | some p => p
        | none => (c, s.now),
      inForce := s.nimbus.inForce.filter fun c => c == 0x5909 || holds.contains c } }

/-- The meaning of NIMBUS_SAMPLE (R431). -/
def execNimbusSample (t : Nat) (readings : Readings) (s : State) : Host.Outcome State Fault Refusal :=
  let s := s.arrive t
  .next (if s.dawn.phase == .unpowered then s else sample readings s)

/-- VALVE_COMMAND_UPDATE: the feed-forward of Q_req through the valve's characteristic and the flow meter's feedback,
bounded by 30 % and 100 % (R430, R431). The feedback term is not given and is free (log 12). -/
def updateValve (s : State) : State :=
  let q := flowFor (flowPower s) 5500 (hotter s.nimbus.readings.inlet)
  let (fb, s) := s.free
  let c : Int := (Config.valveForFlow q : Int) + signed 8 fb.toNat
  { s with nimbus := { s.nimbus with command := (clampInt 30 100 c).toNat } }

/-- The meaning of VALVE_COMMAND_UPDATE (R431). -/
def execValveCommandUpdate (t : Nat) (s : State) : Host.Outcome State Fault Refusal :=
  let s := s.arrive t
  .next (if s.dawn.phase == .unpowered then s else updateValve s)

/-- A Dusk cause of class 0x5: reported, latched, and in a job the Dusk of the next boundary (R433). -/
def safetyDusk (code : Nat) (s : State) : State :=
  let s := { s with nimbus := { s.nimbus with
      duskCode := code, inForce := if s.nimbus.inForce.contains code then s.nimbus.inForce else s.nimbus.inForce ++ [code],
      valveLatch := s.nimbus.valveLatch || code == 0x5908, plausLatch := s.nimbus.plausLatch || code == 0x5909 } }
  let s := if code == 0x5908 then { s with stratus := { s.stratus with driveCut := true } } else s
  causeDusk code (raiseAs code (!s.hasJob) .management false 0 s)

/-- The meaning of NIMBUS_DUSK_REQUEST (R433): the condition has held for its confirm time and is not yet in force. -/
def execNimbusDuskRequest (t : Nat) (code : Nat) (s : State) : Host.Outcome State Fault Refusal :=
  let s := s.arrive t
  .next (match s.nimbus.holding.find? (·.1 == code) with
    | some (_, since) =>
      if since + confirmTime code ≤ s.now && !s.nimbus.inForce.contains code && s.dawn.phase == .passed then
        safetyDusk code s
      else s
    | none => s)

/-- Tolerance of a pair (Table 16.5) and its difference, in the units of Readings. -/
def pairDiff (r : Readings) : SensorPair → Nat × Nat
  | .junction0 => ((r.junction0.1 - r.junction0.2).natAbs, 300)
  | .junction1 => ((r.junction1.1 - r.junction1.2).natAbs, 300)
  | .inlet => ((r.inlet.1 - r.inlet.2).natAbs, 150)
  | .outlet => ((r.outlet.1 - r.outlet.2).natAbs, 150)
  | .valve => (((r.valve.1 : Int) - r.valve.2).natAbs, 8)
  | .connector => ((r.connector.1 - r.connector.2).natAbs, 500)
  | .current => (((r.current.1 : Int) - r.current.2).natAbs, 200)
  | .voltage => (((r.voltage.1 : Int) - r.voltage.2).natAbs, 50)
  | .bus => (((r.bus.1 : Int) - r.bus.2).natAbs, 20)

/-- The meaning of SENSOR_IMPLAUSIBLE (R436): a pair has disagreed beyond its tolerance for 1 s; Dusk with 0x5909. -/
def execSensorImplausible (t : Nat) (pair : SensorPair) (s : State) : Host.Outcome State Fault Refusal :=
  let s := s.arrive t
  let (d, tol) := pairDiff s.nimbus.readings pair
  .next (if tol < d && s.stratus.phase == .on && !s.nimbus.inForce.contains 0x5909 then safetyDusk 0x5909 s else s)

/-- Whether Nimbus reports conditions under which a job of a plan is refused with 0x1807 (R434). -/
def nimbusRefuses (s : State) (e : Bytes) : Bool :=
  let n := s.nimbus
  let r := n.readings
  let inlet := hotter r.inlet
  let junction := inlet + (0 : Int) + max (junctionRise n.r0) (junctionRise n.r1)
  !n.inForce.isEmpty || n.plausLatch || n.valveLatch || (10 * epInletMax e : Int) < inlet
    || min r.voltage.1 r.voltage.2 < 10 * epVinMin e || n.supply < epFlowMin e || 10300 ≤ junction
where
  /-- Rise of the junction above the inlet at the profile's mean: half of it per die. -/
  junctionRise (rd : Nat) : Int := (rdInForce s rd * (epMean e * 500) / 10000 : Nat)

/-! ### Power off and on (R370, R440, R443, R459) -/

/-- Rails off: everything volatile is lost; the flash, the weight store, host memory, Stratus, the latches and the I3C
dynamic addresses stay (R454). -/
def powerOff (s : State) : State :=
  let kept : SidebandState := { dynManagement := s.sideband.dynManagement, dynStratus := s.sideband.dynStratus }
  let s := coldReset s
  { s with
    dawn := { ga := s.dawn.ga },
    host := { perstN := s.host.perstN },
    sideband := kept,
    stratus := { s.stratus with stage := false, switch := false, wdogSeq := none, wdogAt := none, wdogMisses := 0 } }

/-- PWR_EN is evaluated: a cold Dawn begins at S with the input voltage in its operating range, once SENSE_N has been closed for
100 ms (R370); in the safe state Dawn
is held with 0x5D01 (R440). -/
def evaluatePower (s : State) : State :=
  let closed := match s.stratus.senseClosed with | some t => t + ms 100 ≤ s.now | none => false
  if s.stratus.supply && s.stratus.pwrEn && s.stratus.vinOk && closed && s.dawn.phase == .unpowered then
    match s.stratus.phase with
    | .standby => coldReset s
    | .safe => { s with stratus := { s.stratus with holdCode := 0x5D01 } }
    | .on => s
  else s

/-- The meaning of PWR_EN_ASSERT (R370). PWR_EN is cycled when it was deasserted before: the latches clear (R434), the
management processor's enable returns (R439), and low for 1 s it counts for the safe state (R440). `vinOk` says whether the input
voltage lies in its operating range, 40.0 V to 50.0 V (Table 16.1). -/
def execPwrEnAssert (vinOk : Timed Bool) (s : State) : Host.Outcome State Fault Refusal :=
  let s := s.arrive vinOk.time
  .next (match s.stratus.pwrLow with
    | none => evaluatePower { s with stratus := { s.stratus with vinOk := vinOk.val } }
    | some low =>
      evaluatePower { s with
        stratus := { s.stratus with
          pwrEn := true, vinOk := vinOk.val, pwrLow := none, mpEnable := true, healthy := true, driveCut := false,
          cycled := s.stratus.cycled || low + sec 1 ≤ s.now },
        nimbus := { s.nimbus with valveLatch := false, plausLatch := false } })

/-- Power is removed without a trip code and without FAULT_N, and valve drive is cut for 60 s (Table 16.8). -/
def removePower (s : State) : State :=
  let s := powerOff s
  { s with
    stratus := { s.stratus with
      phase := if s.stratus.phase == .safe then .safe else .standby, driveCutUntil := some (s.now + sec 60) },
    sideband := { s.sideband with faultN := s.stratus.phase == .safe, ready := false } }

/-- The meaning of PWR_EN_DEASSERT (R443). -/
def execPwrEnDeassert (t : Nat) (s : State) : Host.Outcome State Fault Refusal :=
  let s := s.arrive t
  .next (if s.stratus.supply && s.stratus.pwrEn then
      let s := if s.dawn.phase == .unpowered then s else removePower s
      { s with stratus := { s.stratus with pwrEn := false, pwrLow := some s.now } }
    else s)

/-- The meaning of SENSE_N_OPEN (R459): as for a deassertion of PWR_EN, within 100 µs; not a trip. -/
def execSenseNOpen (t : Nat) (s : State) : Host.Outcome State Fault Refusal :=
  let s := s.arrive t
  .next (let s := if s.dawn.phase == .unpowered then s else removePower s
         { s with stratus := { s.stratus with senseClosed := none } })

/-- The meaning of SENSE_N_CLOSED (R459): closed for 100 ms, PWR_EN is evaluated again. -/
def execSenseNClosed (t : Nat) (s : State) : Host.Outcome State Fault Refusal :=
  let s := s.arrive t
  .next (evaluatePower { s with stratus := { s.stratus with
      senseClosed := s.stratus.senseClosed.or (some (s.now - ms 100)) } })

/-! ### Trips (R437 to R441) -/

/-- Whether a code is a trip that Stratus decides, and whether it also opens the input switch (Table 16.6). -/
def tripPaths : Nat → Option Bool
  | 0x5A01 => some true | 0x5A02 => some true | 0x5A03 => some true | 0x5A04 => some false | 0x5A05 => some true
  | 0x5A06 => some false | 0x5A07 => some false | 0x5A08 => some true | 0x5A09 => some true | 0x5A0A => some true
  | 0x5A0B => some true | _ => none

/-- Whether the condition of a trip of Table 16.6 holds on a set of readings, by the more severe one of each pair (R436). An
internal fault of Stratus (0x5A0B) shows on no sensor. -/
def tripHolds (r : Readings) : Nat → Bool
  | 0x5A01 => 8000 ≤ max r.current.1 r.current.2
  | 0x5A02 => 7400 < max r.current.1 r.current.2
  | 0x5A03 => 5200 < max r.voltage.1 r.voltage.2
  | 0x5A04 => min r.voltage.1 r.voltage.2 < 3700
  | 0x5A05 => 400 < r.rise
  | 0x5A06 => 11500 ≤ hottest r
  | 0x5A07 => 6500 ≤ hotter r.outlet
  | 0x5A08 => 9000 ≤ hotter r.connector
  | 0x5A09 => r.leak.1 || r.leak.2
  | 0x5A0A => min r.bus.1 r.bus.2 < 980 || 1250 < max r.bus.1 r.bus.2
  | _ => false

/-- Whether no trip condition holds, for the exit from the safe state (R440). The rails are off in the safe state, so the
intermediate bus, at 0 V there, is not one of them (DEDUCED, log 29). -/
def noTripHolds (r : Readings) : Bool :=
  !([0x5A01, 0x5A02, 0x5A03, 0x5A04, 0x5A05, 0x5A06, 0x5A07, 0x5A08, 0x5A09].any (tripHolds r))

/-- An entry of the trip memory; the last 16 are kept (R441). -/
def recordTrip (code : Nat) (s : State) : State :=
  { s with stratus := { s.stratus with
      trips := (⟨code, s.now, s.nimbus.readings, s.nimbus.command, false⟩ :: s.stratus.trips).take 16, tripAt := some s.now } }

/-- A trip: power removed along its paths, valve drive cut for at least 60 s, the safe state latched (R437, R440). -/
def trip (code : Nat) (opensSwitch : Bool) (s : State) : State :=
  let switch := s.stratus.switch && !opensSwitch
  let s := recordTrip code s
  let s := powerOff s
  { s with
    stratus := { s.stratus with
      phase := .safe, stage := false, switch := switch, cycled := false, holdCode := 0,
      driveCutUntil := some (s.now + sec 60) },
    sideband := { s.sideband with faultN := true, ready := false } }

/-- The meaning of STRATUS_TRIP (R437): a condition that has held for its confirm time on the readings given. -/
def execStratusTrip (t : Nat) (input : TripInput) (s : State) : Host.Outcome State Fault Refusal :=
  let s := s.arrive t
  let code := input.code
  .next (match tripPaths code with
    | some sw =>
      if s.stratus.supply && code != 0x5A01 && (code == 0x5A0B || tripHolds input.readings code) then
        trip code sw { s with nimbus := { s.nimbus with readings := input.readings } }
      else s
    | none => s)

/-- The meaning of HW_OVERCURRENT_TRIP (R437): the comparator acts on both paths and latches 0x5A01. -/
def execHwOvercurrentTrip (t : Nat) (s : State) : Host.Outcome State Fault Refusal :=
  let s := s.arrive t
  .next (if s.stratus.supply then trip 0x5A01 true s else s)

/-- The meaning of POWER_STAGE_CONDUCTING (R438): the stage still draws current 100 µs after its disable, so the input
switch opens with 0x5A0C. -/
def execPowerStageConducting (t : Nat) (s : State) : Host.Outcome State Fault Refusal :=
  let s := s.arrive t
  .next (if s.stratus.supply && !s.stratus.stage && s.stratus.switch then trip 0x5A0C true s else s)

/-- The meaning of SAFE_STATE_EXIT (R440): PWR_EN cycled, 60 s since the trip, and no condition of Table 16.6 on either sensor of
any pair; Dawn may start. -/
def execSafeStateExit (readings : Timed Readings) (s : State) : Host.Outcome State Fault Refusal :=
  let s := s.arrive readings.time
  let waited := match s.stratus.tripAt with | some a => a + sec 60 ≤ s.now | none => true
  .next (if s.stratus.phase == .safe && s.stratus.cycled && s.stratus.pwrEn && waited && noTripHolds readings.val then
      evaluatePower { s with
        nimbus := { s.nimbus with readings := readings.val },
        stratus := { s.stratus with phase := .standby, holdCode := 0, switch := false },
        sideband := { s.sideband with faultN := false } }
    else s)

/-- The meaning of STRATUS_SUPPLY_LOSS (R436): below 30 V Stratus and every module output lose power, and the I3C dynamic
addresses are lost. -/
def execStratusSupplyLoss (t : Nat) (s : State) : Host.Outcome State Fault Refusal :=
  let s := s.arrive t
  let off := powerOff s
  .next { off with
    stratus := { off.stratus with
      supply := false, phase := .standby, pwrEn := false, pwrLow := some s.now, cycled := false, senseClosed := none,
      holdCode := 0 },
    sideband := {} }

/-- The meaning of STRATUS_SUPPLY_RETURN (R436): Stratus starts on standby with its trip memory and PWR_EN is evaluated. -/
def execStratusSupplyReturn (t : Nat) (pins : SupplyPins) (vinOk : Bool) (s : State) : Host.Outcome State Fault Refusal :=
  let s := s.arrive t
  .next (if s.stratus.supply then s else evaluatePower { s with stratus := { s.stratus with
      supply := true, phase := .standby, pwrEn := pins.pwrEn, vinOk := vinOk,
      pwrLow := if pins.pwrEn then none else some s.now,
      senseClosed := if pins.senseClosed then some s.now else none, healthy := true, mpEnable := true } })

/-! ### The safety mirror (R444) -/

/-- SAF_STATUS as Stratus holds it (Table 16.9). -/
def safStatus (s : State) : Nat :=
  packFields [(s.nimbus.duskCode, 16, 16), (bitOf s.nimbus.plausLatch, 4, 1), (bitOf s.nimbus.valveLatch, 3, 1),
    (bitOf s.stratus.pathsOk, 2, 1), (bitOf (s.stratus.wdogMisses == 0 && s.stratus.wdogAt.isSome), 1, 1),
    (bitOf s.stratus.healthy, 0, 1)]

/-- SAF_LAST_TRIP as Stratus holds it (Table 16.10). -/
def safLastTrip (s : State) : Nat := match s.stratus.trips.head? with
  | some e => packFields [(e.code, 16, 16), (min 65535 ((s.now - e.moment) / sec 60), 0, 16)]
  | none => 0

/-- SAF_SENSOR_n (Table 16.11); both registers of a die show its one pair of Table 16.5 (log 29). -/
def safSensor (s : State) (n : Nat) : Nat :=
  let r := s.nimbus.readings
  let p := match n with
    | 0 => r.junction0 | 1 => r.junction0 | 2 => r.junction1 | 3 => r.junction1
    | 4 => r.inlet | 5 => r.outlet | _ => r.connector
  packFields [(half p.2, 16, 16), (half p.1, 0, 16)]

/-- The SAF_ registers as Stratus holds them: status, newest trip, sensors. -/
def safMirror (s : State) : List Nat := safStatus s :: safLastTrip s :: (List.range 7).map (safSensor s)

/-! ### Watchdog (R439) -/

/-- The meaning of WATCHDOG_SERVICE (R439): a service outside 5 ms to 15 ms, with a wrong sequence number or CRC, is a
miss. The SAF_ registers then mirror Stratus (R444). -/
def execWatchdogService (t seq : Nat) (crcOk : Bool) (s : State) : Host.Outcome State Fault Refusal :=
  let s := s.arrive t
  let window := match s.stratus.wdogAt with
    | some a => a + ms 5 ≤ s.now && s.now ≤ a + ms 15 | none => true
  let order := match s.stratus.wdogSeq with | some q => seq == q + 1 | none => true
  let good := window && order && crcOk
  .next (if s.stratus.supply && s.stratus.phase == .on then
      let s := { s with stratus := { s.stratus with
        wdogAt := some s.now, wdogSeq := some seq, wdogMisses := if good then 0 else s.stratus.wdogMisses + 1 } }
      { s with host := { s.host with saf := safMirror s } }
    else s)

/-- Consecutive misses at the present instant: those counted, and one for each service overdue. -/
def missesNow (s : State) : Nat := match s.stratus.wdogAt with
  | some a => s.stratus.wdogMisses + (if a + ms 15 < s.now then 1 + (s.now - a - ms 15) / ms 10 else 0)
  | none => s.stratus.wdogMisses

/-- The meaning of WATCHDOG_MISS (R439): two consecutive misses force a module reset with 0x5C01, and valve drive is cut
until the warm Dawn completes. -/
def execWatchdogMiss (t : Nat) (s : State) : Host.Outcome State Fault Refusal :=
  let s := s.arrive t
  .next (if s.stratus.supply && s.stratus.phase == .on && 2 ≤ missesNow s then
      let s := raiseAs 0x5C01 false .stratus true 0 s
      forceModuleReset { s with stratus := { s.stratus with
        driveCut := true, wdogMisses := 0, wdogAt := none, wdogSeq := none } }
    else s)

/-- The meaning of STRATUS_ANSWER_MISSING (R439): three answers missing; the management processor treats Stratus as
failed with 0x5C02, kills every command, disables the power stage and asserts FAULT_N. -/
def execStratusAnswerMissing (t : Nat) (s : State) : Host.Outcome State Fault Refusal :=
  let s := s.arrive t
  .next (if s.dawn.phase == .passed && s.stratus.healthy then
      let s := raiseAs 0x5C02 false .management true 0 s
      let off := powerOff (killMedia (killCompute s))
      { off with
        stratus := { off.stratus with healthy := false, mpEnable := false, phase := .standby },
        sideband := { off.sideband with faultN := true } }
    else s)

end Sys2Proof.Machine
end

