-- ==== Sys2Proof/Machine/Images.lean ====
section
/-! DEFINITION. The configuration flash and its images: boot records (R378), image verification (R379 to R382), the body
header and the plans of a plan image (R383 to R385). -/

namespace Sys2Proof.Machine

/-! ### Boot record (Table 14.5) -/

/-- What a boot record says: per kind (firmware, plan image) the active slot, a pending image and a trial begun. -/
structure BootRecord where
  seq      : Nat := 0
  active   : Nat × Nat := (0, 0)
  pending  : Bool × Bool := (false, false)
  tries    : Bool × Bool := (false, false)
deriving DecidableEq, Repr

/-- Whether a copy of the boot record has a valid TAG and CRC. -/
def bootValid (b : Bytes) : Bool := b.take 4 == ascii "A7BR" && le b 60 4 == crc32c (slice b 0 60) && 64 ≤ b.length

/-- A boot record from its bytes. -/
def bootParse (b : Bytes) : BootRecord :=
  let f := byteAt b 8
  let p := byteAt b 9
  { seq := le b 4 4, active := (f % 2, p % 2), pending := (bitAt f 1, bitAt p 1), tries := (bitAt f 2, bitAt p 2) }

/-- The bytes of a boot record. -/
def BootRecord.bytes (r : BootRecord) : Bytes :=
  let b := ascii "A7BR" ++ toLe 4 r.seq
    ++ toLe 1 (r.active.1 + 2 * bitOf r.pending.1 + 4 * bitOf r.tries.1)
    ++ toLe 1 (r.active.2 + 2 * bitOf r.pending.2 + 4 * bitOf r.tries.2) ++ zeros 50
  b ++ toLe 4 (crc32c b)

/-- Which copy is in force: the valid one with the larger SEQ (R378). -/
def bootCopy (f : Flash) : Option Nat :=
  match bootValid f.boot0, bootValid f.boot1 with
  | true, true => if le f.boot0 4 4 < le f.boot1 4 4 then some 1 else some 0
  | true, false => some 0
  | false, true => some 1
  | false, false => none

/-- The boot record in force; slot A and nothing pending when neither copy is valid (R378). -/
def bootRecord (f : Flash) : BootRecord := match bootCopy f with
  | some 0 => bootParse f.boot0
  | some _ => bootParse f.boot1
  | none => {}

/-- A new boot record, written to the other copy with SEQ + 1 (R378). -/
def writeBoot (r : BootRecord) (s : State) : State :=
  let old := bootRecord s.flash
  let b := { r with seq := ptrAdd old.seq 1 }.bytes
  match bootCopy s.flash with
  | some 0 => { s with flash := { s.flash with boot1 := b } }
  | _ => { s with flash := { s.flash with boot0 := b } }

/-! ### Slots -/

/-- The contents of a slot of a kind: 0 firmware, 1 plan image, 2 safety parameter block. -/
def slotImage (f : Flash) (kind slot : Nat) : Bytes := match kind, slot with
  | 0, 0 => f.fwA | 0, _ => f.fwB | 1, 0 => f.planA | 1, _ => f.planB | _, _ => f.safety

/-- The flash with an image programmed into a slot. -/
def putSlot (f : Flash) (kind slot : Nat) (img : Bytes) : Flash := match kind, slot with
  | 0, 0 => { f with fwA := img } | 0, _ => { f with fwB := img }
  | 1, 0 => { f with planA := img } | 1, _ => { f with planB := img } | _, _ => { f with safety := img }

/-- Size of a slot (Table 14.4). -/
def slotSize : Nat → Nat
  | 0 => 0x1000000 | 1 => 0x6000000 | _ => 0x10000

/-! ### Images (Tables 14.6, 14.7) -/

/-- TAG of a kind. -/
def imageTag : Nat → Bytes
  | 0 => ascii "A7FW" | 1 => ascii "A7PI" | _ => ascii "A7SP"
/-- ROOT_INDEX. -/
def imgRoot (i : Bytes) : Nat := byteAt i 6
/-- ROOT_FLOOR. -/
def imgFloor (i : Bytes) : Nat := byteAt i 7
/-- SVN. -/
def imgSvn (i : Bytes) : Nat := le i 8 4
/-- REVISION. -/
def imgRevision (i : Bytes) : Nat := le i 12 4
/-- BODY_DIGEST. -/
def imgDigest (i : Bytes) : Bytes := slice i 24 48
/-- SIGNER_ID. -/
def imgSigner (i : Bytes) : Bytes := slice i 72 48
/-- The body. -/
def imgBody (i : Bytes) : Bytes := slice i 0x4000 (imgBodyLen i)
/-- SIGNER_ED_PUB. -/
def imgEdPub (i : Bytes) : Bytes := slice i 0x200 32
/-- SIGNER_MLDSA_PUB. -/
def imgMldsaPub (i : Bytes) : Bytes := slice i 0x220 1952
/-- The endorsement certificate. -/
def imgCert (i : Bytes) : Bytes := slice i 0x2000 5632
/-- The measurement: SHA-384 of the header. -/
def measurement (i : Bytes) : Bytes := Config.sha384 (slice i 0 512)

/-- Newest plan format revision that a firmware image admits. -/
def fwPlanFormat (fw : Bytes) : Nat := imgRevision fw / 65536
/-- Firmware revision. -/
def fwRevision (fw : Bytes) : Nat := imgRevision fw % 65536

/-- The roots and the revocation list that verification uses (R380, R381): those that a firmware body carries. -/
structure Trust where
  root    : Nat → Bytes
  revoked : List Nat

/-- The trust of a firmware image. -/
def trustOf (fw : Bytes) : Trust := ⟨Config.fwRoot (imgBody fw), Config.fwRevoked (imgBody fw)⟩

/-- Whether a certificate verifies for a role (R382). -/
def verifyCert (c : Bytes) (role : Nat) (tr : Trust) (floor : Nat) : Bool :=
  let i := byteAt c 6
  let key := tr.root i
  let msg := ascii "A7CT" ++ zeros 4 ++ slice c 0 2048
  c.take 4 == ascii "A7CT" && byteAt c 4 == 1 && byteAt c 5 == role && i ≤ 3 && floor ≤ i
    && byteAt c 7 == 0 && zeroBytes c 20 12 && zeroBytes c 2016 32 && zeroBytes c 5421 211
    && (role != 2 || le c 16 4 == 0) && !tr.revoked.contains (le c 8 8)
    && Config.sha384 (slice key 0 1984) == Config.rootHash i
    && Config.ed25519Verify (slice key 0 32) msg (slice c 2048 64)
    && Config.mldsa65Verify (slice key 32 1952) msg (slice c 2112 3309)

/-- Whether the header of an image has the form of its kind, and every reserved byte is zero (R380). -/
def imageForm (img : Bytes) (kind : Nat) : Bool :=
  img.take 4 == imageTag kind && byteAt img 4 == 1 && byteAt img 5 == kind && zeroBytes img 124 388
    && le img 120 4 == (if kind == 1 then 5632 else 0)
    && (kind == 0 || imgFloor img == 0) && (kind != 1 || imgRoot img == 0)
    && zeroBytes img 0x16ED 0x913 && (kind == 1 || zeroBytes img 0x2000 5632) && zeroBytes img 0x3600 0xA00
    && imgBodyLen img + 16384 ≤ slotSize kind

/-- The counter that holds the SVN of a kind (R388). -/
def svnCounter (f : Flash) : Nat → Nat
  | 0 => f.fwSvn | 1 => f.planSvn | _ => 0

/-- Whether the signer of an image is the one that may sign it: a root, or the subject of an endorsement (R380). -/
def signerOk (img : Bytes) (kind : Nat) (tr : Trust) (floor : Nat) : Bool :=
  if kind == 1 then
    let c := imgCert img
    verifyCert c 1 tr floor && Config.sha384 (slice c 32 1984) == imgSigner img
  else imgRoot img ≤ 3 && floor ≤ imgRoot img && imgSigner img == Config.rootHash (imgRoot img)

/-- verify_image of R380 without its lower bound on SVN. -/
def verifyForm (img : Bytes) (kind : Nat) (f : Flash) (tr : Trust) : Bool :=
  let m := imageTag kind ++ zeros 4 ++ slice img 0 512
  imageForm img kind && Config.sha384 (imgBody img) == imgDigest img
    && Config.sha384 (slice img 0x200 1984) == imgSigner img && signerOk img kind tr f.rootFloor
    && Config.ed25519Verify (imgEdPub img) m (slice img 0x9C0 64)
    && Config.mldsa65Verify (imgMldsaPub img) m (slice img 0xA00 3309)
    && imgSvn img ≤ svnCounter f kind + 16

/-- verify_image of R380. -/
def verifyImage (img : Bytes) (kind : Nat) (f : Flash) (tr : Trust) : Bool :=
  verifyForm img kind f tr && svnCounter f kind ≤ imgSvn img

/-! ### Plan image body (R383 to R385) -/

/-- PLAN_COUNT. -/
def bodyPlanCount (b : Bytes) : Nat := le b 0 2

/-- The layout that a body header gives (Table 14.9). -/
def bodyLayout (b : Bytes) : Layout :=
  { planBase0 := le b 8 8, planBase1 := le b 16 8, planSize := le b 24 8, poolBase := le b 32 8,
    poolFrames := le b 40 4, mediaBase := le b 48 8, ckptBase0 := le b 56 8, ckptBase1 := le b 64 8,
    ckptSize := le b 72 8 }

/-- Offset and length of plan i in a body. -/
def bodyPlanRange (b : Bytes) (i : Nat) : Nat × Nat := (le b (128 + 16 * i) 8, le b (136 + 16 * i) 8)

/-- Whether the body header of a plan image is valid (R383). -/
def bodyOk (b : Bytes) : Bool :=
  let n := bodyPlanCount b
  let l := bodyLayout b
  let plans := (List.range n).map (bodyPlanRange b)
  1 ≤ n && n ≤ 16 && plans.all (fun r => r.1 % 16 == 0 && r.1 + r.2 ≤ b.length) && rangesApart plans
    && (layoutRegions l).all (fun r => r.1 % 1048576 == 0 && r.1 + r.2 ≤ exchangeBase) && rangesApart (layoutRegions l)
    && l.planBase0 < dieBytes && l.ckptBase0 < dieBytes
    && dieBytes ≤ l.planBase1 && dieBytes ≤ l.ckptBase1
    && b.length ≤ l.planSize && 1 ≤ l.poolFrames && l.poolFrames ≤ 131072

/-- SECTIONS of a plan. -/
def planSectionCount (p : Bytes) : Nat := le p 6 2

/-- Section entry i of a plan's bytes (Table 14.11). -/
def sectionEntry (p : Bytes) (i : Nat) : Bytes := slice p (128 + 16 * i) 16

/-- A plan from its bytes. -/
def parsePlan (p : Bytes) : Plan :=
  { header := slice p 0 128,
    sections := (List.range (planSectionCount p)).map fun i =>
      let e := sectionEntry p i
      { type := le e 0 2, variant := byteAt e 2, position := byteAt e 4, index := le e 6 2,
        content := slice p (le e 8 4) (le e 12 4), place := le e 8 4 } }

/-- The bytes of plan i of a body. -/
def bodyPlan (b : Bytes) (i : Nat) : Bytes := let r := bodyPlanRange b i; slice b r.1 r.2

/-! ### Identity (R386, R387) -/

/-- The Ed25519 private key. -/
def idEdSeed (k : Bytes) : Bytes := Config.hkdf k (ascii "A7 id ed25519") 32
/-- The ML-DSA-65 seed. -/
def idMldsaSeed (k : Bytes) : Bytes := Config.hkdf k (ascii "A7 id mldsa65") 32
/-- The root key of the replay-protected counters. -/
def idCounterKey (k : Bytes) : Bytes := Config.hkdf k (ascii "A7 rpmc") 32
/-- The check value. -/
def idCheck (k : Bytes) : Bytes := Config.hkdf k (ascii "A7 check") 48
/-- The identity public keys: Ed25519, then ML-DSA-65. -/
def idPublic (k : Bytes) : Bytes :=
  slice (Config.ed25519Public (idEdSeed k)) 0 32 ++ slice (Config.mldsa65Public (idMldsaSeed k)) 0 1952

/-- Whether the device certificate verifies and endorses the identity (R387). -/
def deviceCertOk (f : Flash) (tr : Trust) (k : Bytes) : Bool :=
  verifyCert f.cert 2 tr f.rootFloor && slice f.cert 32 1984 == idPublic k

end Sys2Proof.Machine
end

