-- ==== Sys2Proof/Machine/Integrity.lean ====
section
/-! DEFINITION. Detected errors and their levels (R395 to R399), partition resets (R396, R397), the pages of the fault
history (R415, R417) and the end of the watch period (R419). -/

namespace Sys2Proof.Machine

/-! ### Level 1 -/

/-- The in-flight command of a core with a CMD_INDEX. -/
def State.run (s : State) (core idx : Nat) : Option Run :=
  s.compute.runs.find? fun r => r.core == core && cmdIndex r.cmd == idx

/-- The state with the in-flight command of the same core and place replaced. -/
def State.setRun (s : State) (r : Run) : State :=
  { s with compute := { s.compute with
      runs := s.compute.runs.map fun x => if x.core == r.core && x.place == r.place then r else x } }

/-- The guests of a command, its duplicate and its arbiter run, are dropped. -/
def dropGuests (core place : Nat) (s : State) : State :=
  { s with compute := { s.compute with
      guests := s.compute.guests.filter fun g => !(g.core == core && g.place == place),
      edge := s.compute.edge.map fun h =>
        if s.compute.guests.any (fun g => g.core == core && g.place == place && g.issued && cmdOpcode g.cmd == 0x0D
          && h == some g.host) then none else h } }

/-- A command is killed and returned to the unissued state (R55): its engine stops if it still runs, and its guests are
dropped. -/
def killRun (r : Run) (s : State) : State :=
  dropGuests r.core r.place { s with compute := { s.compute with
      runs := s.compute.runs.filter fun x => !(x.core == r.core && x.place == r.place),
      reissue := s.compute.reissue ++ [(r.core, r.place, r.cmd)],
      edge := s.compute.edge.map fun h =>
        if h == some r.core && cmdOpcode r.cmd == 0x0D && r.phase == .running then none else h } }

/-- A level-1 recovery: the kill and re-run of a command, once per tick; a second one in a tick leads to Squall with
0x4301 (R398). In a ring the kill starts the common abort (R399); a collective of a ring of one is not re-run on its own either:
its kill leads to Squall (R327; log 51). -/
def levelOne (r : Run) (s : State) : State :=
  if s.dawn.phase == .eclipse then s
  else if s.inRing then startAbort 0x3A04 false (some (unitOf 1 r.core)) none s
  else if classOf (cmdOpcode r.cmd) == .link then enterSquall (some (unitOf 1 r.core)) none s
  else if s.job.level1Used then
    enterSquall (some (unitOf 1 r.core)) none (raiseAs 0x4301 false .management true (cmdArg r.core (cmdIndex r.cmd)) s)
  else killRun r (countKind 8 { s with job := { s.job with level1Used := true } })

/-! ### Corrected and uncorrectable errors -/

/-- The meaning of ECC_CORRECTED (R395): corrected, counted and reported, in no history. -/
def execEccCorrected (t : Nat) (kind : CorrectedKind) (partition : Nat) (s : State) :
    Host.Outcome State Fault Refusal :=
  let s := s.arrive t
  let src := Source.ofPartition partition
  .next (match kind with
    | .sram => raiseAs 0x4202 false src false 0 (countKind 0 s)
    | .directory => raiseAs 0x4202 false .tier false 0 (countKind 0 s)
    | .hbm => raiseAs 0x4204 false src false 0 (countKind 2 s))

/-- An error in HBM poisons its word; one in a pool frame makes its entry absent, to be filled again on its next request
(Table 10.13). -/
def poison (addr : Nat) (s : State) : State :=
  let w := addr / 32 * 32
  let s := { s with integrity := { s.integrity with
      poisoned := if s.integrity.poisoned.contains w then s.integrity.poisoned else s.integrity.poisoned ++ [w] } }
  let base := s.dawn.layout.poolBase
  if base ≤ addr && addr < base + s.tier.frames * 1048576 then
    let frame := (addr - base) / 1048576
    match s.tier.entries.find? fun p => p.2.status == .resident && p.2.frame == frame with
    | some (i, _) => setStatus i .absent s
    | none => s
  else s

/-- A counted error that needs level 2, and the Squall of the Compute partition (R397). -/
def levelTwo (code : Nat) (unit site : BitVec 32) (die : Option Nat) (arg : Nat) (s : State) : State :=
  enterSquall (some unit) die (countError code .compute true unit site arg s)

/-- A failure of the die-to-die bridge: a counted error of class 0x07, permanent at once (R48, R418). The manual gives it
no code, so that of its history entry is free within the classes 0x1 to 0x8 of R10 (log 14). -/
def bridgeFault (s : State) : State :=
  let (c, s) := s.free
  classify (unitOf 7 0) false (enterHistory (0x1000 + c.toNat % 0x8000) (unitOf 7 0) noSite s)

/-- The pseudo-channel that holds a physical address, as a unit of Table 15.13 (R257). -/
def pchanUnit (a : Nat) : BitVec 32 := unitOf 4 (32 * stackOf a + pchanOf a)

/-- The index of the 32-byte word at a physical address within its pseudo-channel, the site of Table 15.13. -/
def pchanSite (a : Nat) : BitVec 32 := BitVec.ofNat 32 (a % dieBytes / 256 / 128 * 8 + a % 256 / 32)

/-- The meaning of UNCORRECTABLE_ERROR (R397). -/
def execUncorrectableError (t : Nat) (kind : UncorrectableKind) (unit site : BitVec 32) (s : State) :
    Host.Outcome State Fault Refusal :=
  let s := s.arrive t
  .next (if s.dawn.phase == .eclipse then s else match kind with
    | .sram => levelTwo 0x4203 unit site none 0 (countKind 1 s)
    | .control => levelTwo 0x4203 unit site none 0 (countKind 4 s)
    | .directory e => levelTwo 0x4203 unit site none e (setStatus e .absent (countKind 1 s))
    | .hbm a => levelTwo 0x4205 (pchanUnit a) (pchanSite a) (some (dieOf a)) a (poison a (countKind 3 s))
    | .bridge => bridgeFault s)

/-! ### Level 3 (R397) -/

/-- A fault of the management processor or of a clock loop: counted, then a module reset forced by Stratus. -/
def levelThree (code : Nat) (unit : BitVec 32) (s : State) : State :=
  if s.dawn.phase == .eclipse then s
  else forceModuleReset (countError code .management true unit noSite 0 s)

/-- The meaning of MP_LOCKSTEP_FAULT (R397). -/
def execMpLockstepFault (t : Nat) (s : State) : Host.Outcome State Fault Refusal :=
  .next (levelThree 0x420A (unitOf 9 0) (s.arrive t))

/-- The meaning of CLOCK_LOCK_LOSS (R47). -/
def execClockLockLoss (t loop : Nat) (s : State) : Host.Outcome State Fault Refusal :=
  .next (levelThree 0x420B (unitOf 10 loop) (s.arrive t))

/-! ### Partition resets (R397) -/

/-- Whether a partition is in reset for a fault of its own. -/
def State.resetting (s : State) (p : Nat) : Bool := s.integrity.resets.any (·.1 == p)

/-- The reset of the Media, Tier or Host partition begins. -/
def beginReset (p : Nat) (s : State) : State :=
  let s := { s with integrity := { s.integrity with
      resets := (s.integrity.resets.filter (·.1 != p)) ++ [(p, s.now)], level := max 2 s.integrity.level } }
  let s := assertFault s
  match p with
  | 1 => resetMedia s
  | 3 => resetTier s
  | _ => fillPartition 4 { s with host := { s.host with inReset := true } }

/-- The meaning of PARTITION_FAULT (R397): the faulty partition resets alone, with 0x4303. -/
def execPartitionFault (t partition : Nat) (unit site : BitVec 32) (s : State) : Host.Outcome State Fault Refusal :=
  let s := s.arrive t
  .next (if s.dawn.phase == .eclipse || !(partition == 1 || partition == 3 || partition == 4) then s
    else
      let s := countError 0x4303 .management true unit site partition s
      if s.dawn.phase == .eclipse then s else beginReset partition s)

/-- The reset of a partition ends: INT_RECOVERY takes its duration, the Media reset reports 0x7905 (R309), and what waited
for it goes on. -/
def endReset (p : Nat) (s : State) : State := match s.integrity.resets.find? (·.1 == p) with
  | none => s
  | some (_, since) =>
    let s := { s with integrity := { s.integrity with
        resets := s.integrity.resets.filter (·.1 != p),
        recoveryUs := toNs (s.now - since) / 1000 % 4294967296 } }
    let s := match p with
      | 1 => raise 0x7905 0 { s with media := { s.media with inReset := false } }
      | 3 => fillPartition 3 { s with tier := { s.tier with inReset := false } }
      | _ => drainAll { s with host := { s.host with inReset := false } }
    if s.compute.inReset || s.job.phase == .squall then s else stopComplete (releaseFault s)

/-- The Compute reset ends with its regulators full (R260): recovery goes on, and a JOB_PREEMPT or JOB_ABORT that waited for it stops the job (R38,
Table 1.8). -/
def endComputeReset (s : State) : State :=
  if !s.compute.inReset then s else
    let s := fillPartition 0 { s with compute := { s.compute with inReset := false } }
    match s.job.phase, s.job.squall with
    | .squall, some q =>
      let s := { s with job := { s.job with squall := some { q with resetDone := true } } }
      match s.job.deferred with
      | some p => requestStop p.reason s
      | none => reportNewest s
    | _, _ => releaseFault s

/-- The meaning of PARTITION_RESET_COMPLETE (R396). -/
def execPartitionResetComplete (t partition : Nat) (s : State) : Host.Outcome State Fault Refusal :=
  let s := s.arrive t
  .next (if partition == 0 then endComputeReset s else endReset partition s)

/-! ### History pages (Tables 15.11, 15.12) -/

/-- A history entry as bytes (Table 15.12). -/
def HistEntry.bytes (e : HistEntry) : Bytes :=
  toLe 4 e.unit.toNat ++ toLe 4 e.site.toNat ++ toLe 2 e.code ++ zeros 2 ++ toLe 4 e.millihours ++ toLe 4 e.seq
    ++ zeros 12

/-- A history entry from its bytes. -/
def histEntryOf (b : Bytes) : HistEntry :=
  ⟨BitVec.ofNat 32 (le b 0 4), BitVec.ofNat 32 (le b 4 4), le b 8 2, le b 12 4, le b 16 4⟩

/-- The page that a write programs: a snapshot under a page sequence (Table 15.11). -/
def historyPage (s : State) (seq : Nat) : Bytes :=
  let i := s.integrity
  let head := ascii "A7FH" ++ toLe 4 seq ++ toLe 4 s.millihours ++ toLe 2 i.entries.length
    ++ toLe 1 (bitOf i.permanent) ++ toLe 1 i.rule ++ toLe 4 i.permUnit.toNat ++ toLe 4 i.total ++ zeros 36
  let tail := slice (i.entries.flatMap HistEntry.bytes) 0 4032
  head ++ toLe 4 (crc32c (head ++ tail)) ++ tail

/-- Whether a page is valid: TAG and CRC correct. -/
def pageValid (b : Bytes) : Bool := b.take 4 == ascii "A7FH" && le b 60 4 == crc32c (b.take 60 ++ b.drop 64)

/-- The pages with one programmed, its sector erased before its first page. -/
def programPage (pages : List (Nat × Bytes)) (n : Nat) (b : Bytes) : List (Nat × Bytes) :=
  let kept := if n % 16 == 0 then pages.filter fun p => p.1 / 16 != n / 16 else pages.filter fun p => p.1 != n
  insertBy (fun x y => decide (x.1 ≤ y.1)) (n, b) kept

/-- A history page is due: 60 s have a counted error in them, or 10 minutes of operation have passed since the newest
write; not during recovery (R417). -/
def historyDue (s : State) : Bool :=
  s.inService && s.job.phase != .squall
    && (s.integrity.pageDue.isSome || (s.integrity.since.isSome && s.integrity.lastWrite + sec 600 ≤ s.now))

/-- HISTORY_WRITE: one page into the page after the last one written; a failed write is reported with 0x4401, leaves bytes
that the manual does not state (log 14), and is tried again at the next 10-minute point (R417). -/
def historyWrite (ok : Bool) (s : State) : State :=
  if historyDue s then
    let n := match s.integrity.lastPage with | some p => (p + 1) % 1024 | none => 0
    let seq := ptrAdd s.integrity.pageSeq 1
    if ok then
      countKind 11 { s with
        flash := { s.flash with pages := programPage s.flash.pages n (historyPage s seq) },
        integrity := { s.integrity with lastPage := some n, pageSeq := seq, pageDue := none, lastWrite := s.now } }
    else
      let junk := s.freeBytes 4096
      raise 0x4401 n { junk.2 with
        flash := { s.flash with pages := programPage s.flash.pages n junk.1 },
        integrity := { s.integrity with lastPage := some n, pageDue := none, lastWrite := s.now } }
  else s

/-- The meaning of HISTORY_WRITE (R417). -/
def execHistoryWrite (t : Nat) (ok : Bool) (s : State) : Host.Outcome State Fault Refusal :=
  .next (historyWrite ok (s.arrive t))

/-- The fault-history region exactly as stored (R415): 1,024 pages, 0xFF where nothing is programmed. -/
def historyRegion (s : State) : Bytes :=
  (List.range 1024).flatMap fun n => match s.flash.pages.find? (·.1 == n) with
    | some p => p.2
    | none => List.replicate 4096 (0xFF : Byte)

/-- The meaning of WATCH_PERIOD_END (R419): at 24,000 millihours the watch period ends, in a job at the next boundary. -/
def execWatchPeriodEnd (t : Nat) (s : State) : Host.Outcome State Fault Refusal :=
  let s := s.arrive t
  .next (if s.integrity.watch && !s.integrity.watchEnds && 24000 ≤ s.millihours then
      let s := pageSoon (raise 0x4403 0 { s with integrity := { s.integrity with watchEnds := true } })
      if s.hasJob then s else applyWatchEnd s
    else s)

end Sys2Proof.Machine
end

