-- ==== Sys2Proof/Machine/Registers.lean ====
section
/-! DEFINITION. The read-only view of BAR0: every register of the map of Table 13.2 as a function of the state, in the
layouts of the owning chapters (R43, R289, R311, R341, R367, R422, R444). -/

namespace Sys2Proof.Machine

/-! ### Identity, tick and job -/

/-- ID_PART (Table 13.17). -/
def regIdPart : Nat := packFields [(0xA7C0, 16, 16), (Config.stepping.toNat, 8, 8), (Config.board.toNat, 0, 8)]

/-- ID_FIRMWARE (Table 13.18). -/
def regIdFirmware (s : State) : Nat := imgRevision s.dawn.firmware

/-- ID_STATUS (Table 13.19). -/
def regIdStatus (s : State) : Nat :=
  packFields [(s.dawn.code, 16, 16), (s.dawn.ga.toNat, 12, 4), (bitOf s.sideband.faultN, 4, 1),
    (bitOf (s.dawn.phase == .eclipse), 3, 1), (bitOf s.integrity.watch, 2, 1), (bitOf s.sideband.ready, 0, 1)]

/-- TCK_STATUS (Table 1.11). -/
def regTckStatus (s : State) : Nat :=
  packFields [(s.tick.divider, 16, 16), (s.tick.flywheel, 6, 2), (bitOf s.tick.ringFwd, 5, 1),
    (bitOf s.tick.locked, 4, 1), (s.tick.source, 0, 2)]

/-- JOB_STATE.STATE: MAINTENANCE in recovery boot (Table 1.7, R375). -/
def jobStateCode (s : State) : Nat := if s.dawn.phase == .recoveryBoot then 7 else s.job.phase.code

/-- JOB_STATE (Table 1.15). -/
def regJobState (s : State) : Nat :=
  packFields [(s.job.lastCode, 16, 16), (s.job.planIndex, 8, 4), (bitOf s.job.endPending.isSome, 7, 1),
    (bitOf s.job.resumable, 6, 1), (jobStateCode s, 0, 4)]

/-- JOB_FRAMES (Table 1.16). -/
def regJobFrames (s : State) : Nat := packFields [(s.job.delivered, 32, 32), (s.job.acceptedNo, 0, 32)]

/-! ### Links, media, tiers, integrity -/

/-- LNK_STATUS (Table 12.12). -/
def regLnkStatus (s : State) : Nat :=
  packFields ([(s.link.ringSize, 16, 5), (s.link.position, 8, 4), (bitOf s.link.formed, 7, 1)]
    ++ (List.range 4).map fun n => (bitOf ((s.port n).phase == .up), n, 1))

/-- Code of a port state (Table 12.13). -/
def PortPhase.code : PortPhase → Nat
  | .down => 0 | .training => 1 | .up => 2 | .disabled => 3

/-- LNK_PORT_n (Table 12.13). -/
def regLnkPort (s : State) (n : Nat) : Nat :=
  let p := s.port n
  packFields [(p.peerGa, 28, 4), (p.peerPort, 26, 2), (p.phase.code, 24, 2), (p.lanes, 20, 4), (p.lastCode, 0, 16)]

/-- MED_STATUS (Table 11.11). -/
def regMedStatus (s : State) : Nat :=
  let busy := (List.range 6).foldl (fun m n => if (s.stream n).busy.isSome then m ||| meEngines (mediaEntry s n) else m) 0
  packFields [(bitOf s.media.inReset, 31, 1), ((s.media.buffers.filter (·.isFree)).length, 16, 6), (busy, 0, 6)]

/-- MED_STREAM_n (Table 11.12). -/
def regMedStream (s : State) (n : Nat) : Nat :=
  let x := s.stream n
  if n < 4 then packFields [(x.q0, 24, 6), (x.fullness.toNat / 1000, 0, 24)] else packFields [(bitOf x.damaged, 31, 1)]

/-- How many directory entries are in a state. -/
def entriesIn (s : State) (st : Residency) : Nat := (s.tier.entries.filter fun p => p.2.status == st).length

/-- TIR_STATUS (Table 10.14). -/
def regTirStatus (s : State) : Nat :=
  packFields [(bitOf (estimatorNew s), 31, 1), (bitOf s.tier.inReset, 30, 1), (min 4096 s.tier.queue.length, 0, 13)]

/-- TIR_RATE i, i = 2 × partition + die (Table 10.22). -/
def regTirRate (s : State) (i : Nat) : Nat :=
  let r := s.tier.rates.getD i (0, 0, 0)
  packFields [(r.1, 16, 16), (r.2.1, 15, 1), (r.2.2, 0, 12)]

/-- The Cirrus exponent in force (R401). -/
def cirrusExponent (s : State) : Nat := if s.integrity.watch then 2 else s.integrity.cirrusShift

/-- INT_STATUS (Table 15.15). -/
def regIntStatus (s : State) : Nat :=
  packFields [(s.integrity.cirrusMax, 16, 8), (cirrusExponent s, 8, 4), (bitOf s.integrity.watch, 4, 1),
    (bitOf s.integrity.permanent, 3, 1), (s.integrity.level, 0, 2)]

/-! ### Safety, power, thermal -/

/-- PWR_INPUT (Table 16.12). -/
def regPwrInput (s : State) : Nat :=
  let r := s.nimbus.readings
  packFields [(max r.current.1 r.current.2, 16, 16), (severeVoltage r.voltage, 0, 16)]

/-- PWR_POWER (Table 16.13). -/
def regPwrPower (s : State) : Nat := packFields [(s.nimbus.target, 16, 16), (s.nimbus.inputW, 0, 16)]

/-- PWR_STORE (Table 16.14). -/
def regPwrStore (s : State) : Nat := packFields [(s.nimbus.ballast, 16, 16), (half s.nimbus.store, 0, 16)]

/-- THM_STATUS (Table 16.16). -/
def regThmStatus (s : State) : Nat :=
  packFields [(bitOf s.nimbus.modelNew, 31, 1), (severeValve s.nimbus.readings.valve s.nimbus.command, 8, 7),
    (s.nimbus.command, 0, 7)]

/-- THM_COOLANT (Table 16.17). -/
def regThmCoolant (s : State) : Nat :=
  packFields [(half (hotter s.nimbus.readings.outlet), 16, 16), (half (hotter s.nimbus.readings.inlet), 0, 16)]

/-- THM_FLOW (Table 16.18). -/
def regThmFlow (s : State) : Nat := packFields [(s.nimbus.supply, 16, 16), (s.nimbus.readings.flow, 0, 16)]

/-- THM_JUNCTION (Table 16.19). -/
def regThmJunction (s : State) : Nat :=
  packFields [(half (hotter s.nimbus.readings.junction1), 16, 16), (half (hotter s.nimbus.readings.junction0), 0, 16)]

/-- THM_PREDICT (Table 16.20). -/
def regThmPredict (s : State) : Nat :=
  packFields [(half s.nimbus.predictOutlet, 16, 16), (half s.nimbus.predictJunction, 0, 16)]

/-! ### Host queues and events -/

/-- Host pointer and module pointer offsets of ring n (Table 13.3, Table 13.10). -/
def pointerOffsets : Nat → Nat × Nat
  | 0 => (0x21000, 0x21040) | 1 => (0x21004, 0x21044) | 2 => (0x21008, 0x21048)
  | 3 => (0x40000, 0x40040) | 4 => (0x30000, 0x30040) | _ => (0x30004, 0x30044)

/-- The newest event whose SEQ mod 256 is n, as bytes; zeros when there is none (Table 15.21). -/
def errEntry (s : State) (n : Nat) : Bytes := match s.host.log.find? fun e => e.seq % 256 == n with
  | some e => e.bytes
  | none => zeros 32

/-! ### The map -/

/-- A run of registers of one width: first offset, spacing, how many, width in bytes, value. -/
structure RegBlock where
  base  : Nat
  step  : Nat
  count : Nat
  width : Nat
  value : State → Nat → Nat

/-- The MSI-X pending-bit array: the vectors that are due and not yet signalled (DESIGN CHOICE, log 31: the manual leaves the
array to the PCI Express Base Specification). -/
def msixPending (s : State) : Nat := packFields ((List.range 4).map fun n => (bitOf (s.host.msixDue.getD n false), n, 1))

/-- The whole map of BAR0 (R348). -/
def regMap : List RegBlock :=
  [⟨0x00000, 4, 1, 4, fun _ _ => regIdPart⟩, ⟨0x00004, 4, 1, 4, fun s _ => regIdFirmware s⟩,
   ⟨0x00008, 4, 1, 4, fun s _ => regIdStatus s⟩,
   ⟨0x10000, 4, 1, 4, fun s _ => regTckStatus s⟩, ⟨0x10004, 4, 1, 4, fun s _ => s.tick.periodNs⟩,
   ⟨0x10008, 8, 1, 8, fun s _ => s.tick.index⟩, ⟨0x10010, 8, 1, 8, fun s _ => toNs s.tick.boundary⟩,
   ⟨0x10100, 4, 1, 4, fun s _ => regJobState s⟩, ⟨0x10108, 8, 1, 8, fun s _ => regJobFrames s⟩,
   ⟨0x10110, 4, 1, 4, fun s _ => s.job.shift⟩,
   ⟨0x10114, 4, 1, 4, fun s _ => packFields [(s.job.reserve, 16, 16), (s.job.schedule, 0, 16)]⟩,
   ⟨0x20000, 0x20, 6, 8, fun s n => (s.ring n).base⟩, ⟨0x20008, 0x20, 6, 4, fun s n => (s.ring n).size⟩,
   ⟨0x2000C, 0x20, 6, 4, fun s n => bitOf (s.ring n).enable + 2 * bitOf (s.ring n).error⟩,
   ⟨0x20100, 8, 1, 8, fun s _ => s.host.statusBase⟩,
   ⟨0x21000, 4, 3, 4, fun s n => (s.ring n).host⟩, ⟨0x21040, 4, 3, 4, fun s n => (s.ring n).mine⟩,
   ⟨0x30000, 4, 2, 4, fun s n => (s.ring (4 + n)).host⟩, ⟨0x30040, 4, 2, 4, fun s n => (s.ring (4 + n)).mine⟩,
   ⟨0x40000, 4, 1, 4, fun s _ => (s.ring 3).host⟩, ⟨0x40040, 4, 1, 4, fun s _ => (s.ring 3).mine⟩,
   ⟨0x48000, 4, 1, 4, fun s _ => s.host.logCount⟩,
   ⟨0x48100, 4, 2048, 4, fun s n => le (errEntry s (n / 8)) (4 * (n % 8)) 4⟩,
   ⟨0x50000, 4, 2, 4, fun s n => s.host.saf.getD n 0⟩, ⟨0x50100, 4, 7, 4, fun s n => s.host.saf.getD (2 + n) 0⟩,
   ⟨0x54000, 4, 1, 4, fun s _ => regPwrInput s⟩, ⟨0x54004, 4, 1, 4, fun s _ => regPwrPower s⟩,
   ⟨0x54008, 4, 1, 4, fun s _ => regPwrStore s⟩, ⟨0x54010, 8, 1, 8, fun s _ => s.nimbus.energyUj / 1000⟩,
   ⟨0x58000, 4, 1, 4, fun s _ => regThmStatus s⟩, ⟨0x58004, 4, 1, 4, fun s _ => regThmCoolant s⟩,
   ⟨0x58008, 4, 1, 4, fun s _ => regThmFlow s⟩, ⟨0x5800C, 4, 1, 4, fun s _ => regThmJunction s⟩,
   ⟨0x58010, 4, 1, 4, fun s _ => regThmPredict s⟩,
   ⟨0x60000, 4, 1, 4, fun s _ => s.millihours⟩, ⟨0x60008, 8, 4, 8, fun s n => s.host.records.getD n 0⟩,
   ⟨0x70000, 4, 1, 4, fun s _ => regLnkStatus s⟩, ⟨0x70010, 4, 4, 4, regLnkPort⟩,
   ⟨0x70020, 4, 4, 4, fun s n => (s.port n).delayNs⟩, ⟨0x70040, 8, 4, 8, fun s n => (s.port n).corrected⟩,
   ⟨0x70060, 8, 4, 8, fun s n => (s.port n).retried⟩, ⟨0x70080, 8, 1, 8, fun s _ => s.link.aborts⟩,
   ⟨0x80000, 4, 1, 4, fun s _ => regMedStatus s⟩, ⟨0x80010, 4, 6, 4, regMedStream⟩,
   ⟨0x80040, 8, 1, 8, fun s _ => s.media.keyframes⟩, ⟨0x80048, 8, 1, 8, fun s _ => s.media.damaged⟩,
   ⟨0x80050, 8, 1, 8, fun s _ => s.media.capped⟩,
   ⟨0x90000, 4, 1, 4, fun s _ => regTirStatus s⟩, ⟨0x90004, 4, 1, 4, fun s _ => s.tier.frames⟩,
   ⟨0x90008, 4, 1, 4, fun s _ => entriesIn s .resident⟩, ⟨0x9000C, 4, 1, 4, fun s _ => s.tier.pinned⟩,
   ⟨0x90010, 4, 1, 4, fun s _ => packFields [(s.tier.path, 16, 16), (s.tier.missed, 0, 16)]⟩,
   ⟨0x90018, 8, 1, 8, fun s _ => s.tier.cheapTicks⟩, ⟨0x90020, 8, 1, 8, fun s _ => s.tier.filled⟩,
   ⟨0x90028, 4, 1, 4, fun s _ => entriesIn s .failed⟩, ⟨0x90100, 4, 10, 4, regTirRate⟩,
   ⟨0xA0000, 4, 1, 4, fun s _ => regIntStatus s⟩, ⟨0xA0004, 4, 1, 4, fun s _ => s.integrity.lastCode * 65536⟩,
   ⟨0xA0008, 4, 1, 4, fun s _ => s.integrity.lastUnit.toNat⟩, ⟨0xA000C, 4, 1, 4, fun s _ => s.integrity.recoveryUs⟩,
   ⟨0xA0100, 8, 12, 8, fun s n => s.integrity.counts.getD n 0⟩,
   ⟨0xF0000, 4, 256, 4, fun s n => s.host.msixTable.getD n 0⟩, ⟨0xF8000, 8, 1, 8, fun s _ => msixPending s⟩]

/-- The register of a block at an offset, by its number. -/
def RegBlock.holds (b : RegBlock) (off : Nat) : Option Nat :=
  if b.base ≤ off && (off - b.base) % b.step == 0 && (off - b.base) / b.step < b.count then some ((off - b.base) / b.step)
  else none

/-- Whether recovery boot shows an offset: the ID_ registers, HQ_STATUS_BASE, rings 4 and 5, the MBX_ pointers, the
MSI-X table, and JOB_STATE (R375). -/
def bootShows (off : Nat) : Bool :=
  off ≤ 0x8 || off == 0x10100 || (0x20080 ≤ off && off ≤ 0x20108) || (0x30000 ≤ off && off ≤ 0x30044)
    || (0xF0000 ≤ off && off < 0xF0400)

/-- The register at an offset: its width in bytes and its value; none where no register starts. -/
def readRegister (s : State) (off : Nat) : Option (Nat × Nat) :=
  if s.dawn.phase == .recoveryBoot && !bootShows off then none
  else (regMap.filterMap fun b => (b.holds off).map fun n => (b.width, b.value s n % 2 ^ (8 * b.width))).head?

/-- The 8-byte values that TELEMETRY writes: every CNT_, PWR_ and THM_ register in offset order (R366). -/
def telemetryBytes (s : State) : Bytes :=
  (regMap.filter fun b => 0x54000 ≤ b.base && b.base < 0x70000).flatMap fun b =>
    (List.range b.count).flatMap fun n => toLe 8 (b.value s n % 2 ^ (8 * b.width))

end Sys2Proof.Machine
end

