-- ==== Sys2Proof/Machine/Mailbox.lean ====
section
/-! DEFINITION. Mailbox requests (R365, R366): pickup, refusals, and every request but those of the job (Job.lean). -/

namespace Sys2Proof.Machine

/-! ### Pickup and refusal -/

/-- OPCODE of a request. -/
def reqOpcode (r : Bytes) : Nat := le r 0 2

/-- The opcodes of Table 13.16. -/
def knownOpcodes : List Nat :=
  [0x0001, 0x0002, 0x0003, 0x0004, 0x0005, 0x0006, 0x0010, 0x0011, 0x0012, 0x0013, 0x0014, 0x0020, 0x0021, 0x0022,
   0x0023, 0x0024]

/-- The job requests of Table 1.8. -/
def isJobRequest (op : Nat) : Bool := [0x0001, 0x0002, 0x0003, 0x0004, 0x0010, 0x0011].contains op

/-- Whether the mailbox serves requests: ring 4 served, one published, and the module in service (R365, R376). -/
def mailboxOpen (s : State) : Bool := s.served 4 && 0 < (s.ring 4).count 4 && s.inService

/-- Writes through BAR2 that a request behind index i of ring 4, or that one, still saw waiting: those made while its index was
below the tail. -/
def stillPending (s : State) (i : Nat) : List (Nat × Nat × Nat) :=
  s.host.windowWrites.filter fun w => w.2.2 != i && ptrDiff w.2.2 i < 2147483648

/-- The request at the head of ring 4 is picked up. -/
def pickup (s : State) : State :=
  let r := s.ring 4
  let s := { s with host := { s.host with windowWrites := stillPending s r.mine } }
  (s.setRing 4 { r with mine := ptrAdd r.mine 1 }).publish none

/-- Whether every byte from 8 on outside the given ranges (first byte, number) is zero, and bytes 2 and 3 are. -/
def bodyClear (req : Bytes) (used : List (Nat × Nat)) : Bool :=
  zeroBytes req 2 2 && (List.range 248).all fun i =>
    used.any (fun u => u.1 ≤ 8 + i && 8 + i < u.1 + u.2) || byteAt req (8 + i) == 0

/-- The refusal that the state of the module alone gives a request: recovery boot serves four requests, Eclipse four, and
job requests have their own code (R375, R366, R420). DESIGN CHOICE (log 53): in Eclipse STORE_WRITE and TABLE_LOAD get the
0x6203 of R420, not the 0x290B of R264 or the 0x1302 of R166. -/
def stateRefusal (s : State) (op : Nat) (req : Bytes) : Option Nat :=
  match s.dawn.phase with
  | .recoveryBoot =>
    if op == 0x0020 || op == 0x0023 || op == 0x0024 || (op == 0x0021 && byteAt req 8 == 0) then none else some 0x6203
  | .eclipse =>
    if isJobRequest op then some 0x1801
    else if op == 0x0020 || op == 0x0022 || op == 0x0023 || op == 0x0024 then none else some 0x6203
  | _ => none

/-- The first check that fails gives the refusal. -/
def firstFailure (checks : List (Bool × Nat)) : Option Nat := (checks.find? fun c => !c.1).map (·.2)

/-- The code of a refused job request, one of Table 1.5, is the latest of JOB_STATE.LAST_CODE (Table 1.15). -/
def noteRefusal (op c : Nat) (s : State) : State :=
  if isJobRequest op && 0x1801 ≤ c && c ≤ 0x180A then { s with job := { s.job with lastCode := c } } else s

/-- A request with an opcode is picked up and, unless it is refused by the state of the module or by one of its own
checks, does its work. A command whose bytes are not a request of its opcode, or that finds the mailbox closed, changes
nothing. -/
def serve (op : Nat) (req : Bytes) (checks : List (Bool × Nat)) (work : State → State) (s : State) : State :=
  if mailboxOpen s && reqOpcode req == op then
    let s := pickup s
    match (stateRefusal s op req).or (firstFailure checks) with
    | some c => respond req c [] (noteRefusal op c s)
    | none => work s
  else s

/-- Whether the job is in one of the given states, or the module serves any state in recovery boot and Eclipse. -/
def State.inStates (s : State) (l : List JobPhase) : Bool := s.dawn.phase == .recoveryBoot || l.contains s.job.phase

/-- What the request just picked up reads from an area of the host-exchange region: free bytes where the host wrote the area
while the request was pending, since the result is then undefined (R350). -/
def readRequest (off n : Nat) (s : State) : Bytes × State :=
  if s.host.windowWrites.any fun w => w.1 < off + n && off < w.1 + w.2.1 then s.freeBytes n else (s.readExchange off n, s)

/-! ### The weight store and the tables -/

/-- STORE_WRITE (R264): source offset, weight-store address and length. -/
def storeWrite (req : Bytes) (s : State) : State :=
  let off := le req 16 8
  let dst := le req 24 8
  let n := le req 32 8
  serve 0x0012 req
    [(s.inStates [.maintenance], 0x290B), (bodyClear req [(16, 24)], 0x6202), (n % 16384 == 0, 0x6202),
     (dst + n ≤ 0x40000000000, 0x6202), (exchangeOk off n, 0x6204)]
    (fun s =>
      let r := readRequest off n s
      respond req 0 [] (r.2.writeMem .store dst r.1)) s

/-- The meaning of STORE_WRITE (R264). -/
def execStoreWrite (t : Nat) (req : Bytes) (s : State) : Host.Outcome State Fault Refusal :=
  .next (storeWrite req (s.arrive t))

/-- Whether plan i exists and passed plan-load admission. -/
def planReady (s : State) (i : Nat) : Bool := ((s.planAt i).map (·.admissible)).getD false

/-- The table set of plan i. -/
def planTables (s : State) (i : Nat) : Bytes := match s.planAt i with
  | some e => sectionOf e.plan 0x08
  | none => []

/-! ### The self-test window (R164, R167) -/

/-- The firmware's reference tables, in opcode order. -/
def referenceTables (s : State) : List Bytes := (List.range 9).map (Config.fwReferenceTable s.dawn.firmware)

/-- The place of an FP32 number among the FP32 numbers in ascending order. -/
def ulpPlace (w : Word) : Int := if w.msb then -((w.toNat % 0x80000000 : Nat) : Int) else (w.toNat : Int)

/-- How many units in the last place lie between two results: FP32 numbers from one to the other. -/
def ulpsApart (a b : Word) : Nat := (ulpPlace a - ulpPlace b).natAbs

/-- Whether two results differ by more than a tolerance; a NaN agrees with a NaN alone. -/
def beyondTol (tol : Nat) (a b : Word) : Bool :=
  if isNan32 a || isNan32 b then !(isNan32 a && isNan32 b) else tol < ulpsApart a b

/-- What the special-function unit of a core answers on an argument of the self-test: the value of R159 unless the window
finds another. -/
def unitAnswer (w : WindowInput) (core fn i : Nat) : Word :=
  match w.results.find? fun r => r.1 == core && r.2.1 == fn && r.2.2.1 == i with
  | some r => r.2.2.2
  | none => builtin (fun _ => []) fn 0 (Config.selfTestArgument fn i)

/-- Whether a core's special-function unit fails: on one of 4,096 arguments a built-in function differs from TBL on its
reference table, in the active bank, by more than TOL (Table 6.5, bytes 10-11). -/
def unitFails (s : State) (w : WindowInput) (core : Nat) : Bool :=
  (List.range 9).any fun fn =>
    let tb := s.activeBank.tables.getD fn []
    (List.range 4096).any fun i =>
      beyondTol (le tb 10 2) (unitAnswer w core fn i) (tblEval .rne tb (Config.selfTestArgument fn i))

/-- The first unit that fails a self-test: one that the command names, else the lowest-numbered core whose special-function
unit fails, charged as class 0x01 of Table 15.13. -/
def failedUnit (s : State) (w : WindowInput) : Option (BitVec 32) :=
  w.failed.or (((List.range 64).find? (unitFails s w)).map (unitOf 0x01))

/-- A self-test window: the reference tables are written and swapped in, every special-function unit is tested against them,
and a plan's set is written and swapped in (R164, R167). The first component is the read-back code 0x4209 or none, the
second the unit that failed; a mismatch of the first write ends the window. -/
def selfTestWindow (restore : FunctionBank → FunctionBank) (w : WindowInput) (s : State) :
    Option Nat × Option (BitVec 32) × State :=
  let s := loadBank w.firstOk (fun b => { b with tables := referenceTables s }) s
  if !w.firstOk then (some 0x4209, w.failed, s)
  else
    let u := failedUnit s w
    (if w.secondOk then none else some 0x4209, u, loadBank w.secondOk restore s)

/-- A unit that failed a self-test is permanent under rule 3 of R418. -/
def failUnit (u : Option (BitVec 32)) (s : State) : State := match u with
  | some u => classify u true s
  | none => s

/-- TABLE_LOAD (R165, R166): the set is loaded in a self-test window, or a read-back mismatch leaves the bank inactive
(0x4209). A JOB_START that waits for its T(0) holds the tables (log 12). -/
def tableLoad (req : Bytes) (window : WindowInput) (s : State) : State :=
  let i := byteAt req 8
  serve 0x0013 req
    [(s.inStates [.idle, .maintenance] && s.job.startReq.isNone, 0x1302), (bodyClear req [(8, 1)], 0x6202),
     (planReady s i, 0x1802)]
    (fun s =>
      let r := selfTestWindow (·.withSet (planTables s i)) window s
      failUnit r.2.1 (respond req (r.1.getD 0) [] r.2.2)) s

/-- The meaning of TABLE_LOAD (R165). -/
def execTableLoad (t : Nat) (req : Bytes) (window : WindowInput) (s : State) : Host.Outcome State Fault Refusal :=
  .next (tableLoad req window (s.arrive t))

/-- SELFTEST (R167, R366): the first unit that failed is reported and classified permanent (R418). The set of
the active bank is restored by a second write and swap. STATUS is 0 once the test has run. -/
def selfTest (req : Bytes) (window : WindowInput) (s : State) : State :=
  serve 0x0014 req [(s.inStates [.idle, .maintenance], 0x6203), (bodyClear req [], 0x6202)]
    (fun s =>
      let held := s.activeBank
      let r := selfTestWindow (fun b => { b with tables := held.tables, micros := held.micros }) window s
      failUnit r.2.1 (respond req (if window.firstOk then 0 else 0x4209) (toLe 4 ((r.2.1.map (·.toNat)).getD 0xFFFFFFFF)) r.2.2)) s

/-- The meaning of SELFTEST (R167). -/
def execSelftest (t : Nat) (req : Bytes) (window : WindowInput) (s : State) : Host.Outcome State Fault Refusal :=
  .next (selfTest req window (s.arrive t))

/-! ### Attestation (R392) -/

/-- FLAGS of an attestation report. -/
def attestFlags (s : State) : Nat :=
  bitOf s.integrity.watch + 2 * bitOf (s.dawn.phase == .eclipse) + 4 * bitOf s.sideband.faultN
    + 8 * bitOf s.dawn.warmSince

/-- SLOTS of an attestation report. -/
def attestSlots (s : State) : Nat :=
  let r := bootRecord s.flash
  r.active.1 + 2 * r.active.2 + 4 * bitOf r.pending.1 + 8 * bitOf r.pending.2
    + 16 * bitOf (s.dawn.phase == .recoveryBoot)

/-- Bytes 0 to 8191 of the attestation report (Table 14.14). -/
def attestBody (nonce : Bytes) (s : State) : Bytes :=
  let tick := s.eventTick
  let head := ascii "A7AT" ++ toLe 2 1 ++ zeros 2 ++ slice nonce 0 32 ++ toLe 8 (toNs s.now) ++ toLe 8 tick
    ++ toLe 1 (jobStateCode s) ++ toLe 1 s.dawn.ga.toNat ++ toLe 1 (attestSlots s) ++ toLe 1 (imgRoot s.dawn.firmware)
    ++ toLe 2 (fwRevision s.dawn.firmware) ++ toLe 2 (fwPlanFormat s.dawn.firmware) ++ toLe 4 s.flash.fwSvn
    ++ toLe 4 s.flash.planSvn ++ toLe 4 s.flash.rootFloor ++ toLe 4 Config.romRevision.toNat
  let meas := slice s.dawn.fwMeasure 0 48 ++ slice s.dawn.planMeasure 0 48 ++ slice s.dawn.safetyMeasure 0 48
    ++ imgSigner s.dawn.planImage ++ slice (imgCert s.dawn.planImage) 8 8 ++ toLe 4 (attestFlags s)
    ++ toLe 8 s.job.lastPlanId ++ zeros 220
  head ++ meas ++ idPublic s.dawn.secret ++ zeros 64 ++ slice s.flash.cert 0 5632

/-- The whole report, with both signatures (Table 14.14). -/
def attestReport (nonce : Bytes) (hedge : BitVec 64) (s : State) : Bytes :=
  let b := attestBody nonce s
  let m := ascii "A7AT" ++ zeros 4 ++ b
  b ++ slice (Config.ed25519Sign (idEdSeed s.dawn.secret) m) 0 64
    ++ slice (Config.mldsa65Sign (idMldsaSeed s.dawn.secret) m hedge) 0 3309 ++ zeros 723

/-- ATTEST (R392). -/
def attest (req : Bytes) (s : State) : State :=
  let off := le req 48 8
  serve 0x0020 req
    [(bodyClear req [(16, 40)], 0x6202), (exchangeOk off 12288, 0x6204),
     (!s.dawn.secret.isEmpty && s.dawn.certOk, 0x8504)]
    (fun s =>
      let (h, s) := s.free
      respond req 0 [] (s.writeExchange off (attestReport (slice req 16 32) h s))) s

/-- The meaning of ATTEST (R392). -/
def execAttest (t : Nat) (req : Bytes) (s : State) : Host.Outcome State Fault Refusal := .next (attest req (s.arrive t))

/-! ### Staging (R389) -/

/-- The trust of the running firmware; in recovery boot the mask ROM, which verifies firmware only. -/
def runningTrust (s : State) : Trust := trustOf s.dawn.firmware

/-- A failed counter authentication ends in Eclipse (R388). -/
def counterFailure (s : State) : State := eclipseState (raiseAs 0x8302 false .management true 0 s)

/-- A verified image goes to the slot that is not active: a pending image of the slot is dropped, the slot erased, programmed
and read back, and the image marked pending (R389). What a failed program leaves in the slot is free. -/
def programSlot (req : Bytes) (kind : Nat) (img : Bytes) (flashOk : Bool) (s : State) : State :=
  let r := bootRecord s.flash
  let slot := 1 - (if kind == 0 then r.active.1 else r.active.2)
  let was := if kind == 0 then r.pending.1 else r.pending.2
  let mark := fun (b : Bool) (r : BootRecord) => if kind == 0
    then { r with pending := (b, r.pending.2), tries := (false, r.tries.2) }
    else { r with pending := (r.pending.1, b), tries := (r.tries.1, false) }
  let s := if was then writeBoot (mark false r) s else s
  if !flashOk then
    let junk := s.freeBytes (slotSize kind)
    respond req 0x8503 [] { junk.2 with flash := putSlot s.flash kind slot junk.1 }
  else
    let s := { s with flash := putSlot s.flash kind slot img }
    respond req 0 [] (writeBoot (mark true (bootRecord s.flash)) s)

/-- STAGE_IMAGE (R389): the image is read and verified, then programmed. `authOk` is false where a counter command fails its authentication (0x8302). -/
def stageImage (req : Bytes) (flashOk authOk : Bool) (s : State) : State :=
  let kind := byteAt req 8
  let off := le req 16 8
  let n := le req 24 8
  serve 0x0021 req
    [(s.inStates [.idle, .maintenance], 0x6203), (bodyClear req [(8, 1), (16, 16)], 0x6202), (kind ≤ 1, 0x6202),
     (exchangeOk off n, 0x6204), (n ≤ slotSize kind, 0x8505)]
    (fun s =>
      let read := readRequest off n s
      let img := read.1
      let s := read.2
      if !authOk then counterFailure (respond req 0x8302 [] s)
      else if !(verifyForm img kind s.flash (runningTrust s)) then respond req 0x8501 [] s
      else if imgSvn img < svnCounter s.flash kind then respond req 0x8502 [] s
      else programSlot req kind img flashOk s) s

/-- The meaning of STAGE_IMAGE (R389). -/
def execStageImage (t : Nat) (req : Bytes) (flashOk authOk : Bool) (s : State) : Host.Outcome State Fault Refusal :=
  .next (stageImage req flashOk authOk (s.arrive t))

/-! ### Telemetry, history, reset -/

/-- TELEMETRY (R366). -/
def telemetry (req : Bytes) (s : State) : State :=
  let off := le req 16 8
  serve 0x0022 req [(bodyClear req [(16, 8)], 0x6202), (exchangeOk off (telemetryBytes s).length, 0x6204)]
    (fun s => respond req 0 [] (s.writeExchange off (telemetryBytes s))) s

/-- The meaning of TELEMETRY (R366). -/
def execTelemetry (t : Nat) (req : Bytes) (s : State) : Host.Outcome State Fault Refusal :=
  .next (telemetry req (s.arrive t))

/-- HISTORY_READ (R415). -/
def historyRead (req : Bytes) (s : State) : State :=
  let off := le req 16 8
  serve 0x0023 req [(bodyClear req [(16, 8)], 0x6202), (exchangeOk off 0x400000, 0x6204)]
    (fun s => respond req 0 [] (s.writeExchange off (historyRegion s))) s

/-- The meaning of HISTORY_READ (R415). -/
def execHistoryRead (t : Nat) (req : Bytes) (s : State) : Host.Outcome State Fault Refusal :=
  .next (historyRead req (s.arrive t))

/-- MODULE_RESET (R346): the response, then the reset that restarts Dawn. -/
def moduleReset (req : Bytes) (s : State) : State :=
  serve 0x0024 req [(s.inStates [.idle, .maintenance, .eclipse], 0x6203), (bodyClear req [], 0x6202)]
    (fun s => coldReset (respond req 0 [] s)) s

/-- The meaning of MODULE_RESET (R346). -/
def execModuleReset (t : Nat) (req : Bytes) (s : State) : Host.Outcome State Fault Refusal :=
  .next (moduleReset req (s.arrive t))

/-- The meaning of MAILBOX_UNKNOWN_OPCODE (R365): a request whose opcode is in no row is refused with 0x6201. -/
def execMailboxUnknownOpcode (t : Nat) (req : Bytes) (s : State) : Host.Outcome State Fault Refusal :=
  let s := s.arrive t
  .next (if mailboxOpen s && !knownOpcodes.contains (reqOpcode req) then respond req 0x6201 [] (pickup s) else s)

end Sys2Proof.Machine
end

