-- ==== Sys2Proof/Machine/Job.lean ====
section
/-! DEFINITION. Job control: job-start admission (R33, R35), JOB_END, JOB_PREEMPT, JOB_ABORT (R37, R38), key frames (R300),
the split-exact switch (R148), maintenance (R37), and a ring's T(0) (R338). -/

namespace Sys2Proof.Machine

/-! ### Admission (Table 1.5) -/

/-- RESUME of a JOB_START. -/
def reqResume (req : Bytes) : Bool := bitAt (byteAt req 9) 0
/-- SEED_GIVEN. -/
def reqSeedGiven (req : Bytes) : Bool := bitAt (byteAt req 9) 1
/-- WINDOW_GIVEN. -/
def reqWindow (req : Bytes) : Bool := bitAt (byteAt req 9) 2
/-- The seed. -/
def reqSeed (req : Bytes) : Nat := le req 16 8
/-- Window table offset. -/
def reqWindowOffset (req : Bytes) : Nat := le req 24 8

/-- The present ring size: that of the formed ring, else one. -/
def ringNow (s : State) : Nat := if s.link.formed then s.link.ringSize else 1

/-- Whether a ring is under way and has not formed: a port is up and no ring stands (0x1805). -/
def ringPartial (s : State) : Bool := !s.link.formed && s.link.ports.any fun p => p.phase == .up

/-- Whether rings 0, 1, 2, 3 and 5 are enabled and served at the plan's capacities (R353). -/
def ringsReady (s : State) (p : Plan) : Bool :=
  s.host.linkUp && [(0, 0), (1, 1), (2, 2), (3, 3), (5, 4)].all fun q =>
    let r := s.ring q.1
    r.enable && !r.error && planRingMin p q.2 ≤ r.size

/-- Whether this member of a ring without a retained checkpoint receives position 0's during job-start admission (R410). -/
def receivesCheckpoint (s : State) : Bool := s.job.retained.isNone && 2 ≤ ringNow s && s.link.position != 0

/-- Whether a checkpoint serves a resume of plan i: the retained one, or the one that `carried` brings (R38, R410). -/
def resumeOk (s : State) (i : Nat) (p : Plan) (carried : Bytes) : Bool :=
  let r := if receivesCheckpoint s then
      (if headerValid (slice carried 0 4096) then some (retainedFrom i (planP p) carried) else none)
    else s.job.retained
  match r with
  | some r => r.planIndex == i && r.measurement == s.dawn.planMeasure && r.planId == planId p
  | none => false

/-- The checks of a JOB_START in order: the state, the body, the plan, then Table 1.5. -/
def startChecks (req carried : Bytes) (s : State) : List (Bool × Nat) :=
  let i := byteAt req 8
  let p := ((s.planAt i).map (·.plan)).getD noPlan
  let size := ringNow s
  [(s.job.phase == .idle && s.job.startReq.isNone, 0x1801),
   (bodyClear req [(8, 2), (16, 16)] && byteAt req 9 < 8, 0x6202),
   (planReady s i, 0x1802),
   (!reqWindow req || exchangeOk (reqWindowOffset req) 0x40000, 0x6204),
   (reqWindow req || !planReadsT4 p, 0x6207),
   (sourceLocked s i p || (2 ≤ size && s.link.position != 0), 0x1803),
   (planHostLink p ≤ s.host.mbps, 0x1804),
   (!ringPartial s, 0x1805),
   (variantExists p size, 0x1806),
   (!nimbusRefuses s (profileOf p size), 0x1807),
   (ringsReady s p, 0x1808),
   (!reqResume req || resumeOk s i p carried, 0x1809),
   (size < 2 || s.link.ports.all (fun q => q.phase == .up), 0x180A)]

/-- The window table from its bytes: the pages with VALID set and their host addresses (R265). -/
def readWindow (b : Bytes) : List (Nat × Nat) :=
  (List.range 32768).filterMap fun i =>
    let e := le b (8 * i) 8
    if bitAt e 0 then some (i, e / 0x200000 * 0x200000) else none

/-! ### R280 -/

/-- FIRST_ENTRY, COUNT, AHEAD, HOLD, INDIRECT and INDEX_TENSOR of a TIER_REQ (Table 10.11). -/
def tqFirst (c : Bytes) : Nat := le c 16 4
/-- COUNT. -/
def tqCount (c : Bytes) : Nat := le c 20 2
/-- AHEAD. -/
def tqAhead (c : Bytes) : Nat := byteAt c 22
/-- HOLD. -/
def tqHold (c : Bytes) : Nat := byteAt c 23
/-- INDIRECT. -/
def tqIndirect (c : Bytes) : Bool := bitAt (byteAt c 24) 0
/-- INDEX_TENSOR. -/
def tqIndex (c : Bytes) : Nat := le c 26 2

/-- Whether a range of entries lies in the plan's directory range. -/
def tierRangeOk (p : Plan) (first : Int) (count : Nat) : Bool :=
  (planDirFirst p : Int) ≤ first && first + count ≤ planDirFirst p + planDirCount p

/-- The request of a TIER_REQ whose index element is ix, due at a tick. One that leaves the directory range is reported
with 0x290A, names nothing and counts as missed (R279). -/
def tierRequest (c : Bytes) (ix : Int) (due : Nat) (s : State) : TierRequest × State :=
  let first : Int := tqFirst c + (if tqIndirect c then ix else 0)
  if tierRangeOk s.plan first (tqCount c) then
    (⟨(List.range (tqCount c)).map (first.toNat + ·), cmdIndex c, due, cmdAltList c, tqHold c, none, false⟩, s)
  else (⟨[], cmdIndex c, due, cmdAltList c, tqHold c, none, true⟩, raise 0x290A (cmdIndex c) s)

/-- The TIER_REQ commands of the primary lists. -/
def primaryRequests (s : State) : List Bytes :=
  (List.range 64).flatMap fun core =>
    (commandList s.plan s.job.variant s.job.position 0 core).filter fun c => cmdOpcode c == 0x0C

/-- The requests that ticks before the first would have committed are enqueued at admission (R280). An indirect index
against the default conditioning is free (log 15). -/
def earlyRequests (s : State) : State :=
  (primaryRequests s).foldl (fun s c => (List.range (tqAhead c)).foldl (fun s m =>
    let (v, s) := s.free
    let (r, s) := tierRequest c (signed 32 v.toNat) (s.job.first + m) s
    addRequest r s) s) s

/-! ### Arming -/

/-- The earliest T(0): the admission response plus 1.0 ms; for a frame pulse E(0), the newest tracked edge plus the
least whole number of periods that reaches it (R35). -/
def startTime (s : State) (i : Nat) (p : Plan) : Time :=
  let at0 := s.now + ms 1
  if planSource p == 1 then
    let e := (s.tracker i).newest.getD s.now
    let tp := max 1 (planTp p)
    e + ceilDiv (at0 - e) tp * tp
  else at0

/-- The instant of T(0) that the response shows: for a word clock its first edge that the start rule admits, counted in whole
periods from the newest one, else T(0) or E(0) itself. DEDUCED: R35 has the response carry T(0) and excepts frame pulses alone
(log 12). -/
def shownStart (s : State) (i : Nat) (p : Plan) : Time :=
  let at0 := startTime s i p
  match planSource p, s.tick.wordEdge with
  | 2, some e =>
    let period := sec 1 / (48000 * 2 ^ planClock p)
    e + ceilDiv (at0 - e) period * period
  | _, _ => at0

/-- The checkpoint that a JOB_START resumes from. -/
def keptFor (req : Bytes) (s : State) : Option Retained := if reqResume req then s.job.retained else none

/-- The seed of the job that a JOB_START asks for (R181). -/
def startSeed (req : Bytes) (s : State) : Nat := match keptFor req s with
  | some r => r.seed
  | none =>
    if reqSeedGiven req then reqSeed req
    else planSeed (((s.planAt (byteAt req 8)).map (·.plan)).getD noPlan)

/-- The job digest that the members of a ring exchange: plan index, seed and resume flag as R338 asks, with the plan image, the
plan and the ring size (R181). DESIGN CHOICE: the manual names the seed alone as its part (log 20). -/
def jobDigest (req : Bytes) (s : State) : Bytes :=
  Config.sha384 (s.dawn.planMeasure ++ toLe 8 (planId (((s.planAt (byteAt req 8)).map (·.plan)).getD noPlan))
    ++ toLe 1 (byteAt req 8) ++ toLe 8 (startSeed req s) ++ toLe 1 (bitOf (reqResume req)) ++ toLe 1 (ringNow s))

/-- The job registers and the tick configuration of an admitted job (Table 1.8): ARMED, nothing started, a retained checkpoint
kept for a resume only. TCK_INDEX, TCK_TIME and TIR_PATH keep the values of the job before until T(0) places the first
boundary (DESIGN CHOICE, log 12: Tables 1.13, 1.14 and 10.18 speak of the latest boundary and name no other time). -/
def armFields (req : Bytes) (s : State) : State :=
  let i := byteAt req 8
  let p := ((s.planAt i).map (·.plan)).getD noPlan
  let size := ringNow s
  let kept := keptFor req s
  { s with
    job := {
      phase := .armed, planIndex := i, resumable := kept.isSome, reserve := planCr p / 10000,
      schedule := planCs p / 10000, seed := startSeed req s, resume := reqResume req, variant := size,
      position := s.link.position,
      first := (kept.map fun r => r.stopTick + 1).getD 0, nextFrame := (kept.map (·.nextFrame)).getD 0,
      delivered := if kept.isSome then s.job.delivered else 0,
      acceptedNo := if kept.isSome then s.job.acceptedNo else 0,
      shift := (kept.map (·.shift)).getD 0, retained := kept, lastPlanId := planId p, endedAt := s.job.endedAt },
    tick := { s.tick with
      source := planSource p, divider := planDivider p, periodNs := planPeriodNs p, tp := planTp p, locked := true,
      ringFwd := 2 ≤ size && s.link.position != 0, flywheel := 0, placed := false, start := none, pulse := none } }

/-- What an admitted job sets up beside them: CIRRUS's bounds of its plan, the T4 window (the table given) and regulator rates,
and nothing known of a ring's ticks. -/
def armEngines (rates : List (Nat × Nat × Nat)) (table : Bytes) (s : State) : State :=
  let d := ckptDecl s
  { s with
    integrity := { s.integrity with cirrusMax := ckptMax d, cirrusShift := ckptShift d },
    tier := { s.tier with cheapTicks := 0, starved := none, rates := rates, window := readWindow table },
    link := { s.link with
      abortTick := none, ready := [], transfers := [], reports := [], memberDusk := none, resumeAt := none,
      readySent := none } }

/-- The T4 window table that a JOB_START carries (R265, R350). -/
def armTable (req : Bytes) (s : State) : Bytes × State :=
  if reqWindow req then readRequest (reqWindowOffset req) 0x40000 s else ([], s)

/-- The state of an admitted job (Table 1.8); the conditioning picked up before is kept for a resume only. -/
def armJob (req : Bytes) (s : State) : State :=
  let p := ((s.planAt (byteAt req 8)).map (·.plan)).getD noPlan
  let table := armTable req (armFields req s)
  let t := armEngines (planRates p) table.1 table.2
  releaseHeld (startMedia (killCompute (if (keptFor req s).isSome then t else dropConditioning t)))

/-- The retained checkpoint of a resume is restored (R38, R410): none when it is unusable in both copies (R409). -/
def restoreRetained (req : Bytes) (s : State) : Option State := match keptFor req s with
  | some r => restoreFrom r.variant none r.ckptTick s
  | none => some s

/-- A resume whose checkpoint is unusable in both copies: the job stops in ARMED as a JOB_ABORT stops it, with 0x4305, and is not
resumable (R409); the JOB_START is refused with 0x1809 (DEDUCED, log 12). -/
def resumeLost (req : Bytes) (ckpt : Nat) (s : State) : State :=
  let s := raise 0x4305 ckpt (leaveArmed s)
  respond req 0x1809 [] (noteRefusal 0x0001 0x1809
    (dropConditioning { s with job := { s.job with retained := none, resumable := false } }))

/-- An admitted JOB_START is armed, restores the checkpoint that it resumes from, waits for its first boundary from an instant
on, and is answered with the T(0) shown (R35). -/
def placeStart (req : Bytes) (t0 shown : Time) (s : State) : State :=
  match restoreRetained req (armJob req s) with
  | none => resumeLost req ((s.job.retained.map (·.ckptTick)).getD 0) (armJob req s)
  | some s => respond req 0 (toLe 8 (toNs shown)) (earlyRequests { s with tick := { s.tick with start := some t0 } })

/-- T(0) is chosen here (R35). -/
def chooseStart (req : Bytes) (s : State) : State :=
  let i := byteAt req 8
  let p := ((s.planAt i).map (·.plan)).getD noPlan
  placeStart req (startTime s i p) (shownStart s i p) s

/-- A JOB_START of a ring that has passed admission here and is refused after all leaves the module as it was (R35). -/
def refuseStart (req : Bytes) (code : Nat) (s : State) : State :=
  respond req code [] { s with job := { s.job with startReq := none } }

/-- JOB_START admitted, its plan's set active: the job is armed. A ring member keeps the request, and one at another position
than 0 sends its job digest there, until position 0 has chosen T(0) (R181, R338). -/
def startLoaded (req : Bytes) (s : State) : State :=
  if ringNow s < 2 then chooseStart req s
  else
    let s := { s with job := { s.job with startReq := some req } }
    if s.link.position == 0 then s else reportToHead 2 (jobDigest req s) s

/-- JOB_START admitted: position 0's checkpoint is taken where this member lacks one (R410), and a set that differs from the
active one is loaded in a self-test window (R164). A read-back mismatch refuses the start with 0x4209; a unit that fails ends it
in Eclipse, where a start is refused with 0x1801 (R420). -/
def startJob (req : Bytes) (window : WindowInput) (carried : Bytes) (s : State) : State :=
  let i := byteAt req 8
  let s := if reqResume req && receivesCheckpoint s
    then takeCheckpoint i (planP (((s.planAt i).map (·.plan)).getD noPlan)) carried s else s
  let set := planTables s (byteAt req 8)
  if s.activeBank.holdsSet set then startLoaded req s
  else
    let r := selfTestWindow (·.withSet set) window s
    match r.1, r.2.1 with
    | _, some u => respond req 0x1801 [] (noteRefusal 0x0001 0x1801 (classify u true r.2.2))
    | some c, none => respond req c [] r.2.2
    | none, none => startLoaded req r.2.2

/-- The meaning of JOB_START (R35). -/
def execJobStart (t : Nat) (req : Bytes) (input : StartInput) (s : State) : Host.Outcome State Fault Refusal :=
  let s := formationDue (s.arrive t)
  .next (serve 0x0001 req (startChecks req input.carried s) (startJob req input.window input.carried) s)

/-- What a REQUEST carries in place of T(0) when position 0 refuses the start (log 20). -/
def noStart : Nat := 0xFFFFFFFFFFFFFFFF

/-- A JOB_START as position 0 forwards it (R338): the request's first 216 bytes, then T(0) in ns (log 20). -/
def forwardStart (req : Bytes) (t0 : Nat) (s : State) : State := sendBothWays 0x24 (slice req 0 216 ++ toLe 8 t0) s

/-- RING_T0_DECISION: once the job digests of all other members are here, position 0 refuses the start with 0x1805 where one
differs from its own (R181), or chooses T(0) and forwards it (R338). -/
def ringDecision (digests : List Bytes) (s : State) : State := match s.job.startReq with
  | some req =>
    if !(s.job.phase == .idle && s.link.position == 0 && s.ringUp && digests.length + 1 == s.link.ringSize) then s
    else if digests.all (· == jobDigest req s) then
      let i := byteAt req 8
      let shown := shownStart s i (((s.planAt i).map (·.plan)).getD noPlan)
      chooseStart req (forwardStart req (toNs shown) { s with job := { s.job with startReq := none } })
    else refuseStart req 0x1805 (forwardStart req noStart s)
  | none => s

/-- The meaning of RING_T0_DECISION (R338). -/
def execRingT0Decision (digests : Timed (List Bytes)) (s : State) : Host.Outcome State Fault Refusal :=
  .next (ringDecision digests.val (s.arrive digests.time))

/-! ### Requests of a running job -/

/-- Whether this module may take a job request: not at a position other than 0 of a ring job (R338). -/
def atHead (s : State) : Bool := !(s.inRing && s.job.position != 0)

/-- A request that position 0 forwards round the ring as a REQUEST flit (R338). -/
def forwardRequest (req : Bytes) (s : State) : State :=
  if s.inRing && s.job.position == 0 then sendBothWays 0x24 (req.take 224) s else s

/-- e of a JOB_END picked up now: the first boundary expected at least 1.0 ms later (R37). -/
def endTickFor (s : State) : Nat :=
  s.tick.index + max 1 (ceilDiv (s.now + ms 1 - s.tick.boundary) (max 1 s.tick.tp))

/-- JOB_END is noted. -/
def noteEnd (s : State) : State := { s with job := { s.job with endPending := s.job.endPending.or (some s.now) } }

/-- The meaning of JOB_END (R37). -/
def execJobEnd (t : Nat) (req : Bytes) (s : State) : Host.Outcome State Fault Refusal :=
  .next (serve 0x0002 req
    [(s.job.phase == .running, 0x1801), (bodyClear req [], 0x6202), (atHead s, 0x3A05)]
    (fun s => respond req 0 (toLe 8 (endTickFor s)) (forwardRequest req (noteEnd s))) (s.arrive t))

/-- A JOB_PREEMPT or JOB_ABORT takes effect: at once, or in SQUALL once the partition reset is complete; an ARMED job
returns to IDLE and loses a retained checkpoint (Table 1.8). -/
def applyStop (reason : GapReason) (s : State) : State :=
  match s.job.phase with
  | .armed =>
    let s := leaveArmed (raise 0x190A 0 s)
    { s with job := { s.job with retained := none, resumable := false } }
  | .running | .draining => requestStop reason s
  | .squall =>
    if s.compute.inReset then
      { s with job := { s.job with deferred := s.job.deferred.or (some ⟨reason, 0, s.tick.index⟩) } }
    else requestStop reason s
  | _ => s

/-- The meaning of JOB_PREEMPT (R38). -/
def execJobPreempt (t : Nat) (req : Bytes) (s : State) : Host.Outcome State Fault Refusal :=
  .next (serve 0x0003 req
    [(s.inJob && s.job.phase != .stopping, 0x1801), (bodyClear req [], 0x6202), (atHead s, 0x3A05)]
    (fun s => applyStop .preemption (respond req 0 [] (forwardRequest req s))) (s.arrive t))

/-- The meaning of JOB_ABORT (R38). -/
def execJobAbort (t : Nat) (req : Bytes) (s : State) : Host.Outcome State Fault Refusal :=
  .next (serve 0x0004 req
    [(s.hasJob && s.job.phase != .stopping, 0x1801), (bodyClear req [], 0x6202), (atHead s, 0x3A05)]
    (fun s => applyStop .aborted (respond req 0 [] (forwardRequest req s))) (s.arrive t))

/-- Key frames are asked of the encode entries of a mask, from the next boundary on (R300). -/
def noteKeys (mask : Nat) (s : State) : State := { s with job := { s.job with keyMask := s.job.keyMask ||| mask % 16 } }

/-- The meaning of KEYFRAME (R300). -/
def execKeyframe (t : Nat) (req : Bytes) (s : State) : Host.Outcome State Fault Refusal :=
  .next (serve 0x0005 req
    [(s.inStates [.running, .squall], 0x6203), (bodyClear req [(8, 1)] && byteAt req 8 < 16, 0x6202),
     (atHead s, 0x3A05)]
    (fun s => respond req 0 [] (forwardRequest req (noteKeys (byteAt req 8) s))) (s.arrive t))

/-- The split-exact switch is set, from the next boundary on (R148). -/
def noteSplit (forced : Bool) (s : State) : State := { s with job := { s.job with splitWanted := forced } }

/-- The meaning of SPLIT_EXACT (R148). -/
def execSplitExact (t : Nat) (req : Bytes) (s : State) : Host.Outcome State Fault Refusal :=
  .next (serve 0x0006 req
    [(s.inStates [.armed, .running], 0x6203), (bodyClear req [(8, 1)] && byteAt req 8 < 2, 0x6202),
     (atHead s, 0x3A05), (planSwitchable s.plan, 0x6205)]
    (fun s => respond req 0 [] (forwardRequest req (noteSplit (byteAt req 8 == 1) s))) (s.arrive t))

/-- The meaning of MAINT_ENTER (R37): MAINTENANCE, and the retained checkpoint goes (R38). -/
def execMaintEnter (t : Nat) (req : Bytes) (s : State) : Host.Outcome State Fault Refusal :=
  .next (serve 0x0010 req [(s.job.phase == .idle && s.job.startReq.isNone, 0x1801), (bodyClear req [], 0x6202)]
    (fun s => respond req 0 [] { s with job := { s.job with
      phase := .maintenance, retained := none, resumable := false } }) (s.arrive t))

/-- The meaning of MAINT_EXIT (R37). -/
def execMaintExit (t : Nat) (req : Bytes) (s : State) : Host.Outcome State Fault Refusal :=
  .next (serve 0x0011 req [(s.job.phase == .maintenance, 0x1801), (bodyClear req [], 0x6202)]
    (fun s => respond req 0 [] { s with job := { s.job with phase := .idle } }) (s.arrive t))

end Sys2Proof.Machine
end

