-- ==== Sys2Proof/Machine/HostOps.lean ====
section
/-! DEFINITION. What the host does to the module outside the mailbox: input records (R357, R358), pointer and setup
registers (R352, R353, R355), register reads (R44, R349, R422), MSI-X (R363), PCI Express resets and link events
(R345 to R347). -/

namespace Sys2Proof.Machine

/-- Whether BAR0 requests reach the module: enumeration is open, the link is up and no Function Level Reset runs. -/
def barOpen (s : State) : Bool := (s.inService || s.dawn.phase == .warm) && s.host.linkUp && !s.host.flr

/-- Whether a ring exists for the host: rings 4 and 5 alone in recovery boot (R375). -/
def ringExists (s : State) (n : Nat) : Bool := n < 6 && (s.dawn.phase != .recoveryBoot || 4 ≤ n)

/-! ### Input records (Table 13.11) -/

/-- FRAME. -/
def recFrame (r : Bytes) : Nat := le r 0 4
/-- SEGMENTS. -/
def recSegments (r : Bytes) : Nat := byteAt r 4
/-- ADDR, LENGTH, KIND and STREAM of segment i. -/
def recAddr (r : Bytes) (i : Nat) : Nat := le r (16 + 16 * i) 8
/-- LENGTH. -/
def recLength (r : Bytes) (i : Nat) : Nat := le r (24 + 16 * i) 4
/-- KIND. -/
def recKind (r : Bytes) (i : Nat) : Nat := byteAt r (28 + 16 * i)
/-- STREAM. -/
def recStream (r : Bytes) (i : Nat) : Nat := byteAt r (29 + 16 * i)

/-- Whether a record obeys Table 13.11 and the plan's declarations (R357). -/
def recordValid (p : Plan) (r : Bytes) : Bool :=
  let n := recSegments r
  let idx := List.range n
  let decl := Config.inputDeclaration (sectionOf p 0x0F)
  1 ≤ n && n ≤ 3 && zeroBytes r 5 11
    && idx.all (fun i => recAddr r i % 64 == 0 && 1 ≤ recLength r i && recLength r i ≤ planCondMax p && recKind r i ≤ 3
      && (if recKind r i == 3 then recStream r i == 4 || recStream r i == 5 else recStream r i == 0)
      && zeroBytes r (30 + 16 * i) 2 && recLength r i ≤ (decl (recKind r i)).2)
    && (idx.map (recLength r)).foldl (· + ·) 0 ≤ planCondMax p
    && (List.range 4).all fun k => !(decl k).1 || idx.any fun i => recKind r i == k

/-- Whether every payload read gave its bytes. -/
def payloadsRead (r : Bytes) (payloads : List (Option Bytes)) : Bool :=
  (List.range (recSegments r)).all fun i => match payloads.getD i none with
    | some b => b.length == recLength r i
    | none => false

/-- The segments of a record with their payloads. -/
def recordSegments (r : Bytes) (payloads : List (Option Bytes)) : List Segment :=
  (List.range (recSegments r)).map fun i => ⟨recKind r i, recStream r i, (payloads.getD i none).getD []⟩

/-- Whether records are picked up now (R358): in ARMED, RUNNING and SQUALL, and not where JOB_END has taken effect. -/
def takesInput (s : State) : Bool :=
  let ended := s.job.endTick.isSome || (s.job.phase == .armed && match s.job.retained with
    | some r => r.endTick.isSome | none => false)
  s.served 0 && 0 < (s.ring 0).count 0 && !ended
    && (s.job.phase == .armed || s.job.phase == .running || s.job.phase == .squall)

/-- The head record is picked up: IN_HEAD advances. -/
def takeRecord (s : State) : State :=
  let r := s.ring 0
  let s := { s with host := { s.host with arrivals := s.host.arrivals.drop 1 } }
  (s.setRing 0 { r with mine := ptrAdd r.mine 1 }).publish (some 3)

/-- INPUT_RECORD: pickup, validation and pairing of the head record of ring 0 (R358). -/
def inputRecord (r : Bytes) (payloads : List (Option Bytes)) (s : State) : State :=
  if !takesInput s then s else
    let f := recFrame r
    let ahead := ptrDiff f s.job.nextFrame
    let past := 0x80000000 ≤ ahead
    if !past && 16 ≤ ahead then { s with host := { s.host with heldFrame := some f } }
    else
      let arrived := s.host.arrivals.headD s.now
      let s := takeRecord s
      if !(recordValid s.plan r && payloadsRead r payloads) then raise 0x6902 f s
      else if past then raise 0x6904 f s
      else { s with host := { s.host with
        conds := s.host.conds ++ [⟨f, arrived, recordSegments r payloads⟩] } }

/-- The meaning of INPUT_RECORD (R358). -/
def execInputRecord (t : Nat) (record : Bytes) (payloads : List (Option Bytes)) (s : State) :
    Host.Outcome State Fault Refusal := .next (inputRecord record payloads (s.arrive t))

/-! ### Pointer registers (R352) -/

/-- A host pointer register is written: refused with 0x6301 on a disabled ring, with 0x6905 where the count would exceed
SIZE or a consumer pass the producer. -/
def writePointer (n value : Nat) (after : State → State) (s : State) : State :=
  if !(barOpen s && ringExists s n) then s else
    let r := s.ring n
    if !r.enable then raise 0x6301 n s
    else
      let r' := { r with host := value }
      if r.size < r'.count n then raise 0x6905 n s else after (s.setRing n r')

/-- What waits for room is written (R359, R362, R365). -/
def afterRoom (s : State) : State := stopComplete (drainAll s)

/-- The records that a doorbell publishes arrive at the moment of the write (R27, R358). -/
def arriveRecords (s : State) : State :=
  let want := (s.ring 0).count 0
  let have_ := s.host.arrivals.length
  { s with host := { s.host with
      arrivals := s.host.arrivals.take want ++ List.replicate (want - have_) s.now } }

/-- The meaning of HQ_IN_TAIL (R358). -/
def execHqInTail (t : Nat) (value : BitVec 32) (s : State) : Host.Outcome State Fault Refusal :=
  .next (writePointer 0 value.toNat arriveRecords (s.arrive t))

/-- The meaning of HQ_OUT_HEAD (R359). -/
def execHqOutHead (t : Nat) (value : BitVec 32) (s : State) : Host.Outcome State Fault Refusal :=
  .next (writePointer 1 value.toNat afterRoom (s.arrive t))

/-- The meaning of HQ_DATA_HEAD (R359). -/
def execHqDataHead (t : Nat) (value : BitVec 32) (s : State) : Host.Outcome State Fault Refusal :=
  .next (writePointer 2 value.toNat afterRoom (s.arrive t))

/-- The meaning of MBX_REQ_TAIL (R365). -/
def execMbxReqTail (t : Nat) (value : BitVec 32) (s : State) : Host.Outcome State Fault Refusal :=
  .next (writePointer 4 value.toNat id (s.arrive t))

/-- The meaning of MBX_RSP_HEAD (R352). -/
def execMbxRspHead (t : Nat) (value : BitVec 32) (s : State) : Host.Outcome State Fault Refusal :=
  .next (writePointer 5 value.toNat afterRoom (s.arrive t))

/-- The meaning of EVT_HEAD (R362). -/
def execEvtHead (t : Nat) (value : BitVec 32) (s : State) : Host.Outcome State Fault Refusal :=
  .next (writePointer 3 value.toNat afterRoom (s.arrive t))

/-! ### Ring setup (R353) -/

/-- Whether SIZE of a ring is a power of two in its range. -/
def sizeValid (n size : Nat) : Bool :=
  let lo := if n == 2 then 0x100000 else 16
  let hi := if n == 2 then 0x80000000 else 0x100000
  lo ≤ size && size ≤ hi && 2 ^ Nat.log2 size == size

/-- Whether BASE of a ring is valid: not zero, and the ring ends within 2^64. -/
def baseValid (n : Nat) (r : Ring) : Bool := r.base != 0 && r.base + r.size * entrySize n ≤ 2 ^ 64

/-- The job states in which ENABLE may change. -/
def enableMayChange (s : State) : Bool := [1, 7, 8].contains (jobStateCode s)

/-- The meaning of HQ_BASE (R353). -/
def execHqBase (t ring : Nat) (value : BitVec 64) (s : State) : Host.Outcome State Fault Refusal :=
  let s := s.arrive t
  let r := s.ring ring
  .next (if !(barOpen s && ringExists s ring) then s
    else if r.enable || value.toNat % 4096 != 0 then raise 0x6301 ring s
    else s.setRing ring { r with base := value.toNat })

/-- The meaning of HQ_SIZE (R353). -/
def execHqSize (t ring : Nat) (value : BitVec 32) (s : State) : Host.Outcome State Fault Refusal :=
  let s := s.arrive t
  let r := s.ring ring
  .next (if !(barOpen s && ringExists s ring) then s
    else if r.enable || !sizeValid ring value.toNat then raise 0x6301 ring s
    else s.setRing ring { r with size := value.toNat })

/-- The meaning of HQ_STATUS_BASE (R353): written only while every ring is disabled; bits [5:0] read zero. -/
def execHqStatusBase (t : Nat) (value : BitVec 64) (s : State) : Host.Outcome State Fault Refusal :=
  let s := s.arrive t
  .next (if !barOpen s then s
    else if s.host.rings.any (·.enable) then raise 0x6301 0 s
    else { s with host := { s.host with statusBase := value.toNat / 64 * 64 } })

/-- ENABLE is written 1: a ring stopped by a DMA error restarts with both pointers at the module's value (R355); any other
is enabled with both pointers at 0 (R353). -/
def enableRing (n : Nat) (s : State) : State :=
  let r := s.ring n
  if r.enable then s
  else if r.error then
    let s := s.setRing n { r with enable := true, error := false, host := r.mine }
    let s := if n == 0 then { s with host := { s.host with arrivals := [], heldFrame := none } } else s
    afterRoom (s.publish none)
  else if !enableMayChange s then raise 0x6301 n s
  else if !(sizeValid n r.size && baseValid n r) || s.host.statusBase == 0 then raise 0x6302 n s
  else afterRoom ((s.setRing n { r with enable := true, host := 0, mine := 0 }).publish none)

/-- The meaning of RING_ENABLE (R353). -/
def execRingEnable (t ring : Nat) (s : State) : Host.Outcome State Fault Refusal :=
  let s := s.arrive t
  .next (if barOpen s && ringExists s ring then enableRing ring s else s)

/-- ENABLE is written 0 (R353); a ring stopped by a DMA error keeps ERROR until it restarts (R355). -/
def disableRing (n : Nat) (s : State) : State :=
  let r := s.ring n
  if !r.enable then s
  else if !(r.error || enableMayChange s) then raise 0x6301 n s
  else
    let s := s.setRing n { r with enable := false }
    if n == 0 then { s with host := { s.host with arrivals := [], heldFrame := none } } else s

/-- The meaning of RING_DISABLE (R353). -/
def execRingDisable (t ring : Nat) (s : State) : Host.Outcome State Fault Refusal :=
  let s := s.arrive t
  .next (if barOpen s && ringExists s ring then disableRing ring s else s)

/-! ### Other accesses to BAR0 and BAR2 (R344, R349, R350, R44, R422) -/

/-- A completion with its data. -/
def complete (c : Completion) (data : Bytes) (s : State) : State :=
  { s with host := { s.host with completion := c, readData := data } }

/-- A memory read completes with its data; during a Function Level Reset with Unsupported Request (R346); where no BAR is
reached there is no completion. -/
def readThrough (f : State → Bytes × State) (s : State) : State :=
  if barOpen s then (let r := f s; complete .success r.1 r.2)
  else complete (if s.host.flr && s.host.linkUp then .unsupported else .none) [] s

/-- The low word of a 64-bit register: its high word is latched (R44). -/
def readLow (off value : Nat) (s : State) : Bytes × State :=
  (toLe 4 value, { s with host := { s.host with
    latch := (off + 4, value / 4294967296) :: s.host.latch.filter (·.1 != off + 4) } })

/-- The high word of a 64-bit register: the latched word, which is released; with none latched, the word as it stands. -/
def readHigh (off value : Nat) (s : State) : Bytes × State :=
  let w := match s.host.latch.find? (·.1 == off) with | some p => p.2 | none => value / 4294967296
  (toLe 4 w, { s with host := { s.host with latch := s.host.latch.filter (·.1 != off) } })

/-- Word w of ERR_ENTRY_n: the first latches the whole entry and the last releases it (R422). -/
def readErrWord (n w : Nat) (s : State) : Bytes × State :=
  if w == 0 then
    let e := errEntry s n
    (e.take 4, { s with host := { s.host with errLatch := (n, e) :: s.host.errLatch.filter (·.1 != n) } })
  else
    let e := match s.host.errLatch.find? (·.1 == n) with | some p => p.2 | none => errEntry s n
    (slice e (4 * w) 4,
      if w == 7 then { s with host := { s.host with errLatch := s.host.errLatch.filter (·.1 != n) } } else s)

/-- The 4-byte word at an aligned offset of BAR0; a reserved offset reads zero (R349). -/
def readBarWord (off : Nat) (s : State) : Bytes × State :=
  if 0x48100 ≤ off && off < 0x4A100 && s.dawn.phase != .recoveryBoot then
    readErrWord ((off - 0x48100) / 32) ((off - 0x48100) % 32 / 4) s
  else match readRegister s off with
    | some (8, v) => readLow off v s
    | some (_, v) => (toLe 4 v, s)
    | none => match (if 4 ≤ off then readRegister s (off - 4) else none) with
      | some (8, v) => readHigh off v s
      | _ => (zeros 4, s)

/-- An aligned 4-byte or 8-byte read of BAR0; 8 bytes of a 64-bit register are its value as it stands (R349, R44). -/
def readBar0 (off size : Nat) (s : State) : Bytes × State :=
  if size == 4 then readBarWord off s
  else match readRegister s off with
    | some (8, v) => (toLe 8 v, { s with host := { s.host with latch := s.host.latch.filter (·.1 != off + 4) } })
    | _ =>
      let lo := readBarWord off s
      let hi := readBarWord (off + 4) lo.2
      (lo.1 ++ hi.1, hi.2)

/-- Whether an access has a size and an alignment that BAR0 accepts (R349). -/
def accessOk (off size : Nat) : Bool := (size == 4 || size == 8) && off % size == 0

/-- An access of another size or alignment: the write is ignored, the read gives zero, and 0x6303 is reported (R349). -/
def badAccess (off size : Nat) (write : Bool) (s : State) : State :=
  if write then (if barOpen s then raise 0x6303 off s else s)
  else if barOpen s then raise 0x6303 off (complete .success (zeros size) s)
  else readThrough (fun s => ([], s)) s

/-- A write of BAR0 that is no register of Table 13.5: ignored, but for the MSI-X table, which keeps what the host writes. -/
def writeTable (off : Nat) (data : Bytes) (s : State) : State :=
  (List.range (data.length / 4)).foldl (fun s i =>
    let o := off + 4 * i
    if 0xF0000 ≤ o && o < 0xF0400 then
      { s with host := { s.host with msixTable := s.host.msixTable.set ((o - 0xF0000) / 4) (le data (4 * i) 4) } }
    else s) s

/-- A write through BAR2, noted while requests are pending (R350). -/
def writeWindow (off : Nat) (data : Bytes) (s : State) : State :=
  let s := s.writeMem .hbm (exchangeBase + off) data
  if 0 < (s.ring 4).count 4 then
    { s with host := { s.host with windowWrites := (off, data.length, (s.ring 4).host) :: s.host.windowWrites } }
  else s

/-- The meaning of REGISTER_WRITE (R349): BAR2 writes reach the host-exchange region directly (R350). -/
def execRegisterWrite (t : Nat) (addr : BarAddress) (data : Bytes) (s : State) : Host.Outcome State Fault Refusal :=
  let s := s.arrive t
  let offset := addr.offset
  .next (match addr.bar with
    | .bar0 =>
      if !accessOk offset data.length then badAccess offset data.length true s
      else if barOpen s then writeTable offset data s else s
    | .bar2 =>
      if barOpen s && offset + data.length ≤ exchangeSize then
        writeWindow offset data s else s)

/-- The meaning of UNSUPPORTED_BAR0_ACCESS (R349). -/
def execUnsupportedBar0Access (t offset size : Nat) (write : Bool) (s : State) : Host.Outcome State Fault Refusal :=
  .next (badAccess offset size write (s.arrive t))

/-- The meaning of REGISTER_64_LOW_READ (R44): the low word is returned and the high word latched; any other aligned read of
BAR0 and a read of the host-exchange region through BAR2 return what stands there (R349, R350). -/
def execRegister64LowRead (t : Nat) (read : BarRead) (s : State) : Host.Outcome State Fault Refusal :=
  let s := s.arrive t
  let offset := read.offset
  let size := read.size
  .next (match read.bar with
    | .bar0 => if accessOk offset size then readThrough (readBar0 offset size) s else badAccess offset size false s
    | .bar2 =>
      if offset + size ≤ exchangeSize then readThrough (fun s => (s.readExchange offset size, s)) s else s)

/-- The meaning of REGISTER_64_HIGH_READ (R44): the latched word is returned and released. -/
def execRegister64HighRead (t offset : Nat) (s : State) : Host.Outcome State Fault Refusal :=
  let s := s.arrive t
  .next (if offset % 4 == 0 then readThrough (readBarWord offset) s else badAccess offset 4 false s)

/-- The meaning of ERR_ENTRY_READ (R422): the first word is returned and the whole entry latched. -/
def execErrEntryRead (t n : Nat) (s : State) : Host.Outcome State Fault Refusal :=
  .next (readThrough (readBarWord (0x48100 + 32 * n)) (s.arrive t))

/-- The meaning of ERR_ENTRY_LAST_READ (R422): the last word of the latched entry is returned and the latch released. -/
def execErrEntryLastRead (t n : Nat) (s : State) : Host.Outcome State Fault Refusal :=
  .next (readThrough (readBarWord (0x48100 + 32 * n + 28)) (s.arrive t))

/-! ### MSI-X, DMA errors and configuration requests -/

/-- The meaning of MSIX_SIGNAL (R363): a due vector is signalled, at most once per 50 µs. -/
def execMsixSignal (t vector : Nat) (s : State) : Host.Outcome State Fault Refusal :=
  let s := s.arrive t
  let spaced := match s.host.msixLast.getD vector none with | some a => a + us 50 ≤ s.now | none => true
  .next (if vector < 4 && s.host.msixDue.getD vector false && spaced && s.host.linkUp then
      { s with host := { s.host with
        msixDue := s.host.msixDue.set vector false, msixLast := s.host.msixLast.set vector (some s.now) } }
    else s)

/-- Advanced Error Reporting records an error (R355). -/
def recordAer (s : State) : State := { s with host := { s.host with aer := true } }

/-- The meaning of DMA_COMPLETION_ERROR (R355): the ring stops with ERROR and 0x6906, and Advanced Error Reporting records
the error; an error on the status page stops no ring. -/
def execDmaCompletionError (t : Nat) (ring : Option Nat) (s : State) : Host.Outcome State Fault Refusal :=
  let s := s.arrive t
  .next (match ring with
    | none => if s.host.rings.any (·.enable) then raise 0x6906 0xFF (recordAer s) else s
    | some n =>
      let r := s.ring n
      if n < 6 && r.enable && !r.error then raise 0x6906 n (recordAer (s.setRing n { r with error := true })) else s)

/-- A double word of configuration space: the vendor and device IDs, and the class code (Table 13.1). What every other
field holds is the PCI Express Base Specification's: free (log 31). -/
def configurationWord (offset : Nat) (s : State) : Bytes × State :=
  if offset == 0 then (toLe 4 (packFields [(0xA7C0, 16, 16), (Config.vendorId.toNat, 0, 16)]), s)
  else
    let (v, s) := s.free
    (if offset == 8 then toLe 4 (packFields [(0x120000, 8, 24), (v.toNat, 0, 8)]) else toLe 4 v.toNat, s)

/-- The meaning of CONFIGURATION_REQUEST (R345): the completion is Configuration Request Retry Status until enumeration
opens and during a Function Level Reset, normal otherwise; with the endpoint in reset there is none. -/
def execConfigurationRequest (offset : Timed Nat) (s : State) : Host.Outcome State Fault Refusal :=
  let s := s.arrive offset.time
  .next (if !s.host.perstN || !s.host.linkUp || s.dawn.phase == .unpowered then complete .none [] s
    else if !s.host.enumOpen || s.host.flr then complete .retry [] s
    else (let r := configurationWord offset.val s; complete .success r.1 r.2))

/-! ### Resets and the link (R345 to R347) -/

/-- The stop that a reset of the function makes (R346, R339): in a ring with ABORT of cause 0x3A08 both ways round. -/
def resetStop (s : State) : State :=
  if s.abortable 0x3A08 then startAbort 0x3A08 false none none s
  else
    let s := if s.inRing && s.job.phase == .armed then sendAbort 0x3A08 s else s
    applyStop .aborted s

/-- A Function Level Reset begins: the job is stopped, records and requests are discarded, every ring is disabled and every
pointer cleared; queued events stay (R346). -/
def beginFlr (s : State) : State :=
  let active := s.hasJob && s.job.phase != .stopping
  let s := { s with
    host := { s.host with
      flr := true, flrStopped := s.host.flrStopped || active, waiting := [], responses := [] },
    job := { s.job with startReq := none } }
  let s := if active then resetStop s else s
  let s := { s with host := { s.host with
      rings := s.host.rings.map fun r => { r with enable := false, error := false, host := 0, mine := 0 },
      arrivals := [], heldFrame := none, conds := [], windowWrites := [], waiting := [], responses := [], latch := [], errLatch := [],
      msixDue := List.replicate 4 false } }
  stopComplete s

/-- The meaning of FUNCTION_LEVEL_RESET (R346). -/
def execFunctionLevelReset (t : Nat) (s : State) : Host.Outcome State Fault Refusal :=
  let s := s.arrive t
  .next (if (s.inService || s.dawn.phase == .warm) && s.host.linkUp then beginFlr s else s)

/-- The meaning of FLR_COMPLETE (R346): the reset ends with 0x6401, once the stop that it made has run. -/
def execFlrComplete (t : Nat) (s : State) : Host.Outcome State Fault Refusal :=
  let s := s.arrive t
  .next (if s.host.flr && s.job.deferred.isNone then
      let stopped := s.host.flrStopped
      raiseAs 0x6401 (!stopped) .host false 0
        { s with host := { s.host with flr := false, flrStopped := false } }
    else s)

/-- The link is down: no bandwidth (R347). -/
def linkDown (s : State) : State := { s with host := { s.host with linkUp := false, mbps := 0 } }

/-- The meaning of CONVENTIONAL_RESET (R346): the effect of a Function Level Reset, and the link retrains; Dawn does not
restart. -/
def execConventionalReset (t : Nat) (s : State) : Host.Outcome State Fault Refusal :=
  let s := s.arrive t
  .next (if s.inService || s.dawn.phase == .warm then linkDown (beginFlr s) else linkDown s)

/-- The meaning of PCIE_LINK_LOSS (R347): the job goes on; the next boundary finds no bandwidth. -/
def execPcieLinkLoss (t : Nat) (s : State) : Host.Outcome State Fault Refusal := .next (linkDown (s.arrive t))

/-- The meaning of PERST_N_DEASSERT (R345): the endpoint leaves reset and the retry period starts. -/
def execPerstNDeassert (t : Nat) (s : State) : Host.Outcome State Fault Refusal :=
  let s := s.arrive t
  .next { s with host := { s.host with perstN := true, retryFrom := some s.now } }

/-- The meaning of PCIE_LINK_TRAINED (R343): the link is up at a bandwidth in MB/s per direction, and what waits for the
host is written. -/
def execPcieLinkTrained (t mbps : Nat) (s : State) : Host.Outcome State Fault Refusal :=
  let s := s.arrive t
  .next (if s.host.perstN && s.dawn.phase != .unpowered then
      afterRoom { s with host := { s.host with linkUp := true, mbps := mbps } }
    else s)

end Sys2Proof.Machine
end

