-- ==== Sys2Proof/Machine/Links.lean ====
section
/-! DEFINITION. The Kenum links: what a port does with a flit (R317 to R320), port faults and training (R313, R315, R318),
ring formation (R322, R323), and the control flits of a ring job (R19, R332 to R339). -/

namespace Sys2Proof.Machine

/-! ### Ports going down -/

/-- The latest code that concerns a port (Table 12.13). -/
def notePort (n code : Nat) (s : State) : State := s.setPort n { s.port n with lastCode := code }

/-- A port goes down (R318): 0x3A03, charged to a lane that lost FEC lock (R416), then the common abort of a ring job
(R334). Outside a running tick it retrains by itself (R337). -/
def portDown (n : Nat) (lane : Option Nat) (s : State) : State :=
  let s := notePort n 0x3A03 (s.setPort n ((s.port n).withPhase .down))
  let s := match lane with
    | some l => countError 0x3A03 .link false (unitOf 5 (4 * n + l)) noSite n s
    | none => raiseAs 0x3A03 false .link false n s
  if s.dawn.phase == .eclipse then s
  else
    let s := startAbort 0x3A03 true none none s
    if s.job.phase == .running || s.job.phase == .draining then s
    else s.setPort n ((s.port n).withPhase .training)

/-- Whether n is one of the ports 0 to 3, and up. -/
def portUp (s : State) (n : Nat) : Bool := n < 4 && (s.port n).phase == .up

/-- The meaning of REPLAY_STALL_TIMEOUT (R318): the replay buffer is full and ACK has stood for 20 µs. -/
def execReplayStallTimeout (t port : Nat) (s : State) : Host.Outcome State Fault Refusal :=
  let s := s.arrive t
  let stood := match (s.port port).ackAt with | some a => decide (a + us 20 ≤ s.now) | none => true
  .next (if portUp s port && 512 ≤ (s.port port).replay.length && stood then portDown port none s else s)

/-- The meaning of FEC_LOCK_LOSS (R318). -/
def execFecLockLoss (t port lane : Nat) (s : State) : Host.Outcome State Fault Refusal :=
  let s := s.arrive t
  .next (if portUp s port && lane < 4 then portDown port (some lane) s else s)

/-! ### Receiving (R317 to R320) -/

/-- ACK takes the acknowledged flits out of the replay buffer (R318). -/
def Port.acked (p : Port) (ack : Nat) (now : Time) : Port :=
  match p.replay.findIdx? fun f => flitSeq f == ack with
  | some i => { p with replay := p.replay.drop (i + 1), retrans := p.retrans.drop (i + 1), ackAt := some now }
  | none => p

/-- A flit of the replay buffer as it leaves again, with the newest ACK of the port (Table 12.3). -/
def Port.again (p : Port) (f : Bytes) : Bytes :=
  flitOf 1 (flitSeq f) p.lastSeq (flitControl f) false 0 0 ((f.drop 8).take 240)

/-- Every flit after ACK is sent again, in order (R318). -/
def Port.resend (p : Port) : Port :=
  { p with retrans := p.retrans.map (· + 1), retried := p.retried + p.replay.length }.emit (p.replay.map p.again)

/-- What the link header of a good flit does: ACK, credits, NAK; after 8 retransmissions of one flit the port goes down
(R318, R319). -/
def takeHeader (n : Nat) (f : Bytes) (s : State) : State :=
  let p := (s.port n).acked (flitAck f) s.now
  let p := { p with
    dataCredits := min 224 (p.dataCredits + flitCredD f), ctrlCredits := min 32 (p.ctrlCredits + flitCredC f) }
  let p := if flitNak f then p.resend else p
  if p.retrans.any (8 ≤ ·) then portDown n none (s.setPort n p) else pump n (s.setPort n p)

/-- Whether a flit that arrived on a port travels forward, toward position i + 1. -/
def movesForward (n : Nat) : Bool := 2 ≤ n

/-- A flit goes on to the next member, unchanged but for the link header and the hop count of a TICK (R320); one for every
member ends before the member that sent it. Its receive buffer is free, and a credit returns, once it has left (R319). -/
def passOn (n : Nat) (f : Bytes) (s : State) : State :=
  let fw := movesForward n
  let r := max 1 s.link.ringSize
  let next := if fw then (s.link.position + 1) % r else (s.link.position + r - 1) % r
  let body := (f.drop 8).take 240
  let body := if flitOp f == 0x20 then body.set 25 (BitVec.ofNat 8 (byteAt body 25 + 1)) else body
  if flitDst f == 0xFF && next == flitSrc f then returnCredit n (flitControl f) s
  else if flitControl f then sendControl fw (some n) body s else sendData fw (some n) body s

/-- Whether a flit is for this member. -/
def forMe (s : State) (f : Bytes) : Bool := flitDst f == 0xFF || flitDst f % 16 == s.link.position

/-- A flit passes the decoder of a port that is up (R316): whether it is good, and the state after it. -/
def hear (n errors : Nat) (f : Bytes) (s : State) : Bool × State :=
  let r := (s.port n).decode errors
  (flitGood f r.1, s.setPort n r.2)

/-- An accepted flit acts here, goes on, or both: one for every member goes on where fwd holds. The buffer of one that stays
here is free at once (R319, R320). -/
def deliverFlit (n : Nat) (f : Bytes) (fwd : State → Bool) (act : State → State) (s : State) : State :=
  let kept := returnCredit n (flitControl f)
  let ack := sendPlain n 0 false 0 0 []
  if flitDst f == 0xFF then act (if fwd s then passOn n f (ack s) else kept s)
  else if forMe s f then act (kept s)
  else passOn n f (ack s)

/-- A transaction flit arrives: with a good CRC and the next SEQ it is accepted and acknowledged; otherwise it is discarded
and NAK asks for it again (R318). -/
def receive (n op : Nat) (f : Bytes) (errors : Nat) (fwd : State → Bool) (act : State → State) (s : State) : State :=
  if !portUp s n then s
  else
    let (good, s) := hear n errors f s
    if !good then sendPlain n 0 true 0 0 [] s
    else if flitKind f != 1 || flitOp f != op then s
    else
      let s := takeHeader n f s
      if !portUp s n then s
      else if flitSeq f != ((s.port n).lastSeq + 1) % 4096 then sendPlain n 0 true 0 0 [] s
      else deliverFlit n f fwd act (s.setPort n { s.port n with lastSeq := flitSeq f })

/-- Every flit for every member goes on. -/
def always (_ : State) : Bool := true

/-- A flit that takes no SEQ arrives at a port that is up (R317): it acts if it is good and of the kind expected. -/
def hearPlain (n errors : Nat) (f : Bytes) (wanted : Bool) (act : State → State) (s : State) : State :=
  if !portUp s n then s
  else
    let (good, s) := hear n errors f s
    if good && wanted then act s else s

/-- The meaning of IDLE_FLIT (R317): credits and acknowledgements; a bad one is not retried. -/
def execIdleFlit (t port : Nat) (flit : Bytes) (errors : Nat) (s : State) : Host.Outcome State Fault Refusal :=
  .next (formationDue (hearPlain port errors flit (flitKind flit == 0 && !flitNak flit) (takeHeader port flit)
    (s.arrive t)))

/-- The meaning of NAK (R318). -/
def execNak (t port : Nat) (flit : Bytes) (errors : Nat) (s : State) : Host.Outcome State Fault Refusal :=
  .next (hearPlain port errors flit (flitKind flit != 1 && flitNak flit) (takeHeader port flit) (s.arrive t))

/-! ### Training and formation (R313, R322, R323) -/

/-- The body of an IDENT flit of a port (Table 12.6). -/
def identBody (s : State) (n : Nat) : Bytes :=
  flitBody 0x30 0 0 0 0 0 160 0
    (toLe 1 s.dawn.ga.toNat ++ toLe 1 n ++ toLe 2 (fwRevision s.dawn.firmware)
      ++ slice (Config.sha384 (idPublic s.dawn.secret)) 0 48 ++ slice s.dawn.fwMeasure 0 48
      ++ slice (imgDigest s.dawn.planImage) 0 48 ++ toLe 8 (s.port n).delayNs)

/-- The body of a PROBE that carries a list of GA values (Table 12.4). -/
def probeBody (l : List Nat) : Bytes :=
  flitBody 0x31 0 0 0 0 0 32 0 (slice (l.map (BitVec.ofNat 8)) 0 16 ++ toLe 1 l.length)

/-- A PROBE goes forward with this member's GA appended. -/
def sendProbe (l : List Nat) (s : State) : State :=
  sendPlain (controlPort s true) 2 false 0 0 (probeBody (l ++ [s.dawn.ga.toNat])) s

/-- Whether every port of this member is up and cabled as R314 requires, its peers with this member's images (R322). -/
def mayProbe (s : State) : Bool := s.link.ports.all fun p => p.phase == .up && p.identified && p.sameImages

/-- A port that a Dawn or PORT_UP brings up (R315): every buffer of the receiver is granted as a credit (R319), IDENT is sent,
and a ring that may re-form stands no longer and has 500 ms to form (R322). -/
def bringUpPort (n : Nat) (s : State) : State :=
  let p := s.port n
  if n < 4 && (p.phase == .training || p.phase == .down) then
    let s := s.setPort n { p.withPhase .up with dataCredits := 224, ctrlCredits := 32, ackAt := some s.now }
    let s := sendPlain n 2 false 0 0 (identBody s n) s
    if forming s then { s with link := { s.link with
      formed := false, ringSize := 0, probes := [], formBy := some (s.now + ms 500) } } else s
  else s

/-- The meaning of PORT_UP (R315): all lanes locked. -/
def execPortUp (t port : Nat) (s : State) : Host.Outcome State Fault Refusal :=
  let s := s.arrive t
  .next (if s.dawn.phase == .passed then bringUpPort port s else s)

/-- The meaning of PORT_TRAINING_TIMEOUT (R313). -/
def execPortTrainingTimeout (t port : Nat) (s : State) : Host.Outcome State Fault Refusal :=
  let s := s.arrive t
  .next (formationDue (if port < 4 && (s.port port).phase == .training then
      raiseAs 0x3201 false .link false port (notePort port 0x3201 (s.setPort port ((s.port port).withPhase .down)))
    else s))

/-- IDENT: the peer's identity; a wrongly cabled port is disabled with 0x3202, and a peer with other images is reported with
0x3204 (R322). Once every port is identified this member's PROBE and those that waited for it go forward. A member beside one
with other images sends and forwards no PROBE, so that no ring forms through it: DEDUCED, R322 says that the ring is not formed
and every two members that differ have neighbours between them that do (log 32). -/
def takeIdent (n : Nat) (f : Bytes) (delayNs : Nat) (s : State) : State :=
  let b := flitPayload f
  let p := s.port n
  let p := { p with peerGa := byteAt b 0 % 16, peerPort := byteAt b 1 % 4, delayNs := delayNs % 65536 }
  if byteAt b 1 != (n + 2) % 4 then
    raiseAs 0x3202 false .link false n (notePort n 0x3202 (s.setPort n (p.withPhase .disabled)))
  else
    let same := slice b 52 48 == slice s.dawn.fwMeasure 0 48 && slice b 100 48 == slice (imgDigest s.dawn.planImage) 0 48
    let s := s.setPort n { p with identified := true, sameImages := same }
    if !same && forming s then formFails 0x3204 (notePort n 0x3204 s)
    else if mayProbe s && forming s then s.link.probes.foldl (fun s l => sendProbe l s) (sendProbe [] s)
    else s

/-- The meaning of IDENT (R322); delayNs is the hop delay that the timed exchange gives (R323). -/
def execIdent (t port : Nat) (flit : Bytes) (errors delayNs : Nat) (s : State) : Host.Outcome State Fault Refusal :=
  .next (hearPlain port errors flit (flitKind flit == 2 && flitOp flit == 0x30) (takeIdent port flit delayNs) (s.arrive t))

/-- A list turned so that its i-th entry comes first. -/
def rotate (l : List Nat) (i : Nat) : List Nat := l.drop i ++ l.take i

/-- Whether a list that a returned PROBE carries begins and ends with this member's neighbours: the next after its own GA, the
previous last. -/
def passesNeighbours (l : List Nat) (s : State) : Bool :=
  l[1]? == some (s.port 0).peerGa && l[1]? == some (s.port 1).peerGa
    && l.getLast? == some (s.port 2).peerGa && l.getLast? == some (s.port 3).peerGa

/-- A member's own PROBE has come back with the GA values of the ring, this member's first, and with it those of all other
members, each of which lists the members that follow it up to this one (R322, R323). -/
def closeRing (l : List Nat) (s : State) : State :=
  let agree := s.link.probes.all fun m => m == l.drop (l.length - m.length)
  if l.length < 2 || 16 < l.length || !agree then formFails 0x3205 s
  else if !l.Nodup then formFails 0x3203 s
  else
    let low := l.foldl min 15
    let i := (l.findIdx? (· == low)).getD 0
    { s with link := { s.link with
        formed := true, ringSize := l.length, members := rotate l i, probes := [], formBy := none,
        position := (l.length - i) % l.length } }

/-- The ring closes once this member's own PROBE and those of every other member are here (R322). -/
def tryClose (s : State) : State := match s.link.probes.find? (·.head? == some s.dawn.ga.toNat) with
  | some l => if l.length ≤ s.link.probes.length then closeRing l s else s
  | none => s

/-- PROBE: a member's own is kept until all are here, another's goes forward with this GA appended. A list that holds this GA
but is not this member's own shows a GA twice (0x3203), one that has no room left shows a ring that does not close (0x3205). A
PROBE is this member's own if it begins with its GA and passes its neighbours: DEDUCED, no field of a PROBE names its sender
(log 32). -/
def takeProbe (f : Bytes) (s : State) : State :=
  let b := flitPayload f
  let l := (List.range (byteAt b 16)).map fun i => byteAt b i % 16
  let ga := s.dawn.ga.toNat
  let keep := { s with link := { s.link with probes := s.link.probes ++ [l] } }
  if l.contains ga then
    if l.head? == some ga && passesNeighbours l s then tryClose keep else formFails 0x3203 s
  else if 16 ≤ l.length then formFails 0x3205 s
  else tryClose (if mayProbe s then sendProbe l keep else keep)

/-- The meaning of PROBE (R322). -/
def execProbe (t port : Nat) (flit : Bytes) (errors : Nat) (s : State) : Host.Outcome State Fault Refusal :=
  let s := s.arrive t
  .next (hearPlain port errors flit
    (flitKind flit == 2 && flitOp flit == 0x31 && movesForward port && forming s && !s.link.formed) (takeProbe flit) s)

/-- A link-control flit that arrives while links train in a Dawn (R322, Table 14.1). -/
def trainingFlit (n : Nat) (f : Bytes) (errors delayNs : Nat) (s : State) : State :=
  hearPlain n errors f (flitKind f == 2) (fun s =>
    if flitOp f == 0x30 then takeIdent n f delayNs s
    else if flitOp f == 0x31 && movesForward n && !s.link.formed then takeProbe f s
    else s) s

/-! ### TICK and READY (R19, R332) -/

/-- The delay of a TICK's way here (R323): that of the port it came in on, and of the hops before, whose measured delays
no flit carries to this member: they are free (log 32). -/
def tickDelay (n hops : Nat) (s : State) : Time × State :=
  (List.range hops).foldl (fun (acc : Time × State) _ =>
    let (v, s) := acc.2.free
    (acc.1 + ns (v.toNat % 65536), s)) (ns (s.port n).delayNs, s)

/-- TICK at a member that follows position 0: T(k) is placed at the forwarded boundary less the delay of its way, from the
copy that took fewer hops; one that names another tick than the next is discarded (R19, R323, Table 12.11). In a ring Squall,
where a member places boundaries of its own, one with Dusk stops the job at the boundary that it names, placed here already or
not (R333, Table 12.11). -/
def takeTick (n : Nat) (f : Bytes) (s : State) : State :=
  let b := flitPayload f
  let hops := byteAt b 9
  let k := le b 0 8
  let dusk := bitAt (byteAt b 8) 2
  let squall := s.job.phase == .squall && !s.awaitsResume
  if !s.followsRing || s.link.ringSize < 2 * (hops + 1) then s
  else if k == s.nextIndex && (!squall || dusk) then
    let (d, s) := tickDelay n hops s
    boundary (.forwarded (byteAt b 8) d) s
  else if squall && dusk && k == s.tick.index then duskStop ((s.job.dusk.map (·.code)).getD 0x1908) s
  else s

/-- The meaning of TICK (R19). -/
def execTick (t port : Nat) (flit : Bytes) (errors : Nat) (s : State) : Host.Outcome State Fault Refusal :=
  .next (receive port 0x20 flit errors always (takeTick port flit) (s.arrive t))

/-- READY(k) of a position is held (R332). -/
def takeReady (f : Bytes) (s : State) : State :=
  let k := le (flitPayload f) 0 8
  if s.inRing && s.inJob && s.tick.index ≤ k && !s.link.ready.contains (flitSrc f, k) then
    { s with link := { s.link with ready := s.link.ready ++ [(flitSrc f, k)] } }
  else s

/-- The meaning of READY (R332). -/
def execReady (t port : Nat) (flit : Bytes) (errors : Nat) (s : State) : Host.Outcome State Fault Refusal :=
  .next (receive port 0x21 flit errors always (takeReady flit) (s.arrive t))

/-- The meaning of READY_TIMEOUT (R332): READY from every member is not held by T(k) + 0.95 Tp. -/
def execReadyTimeout (t : Nat) (s : State) : Host.Outcome State Fault Refusal :=
  let s := s.arrive t
  .next (if s.inRing && s.ticking && s.tick.boundary + s.tick.tp * 95 / 100 ≤ s.now && !readyHeld s && !s.tickCommitted then
      startAbort 0x3A07 false none none s
    else s)

/-! ### ABORT (R334, R339) -/

/-- Whether an ABORT acts here: it names the current tick, which has not been aborted, or for a reset member the ring is in
Squall (R334, R339, Table 12.11). -/
def abortActs (f : Bytes) (s : State) : Bool :=
  let b := flitPayload f
  s.abortable (le b 8 2) && (le b 0 8 == s.tick.index || s.job.phase == .squall)

/-- Whether an ABORT of a reset member ends an ARMED job before it starts (R339, Table 1.8). -/
def abortEndsArmed (f : Bytes) (s : State) : Bool :=
  s.inRing && s.job.phase == .armed && le (flitPayload f) 8 2 == 0x3A08

/-- ABORT for the current tick is forwarded once and acted on; one that names another tick, or comes again, is discarded.
In ARMED, one of a reset member ends the job before it starts (R334, R339). -/
def takeAbortFlit (f : Bytes) (s : State) : State :=
  if abortActs f s then takeAbort (le (flitPayload f) 8 2) none none s
  else if abortEndsArmed f s then applyStop .aborted (raiseAs 0x3A08 false .link false 0 s)
  else s

/-- The meaning of ABORT (R334). -/
def execAbort (t port : Nat) (flit : Bytes) (errors : Nat) (s : State) : Host.Outcome State Fault Refusal :=
  .next (receive port 0x22 flit errors (fun s => abortActs flit s || abortEndsArmed flit s) (takeAbortFlit flit) (s.arrive t))

/-! ### Ring Squall (R335, R336) -/

/-- A committed tick from its code. -/
def tickOfCode (n : Nat) : Option Nat := if n == 0xFFFFFFFFFFFFFFFF then none else some n

/-- The lesser of two newest committed ticks; a member with none has committed less than every other. -/
def leastTick (a b : Option Nat) : Option Nat := match a, b with | some x, some y => some (min x y) | _, _ => none

/-- This member goes back to the common tick c where its own newest commit is one tick later: it restores the older of its
two checkpoints, and frames whose pixels tick c + 1 decoded have none (R332, R335). -/
def adoptTick (c : Option Nat) (s : State) : State := match s.job.squall with
  | none => s
  | some q =>
    if q.c == c then s
    else
      let ck := if c.isSome then s.job.ckptTick.map (· - 1) else none
      let ak := match ck with | some k => le (s.readMem .hbm (ckptAddr s 0 k) 4096) 28 4 | none => 0
      let s := withdrawRequests c s
      let s := { s with job := { s.job with
          squall := some { q with c := c }, committed := c, ckptTick := ck, akCommitted := ak,
          frames := s.job.frames.map fun f => { f with decoded := f.decoded && match c with
            | some c => f.accepted + planP s.plan ≤ c | none => false } } }
      match ck with
      | none => s
      | some k => match restoreCheckpoint q.die k s with
        | some s => s
        | none => stopJob .aborted false (raise 0x4305 k s)

/-- The meaning of NEWEST_COMMITTED_TICK_REPORT (R335): position 0 takes note of a member's newest committed tick, and of
whether it is restored. -/
def execNewestCommittedTickReport (t position tick : Nat) (restored : Bool) (s : State) :
    Host.Outcome State Fault Refusal :=
  let s := s.arrive t
  .next (if s.inRing && s.job.position == 0 && s.job.phase == .squall && 0 < position && position < s.job.variant then
      { s with link := { s.link with
          reports := (s.link.reports.filter (·.position != position)) ++ [⟨position, tick, restored⟩] } }
    else s)

/-- Whether every other member has reported itself restored. -/
def othersRestored (s : State) : Bool := (List.range s.job.variant).all fun p =>
  p == 0 || s.link.reports.any fun r => r.position == p && r.restored

/-- RING_RESTORED: position 0 takes c as the least of the newest committed ticks, chooses r as the first boundary at least
1.0 ms later and sends RESUME(c, r) (R335). -/
def ringRestored (s : State) : State := match s.job.phase, s.job.squall with
  | .squall, some q =>
    if q.ring && q.complete.isSome && s.job.position == 0 && s.link.resumeAt.isNone && s.ringUp
        && s.link.ringSize == s.job.variant && s.link.position == 0 && othersRestored s then
      let c := s.link.reports.foldl (fun c r => leastTick c (tickOfCode r.tick)) q.c
      let r := s.tick.index + max 1 (ceilDiv (s.now + ms 1 - s.tick.boundary) (max 1 s.tick.tp))
      let s := sendBothWays 0x23 (toLe 8 (tickCode c) ++ toLe 8 r) s
      adoptTick c { s with link := { s.link with resumeAt := some (tickCode c, r) } }
    else s
  | _, _ => s

/-- The meaning of RING_RESTORED (R335). -/
def execRingRestored (t : Nat) (s : State) : Host.Outcome State Fault Refusal := .next (ringRestored (s.arrive t))

/-- RESUME at a member: tick r performs the work of tick c + 1 (R335). -/
def takeResume (f : Bytes) (s : State) : State :=
  let b := flitPayload f
  if s.followsRing && s.job.phase == .squall && s.link.resumeAt.isNone then
    adoptTick (tickOfCode (le b 0 8)) { s with link := { s.link with resumeAt := some (le b 0 8, le b 8 8) } }
  else s

/-- The meaning of RESUME (R335). -/
def execResume (t port : Nat) (flit : Bytes) (errors : Nat) (s : State) : Host.Outcome State Fault Refusal :=
  .next (receive port 0x23 flit errors always (takeResume flit) (s.arrive t))

/-- The meaning of RING_RECOVERY_TIMEOUT (R336): no RESUME 3 s after the first detection; the job stops by Dusk with
0x3A06. -/
def execRingRecoveryTimeout (t : Nat) (s : State) : Host.Outcome State Fault Refusal :=
  let s := s.arrive t
  .next (match s.job.phase, s.job.squall with
    | .squall, some q =>
      if q.ring && s.link.resumeAt.isNone && q.detected + sec 3 ≤ s.now then
        duskStop 0x3A06 (raiseAs 0x3A06 false .link false 0 s)
      else s
    | _, _ => s)

/-- The meaning of MEMBER_DUSK_CAUSE (R333): position 0 applies it at the first boundary at least 100 µs later. -/
def execMemberDuskCause (t position code : Nat) (s : State) : Host.Outcome State Fault Refusal :=
  let s := s.arrive t
  .next (if s.inRing && s.inJob && s.job.position == 0 && 0 < position && position < s.job.variant
      && s.link.memberDusk.isNone then
      { s with link := { s.link with memberDusk := some (code % 65536, s.now + us 100, s.tick.index) } }
    else s)

/-! ### REQUEST (R338) -/

/-- The REQUEST of a JOB_START: T(0) as position 0 chose it, or its refusal, where every member whose job digest differs from
that of position 0 finds its own JOB_START refused too (R181, R338). -/
def takeStart (b : Bytes) (s : State) : State := match s.job.startReq with
  | some req =>
    if le b 216 8 == noStart then refuseStart req 0x1805 s
    else placeStart req (ns (le b 216 8)) (ns (le b 216 8)) { s with job := { s.job with startReq := none } }
  | none => s

/-- A job request that position 0 forwarded is applied here as it was there. -/
def takeRequest (f : Bytes) (s : State) : State :=
  let b := flitPayload f
  if le b 0 2 == 0x0001 && s.link.position != 0 then takeStart b s
  else if !s.followsRing then s
  else match le b 0 2 with
    | 0x0002 => if s.job.phase == .running then noteEnd s else s
    | 0x0003 => applyStop .preemption s
    | 0x0004 => applyStop .aborted s
    | 0x0005 => noteKeys (byteAt b 8) s
    | 0x0006 => noteSplit (byteAt b 8 == 1) s
    | _ => s

/-- The meaning of REQUEST (R338). -/
def execRequest (t port : Nat) (flit : Bytes) (errors : Nat) (s : State) : Host.Outcome State Fault Refusal :=
  .next (receive port 0x24 flit errors always (takeRequest flit) (s.arrive t))

end Sys2Proof.Machine
end

