-- ==== Sys2Proof/Machine/Rng.lean ====
section
/-! DEFINITION. The lane random generators: the draw function (R180), streams and bindings (R182 to R184), logical
indices (R185, R186), and the values made from a draw (R188 to R191). -/

namespace Sys2Proof.Machine

/-! ### The draw (R180) -/

/-- 2^64. -/
def two64 : Nat := 0x10000000000000000

/-- Rotation left within 64 bits. -/
def rotl64 (x n : Nat) : Nat := (x * 2 ^ n + x / 2 ^ (64 - n)) % two64

/-- The state of mix between rounds. -/
structure MixState where
  a  : Nat
  b  : Nat
  ka : Nat
  kb : Nat
deriving DecidableEq, Repr

/-- One round of mix. -/
def mixRound (m : MixState) : MixState :=
  let a := (m.a ^^^ m.ka) * 0xD35A2D974C91B6E5 % two64
  let b := (m.b ^^^ m.kb) * 0x9B1F7E43A6C582D9 % two64
  let a := a ^^^ (a / 2 ^ 32)
  let b := b ^^^ (b / 2 ^ 29)
  ⟨b ^^^ rotl64 a 23, a, (m.ka + 0x8F3E61D52B79C4A7) % two64, (m.kb + 0xE6C10B935D274F8B) % two64⟩

/-- A draw: its four words. -/
structure Draw where
  w0 : Nat
  w1 : Nat
  w2 : Nat
  w3 : Nat
deriving DecidableEq, Repr

/-- The draw of a key and a counter (R180). -/
def mix (seed stream index epoch step draw : Nat) : Draw :=
  let m : MixState := ⟨index % two64, ((step * 2 ^ 16 + draw) * 2 ^ 32 + epoch) % two64, seed % two64,
    (stream * 2 ^ 32 + 0x4E2D96B1) % two64⟩
  let m := mixRound (mixRound (mixRound (mixRound m)))
  let a := m.a ^^^ m.ka
  let b := m.b ^^^ m.kb
  ⟨a % 2 ^ 32, a / 2 ^ 32, b % 2 ^ 32, b / 2 ^ 32⟩

/-! ### Values of a draw (R188 to R190) -/

/-- A multiple of 2^-24 as FP32. -/
def ofTwoM24 (n : Nat) : Word := round32 (.fin false n (-24))

/-- The uniform value (R188). -/
def uniformOf (d : Draw) : Word := ofTwoM24 (d.w0 / 2 ^ 8)

/-- The normal variate by Box–Muller (R189). -/
def boxMuller (d : Draw) : Word :=
  let u1 := ofTwoM24 (d.w0 / 2 ^ 8 + 1)
  let u2 := ofTwoM24 (d.w1 / 2 ^ 8)
  let t := mul32 (int32w (-2)) (loge u1)
  let rho := if isZero32 t then zero32 else mul32 t (rsqrt t)
  mul32 rho (cosw u2 true)

/-- The normal variate from the inverse-CDF table (R190). -/
def normalTable (d : Draw) : Word :=
  let j := d.w0 / 2 ^ 22
  let h := round32 (.fin false (2 * (d.w0 % 2 ^ 22) + 1) (-23))
  fma32 (fma32 (romAt64 romNC2 j) h (romAt64 romNC1 j)) h (romAt64 romNC0 j)

/-! ### Streams (Tables 7.2, 7.3) -/

/-- The entry of a stream number in a plan's stream table. -/
def streamEntry (p : Plan) (stream : Nat) : Option Bytes :=
  ((List.range (tableCount p 0x05 48)).map (tableEntry p 0x05 48)).find? fun e => le e 0 4 == stream

/-- INDEX_TENSOR. -/
def strIndex (e : Bytes) : Nat := le e 4 2
/-- BINDING. -/
def strBinding (e : Bytes) : Nat := bits (byteAt e 6) 0 2
/-- FRAME_DIM. -/
def strFrameDim (e : Bytes) : Nat := bits (byteAt e 7) 0 3
/-- ROWS_PER_FRAME. -/
def strRows (e : Bytes) : Nat := le e 8 4
/-- EVAL. -/
def strEval (e : Bytes) : Nat := le e 12 2
/-- Logical extent of dimension j. -/
def strExtent (e : Bytes) (j : Nat) : Nat := le e (16 + 2 * j) 2 + 1
/-- ORIGIN of dimension j. -/
def strOrigin (e : Bytes) (j : Nat) : Nat := le e (26 + 2 * j) 2

/-! ### Logical indices (R185, R186) -/

/-- Every way to write off as Σ o_j × S_j with o_j at most its bound, over (stride, bound) pairs in falling order of
stride. -/
def decompose : List (Nat × Nat) → Nat → List (List Nat)
  | [], off => if off == 0 then [[]] else []
  | (st, bound) :: rest, off =>
    let reach := rest.foldl (fun n q => n + q.1 * q.2) 0
    let lo := if off ≤ reach || st == 0 then 0 else ceilDiv (off - reach) st
    let hi := if st == 0 then bound else min bound (off / st)
    (List.range (hi + 1 - lo)).flatMap fun i => (decompose rest (off - (lo + i) * st)).map ((lo + i) :: ·)

/-- Elements from one byte address to a later one of the same format; none where they do not fall on elements. -/
def elementsBetween (f : Fmt) (bytes : Nat) : Option Nat := match f with
  | .f4s => some (2 * bytes)
  | .u10p => if bytes % 4 == 0 then some (bytes / 4 * 3) else none
  | _ => let w := f.storageBits / 8
         if bytes % w == 0 then some (bytes / w) else none

/-- The ways in which an anchor lies inside an index tensor: the offsets o_0 to o_4 (R185 rule 1). -/
def anchorInside (anchor index : Tensor) : List (List Nat) :=
  if anchor.fmt == index.fmt && anchor.strides == index.strides && anchor.space == index.space
      && index.base ≤ anchor.base && (List.range 5).all (fun j => anchor.dim j ≤ index.dim j) then
    match elementsBetween anchor.fmt (anchor.base - index.base) with
    | none => []
    | some off =>
      let order := sortBy (fun a b => decide (index.strides.getD b 0 ≤ index.strides.getD a 0)) (List.range 5)
      (decompose (order.map fun j => (index.strides.getD j 0, index.dim j - anchor.dim j)) off).map fun os =>
        (List.range 5).map fun j => os.getD ((order.findIdx? (· == j)).getD 0) 0
  else []

/-- The offsets of an anchor (R185): from rule 1, else all zero from rule 2; none where neither rule holds or the
decomposition is not unique. -/
def anchorOffsets (anchor index : Tensor) : Option (List Nat) := match anchorInside anchor index with
  | [o] => some o
  | [] => if anchor.dims == index.dims then some [0, 0, 0, 0, 0] else none
  | _ => none

/-- A stream as one use of it draws: its number, its entry and the offsets of the anchor. -/
structure StreamUse where
  stream  : Nat
  entry   : Bytes
  offsets : List Nat
deriving DecidableEq, Repr

/-- The use of a stream by an anchor tensor. -/
def streamUse (s : State) (stream : Nat) (anchor : Tensor) : StreamUse :=
  let e := (streamEntry s.plan stream).getD (zeros 48)
  ⟨stream, e, (anchorOffsets anchor (s.tensor (strIndex e))).getD [0, 0, 0, 0, 0]⟩

/-- Logical coordinate j of an anchor element (R186), before the frame slot is taken out. -/
def StreamUse.coord (u : StreamUse) (c : List Nat) (j : Nat) : Nat :=
  strOrigin u.entry j + u.offsets.getD j 0 + c.getD j 0

/-- The logical index of an anchor element (R186). -/
def StreamUse.index (u : StreamUse) (c : List Nat) : Nat :=
  let frame := strBinding u.entry == 1
  let fd := strFrameDim u.entry
  let l := fun j => if frame && j == fd then u.coord c j % max 1 (strRows u.entry) else u.coord c j
  let x := fun j => if frame && j == fd then strRows u.entry else strExtent u.entry j
  l 0 + x 0 * (l 1 + x 1 * (l 2 + x 2 * (l 3 + x 3 * l 4)))

/-- epoch and step of an anchor element (Table 7.3). -/
def StreamUse.clock (u : StreamUse) (s : State) (c : List Nat) : Nat × Nat := match strBinding u.entry with
  | 1 =>
    let j := u.coord c (strFrameDim u.entry) / max 1 (strRows u.entry)
    let per := planN s.plan / max 1 (planP s.plan)
    ((s.job.ak + 4294967296 - j % 4294967296) % 4294967296, j * per + strEval u.entry)
  | 2 => ((s.tick.index - s.job.shift) % 4294967296, 0)
  | _ => (0, 0)

/-- The draw that an anchor element takes of a use (R179, R186). -/
def StreamUse.draw (u : StreamUse) (s : State) (c : List Nat) (draw : Nat) : Draw :=
  let (epoch, step) := u.clock s c
  mix s.job.seed u.stream (u.index c) epoch step draw

/-- The rounding of an element that is stored: RNE, or stochastic with draw 0xFFFF of a stream (R87, R191). -/
def storeRounding (s : State) (stochastic : Bool) (stream : Nat) (anchor : Tensor) : List Nat → Rounding :=
  if stochastic then
    let u := streamUse s stream anchor
    fun c => .sr (u.draw s c 0xFFFF).w0
  else fun _ => .rne

end Sys2Proof.Machine
end

