-- ==== Sys2Proof/Machine/Sequencer.lean ====
section
/-! DEFINITION. The sequencer of a core: which command issues next and when (R52 to R54), events (R62), what an issued
command's engine leaves in flight (R67), its selection for Cirrus (R401, R402), and the outputs of engines. -/

namespace Sys2Proof.Machine

/-! ### Outputs -/

/-- What a command writes into one output tensor: storage codes and block scales by logical indices, in logical order. -/
structure Out where
  tensor : Tensor
  codes  : List (List Nat × Nat)
  scales : List (List Nat × Nat)
deriving DecidableEq, Repr

/-- The work of a command's engine: its outputs, the values presented to conversion, its staging-queue entries, the code
with which it kills itself, if it does, what it reports and which resident blocks it reads. -/
structure Work where
  outs   : List Out := []
  values : List Word := []
  staged : List Staged := []
  kill   : Option Nat := none
  /-- Events that it reports while it continues: code and ARG. -/
  notes  : List (Nat × Nat) := []
  /-- Directory entries whose blocks it reads (R274). -/
  reads  : List Nat := []
deriving DecidableEq, Repr

/-- A list cut into runs of n; fuel bounds their number. -/
def chunksFuel {α : Type} (n : Nat) : Nat → List α → List (List α)
  | 0, _ => []
  | fuel + 1, l => if l.isEmpty then [] else l.take n :: chunksFuel n fuel (l.drop n)

/-- A list cut into runs of n, the last one shorter. -/
def chunks {α : Type} (n : Nat) (l : List α) : List (List α) := chunksFuel (max 1 n) l.length l

/-- A 32-bit value as a number: FP32, or INT32. -/
def wordVal (int : Bool) (w : Word) : Val :=
  if int then .fin (decide (w.toInt < 0)) w.toInt.natAbs 0 else val32 w

/-- Values converted into a tensor's format (Table 3.8); whole rows along dimension 0, whose blocks of 32 share a scale
(R82). -/
def outOf (t : Tensor) (rd : List Nat → Rounding) (els : List (List Nat × Val)) : Out :=
  if t.fmt.blockScaled then
    let blocks := (chunks (t.dim 0) els).flatMap (chunks 32)
    let done := blocks.map fun b =>
      let sc := chooseScale t.fmt (b.map (·.2))
      (b.map fun e => (e.1, convertScaled t.fmt (rd e.1) sc e.2), ((b.map (·.1)).headD [], sc))
    ⟨t, done.flatMap (·.1), done.map (·.2)⟩
  else ⟨t, els.map fun e => (e.1, convertElement t.fmt (rd e.1) e.2), []⟩

/-- An output written. -/
def writeOut (cx : Access) (o : Out) (s : State) : State :=
  let s := o.codes.foldl (fun s e => writeCode cx o.tensor e.1 e.2 s) s
  o.scales.foldl (fun s e => writeScale cx o.tensor e.1 e.2 s) s

/-- The bytes of an output in logical order, for the digest (R403). -/
def Out.bytes (o : Out) : Bytes :=
  (o.codes.flatMap fun e => toLe (ceilDiv o.tensor.fmt.storageBits 8) e.2) ++ o.scales.flatMap fun e => toLe 1 e.2

/-! ### Events (R62) -/

/-- The count of an event seen from a core. -/
def eventCount (s : State) (ev core : Nat) : Nat :=
  ((s.compute.counts.find? (·.1 == (ev, eventScope ev core))).map (·.2)).getD 0

/-- Whether an event is set; the number 0 names none. -/
def eventSet (s : State) (ev core : Nat) : Bool :=
  ev == 0 || eventCount s ev core == eventTarget s.plan s.job.path ev (eventScope ev core)

/-- One signal of an event; a count above the target is reported with 0x1707, and the tick enters Squall (R63). -/
def signal (ev core idx : Nat) (s : State) : State :=
  if ev == 0 then s
  else
    let key := (ev, eventScope ev core)
    let n := eventCount s ev core + 1
    let s := { s with compute := { s.compute with
        counts := (s.compute.counts.filter (·.1 != key)) ++ [(key, n)] } }
    if eventTarget s.plan s.job.path ev key.2 < n then commandFault 0x1707 (cmdArg core idx) core s else s

/-! ### Groups (Table 12.7) -/

/-- Ring positions of a group, in group order. -/
def groupMembers (s : State) (g : Nat) : List Nat :=
  let e := slice ((findSection s.plan 0x0C s.job.variant 0xFF 0).getD []) (32 * g) 32
  (List.range (byteAt e 0)).map fun j => byteAt e (4 + j)

/-- Whether a command is a COLL_MM. -/
def isMm (c : Bytes) : Bool := cmdOpcode c == 0x07
/-- Group number of a collective. -/
def collGroup (c : Bytes) : Nat := if isMm c then byteAt c 25 else byteAt c 17
/-- OPERATION of a collective. -/
def collOperation (c : Bytes) : Nat := if isMm c then byteAt c 24 else byteAt c 16
/-- ROOT. -/
def collRoot (c : Bytes) : Nat := if isMm c then byteAt c 26 else byteAt c 18
/-- The members of a collective's group; a job of one member alone is its own group. -/
def collMembers (s : State) (c : Bytes) : List Nat :=
  match groupMembers s (collGroup c) with | [] => [s.job.position] | l => l
/-- This member's group index n. -/
def collIndex (s : State) (c : Bytes) : Nat := ((collMembers s c).findIdx? (· == s.job.position)).getD 0

/-! ### Issue (R53) -/

/-- Whether a program field names a program. -/
def named (c : Bytes) (off : Nat) : Bool := le c off 2 != 0xFFFF

/-- Whether a COLL_MM combines parts on this member: its group has more than one, and the member owns a slice (R330). -/
def combines (s : State) (c : Bytes) : Bool :=
  1 < (collMembers s c).length && (collOperation c != 2 || collIndex s c == collRoot c)

/-- Whether a command holds the vector class beside its own: it runs an attached program or a combine (R141, R215,
R326). -/
def holdsVector (s : State) (c : Bytes) : Bool := match cmdOpcode c with
  | 0x01 => named c 26 || named c 28
  | 0x02 => named c 26 || named c 28
  | 0x03 => named c 34 || named c 36
  | 0x0D => named c 28
  | 0x07 => named c 28 || combines s c
  | _ => false

/-- The engine classes that a command holds. -/
def classesOf (s : State) (c : Bytes) : List EngineClass :=
  classOf (cmdOpcode c) :: (if holdsVector s c then [EngineClass.vector] else [])

/-- Whether two commands need a class in common. -/
def shareClass (s : State) (a b : Bytes) : Bool := (classesOf s a).any fun k => (classesOf s b).contains k

/-- Whether no running command of a core holds a class that a command needs. -/
def engineFree (s : State) (core : Nat) (c : Bytes) : Bool :=
  s.compute.runs.all fun r => r.core != core || r.phase == .finished || !shareClass s r.cmd c

/-- Whether the engine classes that a command needs are free on its core (Table 2.5); a guest that waits for one or runs in
it goes first (R402, R404). -/
def classFree (s : State) (core : Nat) (c : Bytes) : Bool :=
  engineFree s core c && s.compute.guests.all fun g => g.host != core || !shareClass s g.cmd c

/-- The slots that a core's own commands use: all but its reserve for guests (R402). -/
def ownSlots (s : State) : Nat := 16 - planCirrusReserve s.plan

/-- The accumulator slots of a core that no command holds. -/
def freeSlots (s : State) (core : Nat) : List Nat :=
  (List.range (ownSlots s)).filter fun k => !(s.compute.runs.any fun r => r.core == core && r.slots.contains k)

/-- The slots of a core's reserve that no guest holds. -/
def freeReserve (s : State) (core : Nat) : List Nat :=
  ((List.range 16).drop (ownSlots s)).filter fun k =>
    !(s.compute.guests.any fun g => g.host == core && g.slots.contains k)

/-- The next command of a core: a killed one that is to be issued again, else the head of its command buffer (R52). -/
def nextCommand (s : State) (core : Nat) : Option (Nat × Bytes) :=
  match (s.compute.reissue.filter (·.1 == core)).map (·.2) with
  | [] => ((s.compute.buffers.getD core []).head?).map fun c => (s.compute.issued.getD core 0, c)
  | p :: ps => some (ps.foldl (fun b q => if q.1 < b.1 then q else b) p)

/-! ### The edge engine (R215, Table 2.5) -/

/-- The waiting requests for a cluster's edge engine in the order in which they are served: by arrival, those of one instant by
core number. -/
def edgeRequests (s : State) (cluster : Nat) : List (Nat × Time) :=
  sortBy (fun a b => decide (a.2 < b.2 ∨ (a.2 = b.2 ∧ a.1 ≤ b.1))) (s.compute.edgeQueue.filter fun q => q.1 / 8 == cluster)

/-- Whether a core gains its cluster's edge engine: it is free, and no other request is to be served first. DESIGN CHOICE: of two
commands of one instant that find it free the first in the queue takes it (log 50). -/
def edgeTurn (s : State) (core : Nat) : Bool :=
  (s.compute.edge.getD (core / 8) none).isNone && match edgeRequests s (core / 8) with
    | [] => true
    | q :: _ => q.1 == core

/-- Whether a command that needs the edge engine gains it; any other needs none. -/
def edgeFree (s : State) (core : Nat) (c : Bytes) : Bool := cmdOpcode c != 0x0D || edgeTurn s core

/-- A core's request for the edge engine waits, once. -/
def requestEdge (core : Nat) (s : State) : State :=
  if s.compute.edgeQueue.any (·.1 == core) then s
  else { s with compute := { s.compute with edgeQueue := s.compute.edgeQueue ++ [(core, s.now)] } }

/-- A core holds the edge engine of its cluster. -/
def takeEdge (core : Nat) (s : State) : State :=
  { s with compute := { s.compute with
      edge := s.compute.edge.set (core / 8) (some core), edgeQueue := s.compute.edgeQueue.filter (·.1 != core) } }

/-- Whether the tick runs commands. -/
def computing (s : State) : Bool :=
  s.ticking && !s.compute.inReset && !s.compute.abandoned && !s.tickCommitted

/-- The conditions of R53 for the next command of a core, the cluster's edge engine apart. -/
def mayIssue (s : State) (core : Nat) (c : Bytes) : Bool :=
  computing s && core < 64 && eventSet s (cmdWaitEvent c) core && classFree s core c
    && cmdAccSlots c ≤ (freeSlots s core).length

/-- The four conditions of R53 for the next command of a core. -/
def canIssue (s : State) (core : Nat) (c : Bytes) : Bool := mayIssue s core c && edgeFree s core c

/-- The next command of a core waits: where only the edge engine is missing, its request is noted (R215). -/
def waitIssue (core : Nat) (c : Bytes) (s : State) : State :=
  if mayIssue s core c && !edgeFree s core c then requestEdge core s else s

/-! ### Cirrus (R401, R402) -/

/-- Whether Cirrus selects a command in this tick (R401). -/
def cirrusSelects (s : State) (c : Bytes) : Bool :=
  cmdEligible c &&
    (mix s.dawn.cirrusKey.toNat 0xC1A50000 (cmdIndex c) (s.tick.index % 4294967296) 0 0).w0 % 2 ^ cirrusExponent s == 0

/-- The partner core of R402. -/
def partnerOf (core : Nat) : Nat := core ^^^ 8

/-- The arbiter core of R404. -/
def arbiterOf (core : Nat) : Nat := core ^^^ 16

/-- Whether the partner of a core can host one more duplicate: it hosts none, and fewer than CIRRUS_MAX in this tick. -/
def canHost (s : State) (core : Nat) : Bool :=
  let p := partnerOf core
  !(s.compute.guests.any fun g => g.host == p && !g.arbiter)
    && (s.compute.hosted.filter (· == p)).length < s.integrity.cirrusMax

/-- Whether a waiting guest can issue on its host: its classes are free of the host's commands and of other guests, the reserve
has its slots, and an EDGE_CONV gains the host cluster's edge engine (R402, R404). -/
def guestReady (s : State) (g : Guest) : Bool :=
  engineFree s g.host g.cmd && (s.compute.guests.all fun x => x.host != g.host || !x.issued || !shareClass s x.cmd g.cmd)
    && cmdAccSlots g.cmd ≤ (freeReserve s g.host).length && edgeFree s g.host g.cmd

/-- One waiting guest issues if it can; an EDGE_CONV that cannot counts as a request from its host. -/
def startGuest (s : State) (g : Guest) : State :=
  if g.issued then s
  else if guestReady s g then
    let u := { g with issued := true, slots := (freeReserve s g.host).take (cmdAccSlots g.cmd) }
    let s := { s with compute := { s.compute with guests := s.compute.guests.map fun x => if x == g then u else x } }
    if cmdOpcode g.cmd == 0x0D then takeEdge g.host s else s
  else if cmdOpcode g.cmd == 0x0D then requestEdge g.host s else s

/-- Every waiting guest that can issue does. -/
def startGuests (s : State) : State := s.compute.guests.foldl startGuest s

/-- A guest comes to its host. -/
def addGuest (host core place : Nat) (c : Bytes) (arbiter : Bool) (s : State) : State :=
  { s with compute := { s.compute with guests := s.compute.guests ++ [⟨host, core, place, c, arbiter, false, []⟩] } }

/-- Whether the duplicate or the arbiter run of a command has issued. -/
def guestRuns (s : State) (core place : Nat) (arbiter : Bool) : Bool :=
  s.compute.guests.any fun g => g.core == core && g.place == place && g.arbiter == arbiter && g.issued

/-- The Cirrus side of a command that issues: the digest that a re-run must give, or selection as at its first attempt. A
selection that no partner can host is skipped and counted. -/
def selectCirrus (core place : Nat) (c : Bytes) (agreed : Option (Nat × Nat)) (s : State) : CirrusPhase × State :=
  match agreed with
  | some d => (.rerun d, s)
  | none =>
    if !cirrusSelects s c then (.none, s)
    else if canHost s core then
      (.selected none, addGuest (partnerOf core) core place c false
        { s with compute := { s.compute with hosted := s.compute.hosted ++ [partnerOf core] } })
    else (.none, countKind 7 s)

/-! ### Launch -/

/-- The access of a command that issues now on a core: its slots are the lowest free ones, which affects no result
(R61, R98). -/
def accessFor (s : State) (core : Nat) (c : Bytes) (host : Bytes) : Access :=
  ⟨core, (freeSlots s core).take (cmdAccSlots c), host⟩

/-- A command of a core leaves the list of those to issue. -/
def markIssued (core place : Nat) (s : State) : State :=
  if s.compute.reissue.any fun q => q.1 == core && q.2.1 == place then
    { s with compute := { s.compute with
        reissue := s.compute.reissue.filter fun q => !(q.1 == core && q.2.1 == place) } }
  else
    let s := refillBuffer core s
    { s with compute := { s.compute with issued := s.compute.issued.set core (place + 1) } }

/-- The DMA channel that serves a transfer command: the lower one that serves no other (Table 2.3). -/
def freeChannel (s : State) (core : Nat) (c : Bytes) : Option Nat :=
  if classOf (cmdOpcode c) == .transfer then
    [0, 1].find? fun k => !(s.compute.runs.any fun r => r.core == core && r.phase == .running && r.channel == some k)
  else none

/-- Bytes of a tensor's elements and block scales. -/
def Tensor.bytes (t : Tensor) : Nat :=
  packedBytes t.fmt t.count + (if t.fmt.blockScaled then ceilDiv (t.dim 0) 32 * (t.count / max 1 (t.dim 0)) else 0)

/-- What a core's command moves to or from HBM for a tensor, T2 or resident, is charged to its regulator (R260). -/
def chargeTensor (core : Nat) (s : State) (i : Nat) : State :=
  let t := s.tensor i
  match t.space with
  | 0 => chargeCore core t.base t.bytes s
  | 6 => chargeCore core ((s.residentAddr t.base).getD s.dawn.layout.poolBase) t.bytes s
  | _ => s

/-- A command issues: its engine's work goes to its output regions and staging queue, and it is in flight with its slots
(R67). One that kills itself is reported with its code, and the tick enters Squall. -/
def launch (core place : Nat) (c : Bytes) (cx : Access) (w : Work)
    (complete : Bool) (s : State) : State :=
  let s := touchEntries w.reads (w.notes.foldl (fun s e => raise e.1 e.2 s) s)
  match w.kill with
  | some code => commandFault code (cmdArg core (cmdIndex c)) core s
  | none =>
    let agreed := (s.compute.agreed.find? (·.1 == (core, place))).map (·.2)
    let s := markIssued core place s
    let (cirrus, s) := selectCirrus core place c agreed s
    let s := w.outs.foldl (fun s o => writeOut cx o s) s
    let r : Run := { core := core, place := place, cmd := c, phase := .running, slots := cx.slots, staged := w.staged,
                     outBytes := w.outs.flatMap Out.bytes, values := w.values, cirrus := cirrus, work := complete,
                     channel := freeChannel s core c }
    let s := { s with compute := { s.compute with runs := s.compute.runs ++ [r] } }
    startGuests (if cmdOpcode c == 0x0D then takeEdge core s else s)

/-- The sequencer of a core issues its next command if it is the one asked for and R53 allows it; a descriptor that
leaves its space faults (R61). -/
def issue (core : Nat) (host : Bytes) (asked : Bytes → Bool) (tensors : State → Bytes → List Nat)
    (work : Access → Bytes → State → Work) (s : State) : Host.Outcome State Fault Refusal :=
  match nextCommand s core with
  | none => .next s
  | some (place, c) =>
    if !asked c then .next s
    else if !canIssue s core c then .next (waitIssue core c s)
    else if (tensors s c).any fun i => !(s.tensor i).inside then .fault .addressOutsideSpace
    else
      let cx := accessFor s core c host
      .next (launch core place c cx (work cx c s) true ((tensors s c).foldl (chargeTensor core) s))

/-- The tensor-table indices in the 16-bit fields of a command at some offsets; 0xFFFF names none. -/
def tensorFields (offs : List Nat) (c : Bytes) : List Nat := (offs.map fun o => le c o 2).filter (· != 0xFFFF)

end Sys2Proof.Machine
end

