-- ==== Sys2Proof/Machine/Programs.lean ====
section
/-! DEFINITION. Element programs (R126 to R131, R146): evaluation over an iteration space, one instruction at a time for
every element, with the row statistics that a program contributes and reads (R149 to R153). -/

namespace Sys2Proof.Machine

/-! ### Table entries (Tables 5.1, 5.2, 5.8) -/

/-- Entry i of the element-program table. -/
def programAt (p : Plan) (i : Nat) : Bytes := tableEntry p 0x03 272 i
/-- COUNT. -/
def progCount (e : Bytes) : Nat := byteAt e 0
/-- Tensor index of stream Sj; 0xFFFF: none. -/
def progStream (e : Bytes) (j : Nat) : Nat := le e (2 + 2 * j) 2
/-- STAT_OUT. -/
def progStatOut (e : Bytes) : Nat := le e 10 2
/-- STAT_IN. -/
def progStatIn (e : Bytes) : Nat := le e 12 2
/-- Instruction words. -/
def progInstrs (e : Bytes) : List Nat := (List.range (progCount e)).map fun i => le e (16 + 8 * i) 8

/-- IMM of an instruction word. -/
def insImm (w : Nat) : Nat := bits w 32 32
/-- OP. -/
def insOp (w : Nat) : Nat := bits w 26 6
/-- DST. -/
def insDst (w : Nat) : Nat := bits w 23 3
/-- SA. -/
def insSa (w : Nat) : Nat := bits w 19 4
/-- SB. -/
def insSb (w : Nat) : Nat := bits w 15 4
/-- SC. -/
def insSc (w : Nat) : Nat := bits w 11 4
/-- MOD. -/
def insMod (w : Nat) : Nat := bits w 8 3
/-- FMT. -/
def insFmt (w : Nat) : Nat := bits w 4 4

/-- Entry i of the statistic table. -/
def statAt (p : Plan) (i : Nat) : Bytes := tableEntry p 0x04 16 i
/-- KIND; an unknown one reads as MOMENTS (rejected at plan load). -/
def statKind (e : Bytes) : StatKind := (StatKind.ofCode (bits (byteAt e 0) 0 4)).getD .moments
/-- CLUSTER. -/
def statCluster (e : Bytes) : Nat := bits (byteAt e 1) 0 3
/-- SLOT_BASE. -/
def statSlot (e : Bytes) : Nat := le e 2 2
/-- The number of rows. -/
def statRows (e : Bytes) : Nat := le e 4 2 + 1
/-- ROW_LEN. -/
def statRowLen (e : Bytes) : Nat := le e 6 2
/-- C, the number of contributors (R149). -/
def statParties (e : Bytes) : Nat := ceilDiv (statRowLen e) 128

/-! ### Operands -/

/-- An element of a stream as the program sees it: integer formats widen to INT32, the others to FP32 (R128). -/
def sourceWord (s : State) (cx : Access) (t : Tensor) (ix : List Nat) : Word :=
  if t.fmt.isInt then match readVal s cx t ix with
    | .fin neg m _ => BitVec.ofInt 32 (if neg then -(m : Int) else m)
    | .nan => 0
  else widen32 (readVal s cx t ix)

/-- Indices of an iteration space seen by a stream: extent 1 broadcasts (R123). -/
def Tensor.clip (t : Tensor) (ix : List Nat) : List Nat :=
  (List.range 5).map fun j => if t.dim j == 1 then 0 else ix.getD j 0

/-- The row of an element: its indices in dimensions 1 to 4, in order (R151). -/
def rowOf (dims ix : List Nat) : Nat :=
  ix.getD 1 0 + dims.getD 1 1 * (ix.getD 2 0 + dims.getD 2 1 * (ix.getD 3 0 + dims.getD 3 1 * ix.getD 4 0))

/-- The records of a final slot; none while it is not final. -/
def finalRecords (s : State) (cluster slot : Nat) : Option (List StatRec) := match s.compute.ordered.find?
    fun o => o.cluster == cluster && o.slot == slot with
  | some o => o.final.map (·.1)
  | none => none

/-- The final record of a row in a statistic; none while its slot is not final (R153). -/
def rowRecord (s : State) (e : Bytes) (row : Nat) : Option StatRec :=
  match finalRecords s (statCluster e) (statSlot e + row / 128) with
  | some rs => some (rs.getD (row % 128) ⟨0, zero32, zero32, zero32⟩)
  | none => none

/-! ### One instruction on one element (Table 5.4) -/

/-- A relation of CMP. -/
def cmpRel (mod : Nat) (a b : Word) : Bool := match mod with
  | 0 => eq32 a b
  | 1 => !(eq32 a b)
  | 2 => lt32 a b
  | _ => lt32 a b || eq32 a b

/-- A relation of ICMP. -/
def icmpRel (mod : Nat) (a b : Word) : Bool := match mod with
  | 0 => a == b | 1 => a != b | 2 => a.slt b | _ => a.ult b

/-- The result of an instruction that depends on its operands alone. -/
def pureResult (a5 tables micros : Nat → Bytes) (w : Nat) (a b c : Word) : Word :=
  let mod := insMod w
  match insOp w with
  | 0x01 => a
  | 0x02 => add32 a b
  | 0x03 => sub32 a b
  | 0x04 => mul32 a b
  | 0x05 => fma32 a b c
  | 0x06 => min32 a b
  | 0x07 => max32op a b
  | 0x08 => abs32 a
  | 0x09 => neg32 a
  | 0x0A => min32 (max32op a b) c
  | 0x0B => if isNan32 a || isZero32 a then c else b
  | 0x0C => if cmpRel mod a b then one32 else zero32
  | 0x0D => rint32 mod a
  | 0x10 => a + b
  | 0x11 => a - b
  | 0x12 => a * b
  | 0x13 => a &&& b
  | 0x14 => a ||| b
  | 0x15 => a ^^^ b
  | 0x16 =>
    let n := b.toNat % 32
    match mod with | 0 => a <<< n | 1 => a >>> n | _ => a.sshiftRight n
  | 0x17 => if icmpRel mod a b then 1 else 0
  | 0x18 => ofInt32 a.toInt
  | 0x19 => BitVec.ofInt 32 (toInt32 mod a)
  | 0x29 => tblEval .rne (tables (insImm w)) a
  | 0x2A => mprgEval a5 tables (micros (insImm w)) a
  | op => if 0x20 ≤ op && op ≤ 0x28 then builtin a5 (op - 0x20) mod a else a

/-- The value of an RNG instruction (R188 to R190). -/
def rngValue (mod : Nat) (d : Draw) : Word := match mod with
  | 0 => uniformOf d | 1 => boxMuller d | 2 => normalTable d | _ => BitVec.ofNat 32 d.w0

/-! ### Programs -/

/-- What a program runs with. -/
structure ProgEnv where
  cx     : Access
  entry  : Bytes
  /-- Extents of the iteration space. -/
  dims   : List Nat
  /-- The anchor of its draws (Table 7.4). -/
  anchor : Tensor
  /-- RND is active (R146). -/
  exact  : Bool
deriving DecidableEq, Repr

/-- What a program leaves: the operands of its ST and of its STAT, by element, and whether a statistic it read was not
final. -/
structure ProgOut where
  stored   : List Word
  stat     : Option (List Word)
  notFinal : Bool
deriving DecidableEq, Repr

/-- Temporaries of every element, V0 to V7, and what the program has left so far. -/
structure ProgState where
  temps    : List (List Word)
  out      : ProgOut
deriving DecidableEq, Repr

/-- The values of a source field for every element. -/
def sourceValues (s : State) (env : ProgEnv) (ixs : List (List Nat)) (inp : List Word) (temps : List (List Word))
    (imm sel : Nat) : List Word :=
  if sel < 8 then temps.getD sel []
  else if sel < 0xC then
    let t := s.tensor (progStream env.entry (sel - 8))
    ixs.map fun ix => sourceWord s env.cx t (t.clip ix)
  else if sel == 0xC then inp
  else if sel == 0xD then ixs.map fun _ => BitVec.ofNat 32 imm
  else ixs.map fun _ => zero32

/-- An active RND: every element converted to FMT and widened back (R146); an integer format widens to INT32. -/
def roundBack (s : State) (env : ProgEnv) (w : Nat) (ixs : List (List Nat)) (vals : List Word) : List Word :=
  let f := (Fmt.ofCode (insFmt w)).getD .fp32
  let rd := storeRounding s (bitAt (insMod w) 0) (insImm w) env.anchor
  let back := fun (code scale : Nat) =>
    if f.isInt then match elementVal f code scale with
      | .fin neg m _ => BitVec.ofInt 32 (if neg then -(m : Int) else m)
      | .nan => 0
    else widen32 (elementVal f code scale)
  let els := ixs.zip vals
  if f.blockScaled then
    ((chunks (env.dims.headD 1) els).flatMap (chunks 32)).flatMap fun b =>
      let sc := chooseScale f (b.map fun e => val32 e.2)
      b.map fun e => back (convertScaled f (rd e.1) sc (val32 e.2)) sc
  else els.map fun e => back (convertElement f (rd e.1) (val32 e.2)) 0x7F

/-- The A5 table of a function in the active bank, slot 0x20 + fn (R170). -/
def State.a5 (s : State) (fn : Nat) : Bytes := s.activeBank.a5.getD fn []

/-- One instruction for every element. -/
def progStep (s : State) (env : ProgEnv) (ixs : List (List Nat)) (inp : List Word) (ps : ProgState) (w : Nat) :
    ProgState :=
  let src := sourceValues s env ixs inp ps.temps (insImm w)
  let put := fun (r : List Word) => { ps with temps := ps.temps.set (insDst w) r }
  match insOp w with
  | 0x30 =>
    let u := streamUse s (insImm w) env.anchor
    put (ixs.map fun ix => rngValue (insMod w) (u.draw s ix (insSa w)))
  | 0x31 => put (ixs.map fun ix => BitVec.ofNat 32 (ix.getD (insMod w) 0))
  | 0x38 => { ps with out := { ps.out with stat := some (src (insSa w)) } }
  | 0x39 =>
    let e := statAt s.plan (progStatIn env.entry)
    let recs := ixs.map fun ix => rowRecord s e (rowOf env.dims ix)
    let missing := recs.any (·.isNone)
    let eps := BitVec.ofNat 32 (insImm w)
    let ps := put (recs.map fun r => match r with | some r => statQuantity (insMod w) eps r | none => nan32)
    { ps with out := { ps.out with notFinal := ps.out.notFinal || missing } }
  | 0x3C => put (if env.exact then roundBack s env w ixs (src (insSa w)) else src (insSa w))
  | 0x3F => { ps with out := { ps.out with stored := src (insSa w) } }
  | _ =>
    let f := pureResult s.a5 (fun i => s.activeBank.tables.getD i []) (fun i => s.activeBank.micros.getD i []) w
    let as := src (insSa w)
    let bs := src (insSb w)
    let cs := src (insSc w)
    put ((as.zip (bs.zip cs)).map fun q => f q.1 q.2.1 q.2.2)

/-- A program over the elements with given indices and IN values (R122, R123). -/
def runProgram (s : State) (env : ProgEnv) (ixs : List (List Nat)) (inp : List Word) : ProgOut :=
  let blank := ixs.map fun _ => zero32
  ((progInstrs env.entry).foldl (progStep s env ixs inp) ⟨List.replicate 8 blank, ⟨blank, none, false⟩⟩).out

/-- Whether RND is active in a command (R146, R148). -/
def exactSplit (s : State) (c : Bytes) : Bool := cmdSplitExact c || s.job.splitForced

/-- Whether the ST of a program takes an INT32 operand (MOD[0]). -/
def storesInt (e : Bytes) : Bool := (progInstrs e).any fun w => insOp w == 0x3F && bitAt (insMod w) 0

/-! ### Contributions to a statistic (R151, R152) -/

/-- The staging-queue entries of rows of len STAT operands: for each chunk of 128 positions along dimension 0, the records
of the rows, slot by slot. A row that the command did not compute has no operands and a count of 0. -/
def statRowsStaged (p : Plan) (entry : Bytes) (len base : Nat) (rows : List (List Word)) : List Staged :=
  let e := statAt p (progStatOut entry)
  let k := statKind e
  let n := ceilDiv len 128
  (List.range n).flatMap fun ch =>
    let recs := rows.map fun r => statChunk k ((r.drop (128 * ch)).take 128)
    (chunks 128 recs).mapIdx fun j rs => .stats (statCluster e) (statSlot e + j) (base + ch) (statParties e) k rs

/-- The staging-queue entries of the STAT operands of a whole iteration space, in logical order. -/
def statContributions (p : Plan) (entry : Bytes) (dims : List Nat) (base : Nat) (vals : List Word) : List Staged :=
  statRowsStaged p entry (dims.headD 1) base (chunks (dims.headD 1) vals)

/-- The staging-queue entries of the STAT operands of the elements with given indices. -/
def statContributionsAt (p : Plan) (entry : Bytes) (dims : List Nat) (els : List (List Nat × Word)) : List Staged :=
  let rows := (dims.drop 1).foldl (· * ·) 1
  statRowsStaged p entry (dims.headD 1) 0 ((List.range rows).map fun i =>
    (els.filter fun e => rowOf dims e.1 == i).map (·.2))

/-- The tensors that a program reads. -/
def programTensors (p : Plan) (i : Nat) : List Nat :=
  if i == 0xFFFF then []
  else ((List.range 4).map (progStream (programAt p i))).filter (· != 0xFFFF)

end Sys2Proof.Machine
end

