-- ==== Sys2Proof/Machine/Vector.lean ====
section
/-! DEFINITION. The commands of the vector class: VEC_RUN MAP, SCAN and REDUCE (R132 to R137), RNG_FILL (R192, R193) and
POST (R219, R220). -/

namespace Sys2Proof.Machine

/-! ### VEC_RUN (Tables 5.5 to 5.7) -/

/-- OPERATION: 0 MAP, 1 SCAN, 2 REDUCE. -/
def vecOperation (c : Bytes) : Nat := bits (byteAt c 22) 0 2
/-- KIND: 0 SUM, 1 MAX, 2 MIN. -/
def vecKind (c : Bytes) : Nat := bits (byteAt c 22) 2 2
/-- EXCLUSIVE. -/
def vecExclusive (c : Bytes) : Bool := bitAt (byteAt c 22) 4
/-- SEGMENTED. -/
def vecSegmented (c : Bytes) : Bool := bitAt (byteAt c 22) 5
/-- OUT_SR. -/
def vecSr (c : Bytes) : Bool := bitAt (byteAt c 23) 0
/-- SR_STREAM. -/
def vecStream (c : Bytes) : Nat := le c 24 4
/-- CONTRIB_BASE. -/
def vecContrib (c : Bytes) : Nat := le c 28 2

/-- The carry of a scan: an exact sum, or a word for MAX and MIN; an exact integer for INT32 values. -/
inductive Carry where
  | exact (x : Option Exact)
  | word (w : Word)
  | int (i : Int)
deriving DecidableEq, Repr

/-- The carry after one more element (R135); none before is the start of a segment. -/
def scanStep (kind : Nat) (int : Bool) (prev : Option Carry) (w : Word) : Carry :=
  if int then
    let v := w.toInt
    match prev, kind with
    | some (.int p), 0 => .int (p + v)
    | some (.int p), 1 => .int (max p v)
    | some (.int p), _ => .int (min p v)
    | _, _ => .int v
  else match kind with
    | 0 => match prev with
      | some (.exact (some p)) => .exact ((exact32 w).map p.add)
      | some (.exact none) => .exact none
      | _ => .exact (exact32 w)
    | 1 => match prev with | some (.word p) => .word (max32op p w) | _ => .word (max32op w w)
    | _ => match prev with | some (.word p) => .word (min32 p w) | _ => .word (min32 w w)

/-- The value that a carry gives: one rounding, or a clamp to INT32 (R135). -/
def Carry.value : Carry → Word
  | .exact (some x) => x.to32 .rne
  | .exact none => nan32
  | .word w => w
  | .int i => BitVec.ofInt 32 (clampInt (-2147483648) 2147483647 i)

/-- What an exclusive scan gives at the first element of a segment (R136); INT32 takes it clamped to its range. -/
def scanStart (kind : Nat) (int : Bool) : Word := match kind with
  | 0 => zero32
  | 1 => if int then 0x80000000 else lowest32
  | _ => if int then 0x7FFFFFFF else max32

/-- One row scanned along dimension 0 (R135, R136): `starts` marks the elements that begin a segment. -/
def scanRow (kind : Nat) (int exclusive : Bool) (starts : List Bool) (vals : List Word) : List Word :=
  ((vals.zip starts).foldl (fun (acc : List Word × Option Carry) q =>
    let prev := if q.2 then none else acc.2
    let next := scanStep kind int prev q.1
    let v := if exclusive then (match prev with | some p => p.value | none => scanStart kind int) else next.value
    (v :: acc.1, some next)) ([], none)).1.reverse

/-- The work of a VEC_RUN. -/
def vecWork (cx : Access) (c : Bytes) (s : State) : Work :=
  let p := s.plan
  let entry := programAt p (le c 16 2)
  let inIx := le c 18 2
  let out := s.tensor (le c 20 2)
  let int := storesInt entry
  let op := vecOperation c
  let inT := s.tensor inIx
  let dims := if op == 2 then inT.dims else out.dims
  let anchor := if op == 2 then inT else out
  let ixs := (List.range (dims.foldl (· * ·) 1)).map (unflatten dims)
  let inp := ixs.map fun ix => if inIx == 0xFFFF then zero32 else sourceWord s cx inT (inT.clip ix)
  let env : ProgEnv := ⟨cx, entry, dims, anchor, exactSplit s c⟩
  let r := runProgram s env ixs inp
  let rd := storeRounding s (vecSr c) (vecStream c) out
  let starts : List (List Bool) :=
    if vecSegmented c && op == 1 then
      let t := s.tensor (progStream entry 3)
      chunks (dims.headD 1) (ixs.map fun ix => ix.headD 0 == 0 || sourceWord s cx t (t.clip ix) != 0)
    else chunks (dims.headD 1) (ixs.map fun ix => ix.headD 0 == 0)
  let rows := chunks (dims.headD 1) r.stored
  let scanned := (rows.zip starts).map fun q => scanRow (vecKind c) int (vecExclusive c && op == 1) q.2 q.1
  let words := match op with
    | 0 => r.stored
    | 1 => scanned.flatten
    | _ => scanned.map fun row => row.getLast?.getD zero32
  let outIxs := if op == 2 then out.indices else ixs
  let staged := match r.stat with
    | some v => statContributions p entry dims (vecContrib c) v
    | none => []
  { outs := [outOf out rd ((outIxs.zip words).map fun e => (e.1, wordVal int e.2))], values := words, staged := staged,
    kill := if r.notFinal then some 0x1207 else none }

/-- The tensors that a VEC_RUN names. -/
def vecTensors (s : State) (c : Bytes) : List Nat := tensorFields [18, 20] c ++ programTensors s.plan (le c 16 2)

/-- Whether a command is a VEC_RUN of an operation. -/
def isVec (op : Nat) (c : Bytes) : Bool := cmdOpcode c == 0x04 && vecOperation c == op

/-- The meaning of MAP (R134). -/
def execMap (t core : Nat) (s : State) : Host.Outcome State Fault Refusal :=
  issue core [] (isVec 0) vecTensors vecWork (s.arrive t)

/-- The meaning of SCAN (R135). -/
def execScan (t core : Nat) (s : State) : Host.Outcome State Fault Refusal :=
  issue core [] (isVec 1) vecTensors vecWork (s.arrive t)

/-- The meaning of REDUCE (R137). -/
def execReduce (t core : Nat) (s : State) : Host.Outcome State Fault Refusal :=
  issue core [] (isVec 2) vecTensors vecWork (s.arrive t)

/-! ### RNG_FILL (Tables 7.6, 7.7) -/

/-- DRAW. -/
def fillDraw (c : Bytes) : Nat := le c 18 2
/-- STREAM. -/
def fillStream (c : Bytes) : Nat := le c 20 4
/-- DIST. -/
def fillDist (c : Bytes) : Nat := byteAt c 24
/-- OUT_SR. -/
def fillSr (c : Bytes) : Bool := bitAt (byteAt c 25) 0
/-- SR_STREAM. -/
def fillSrStream (c : Bytes) : Nat := le c 26 4
/-- P0. -/
def fillP0 (c : Bytes) : Word := wordAt c 30
/-- P1. -/
def fillP1 (c : Bytes) : Word := wordAt c 34

/-- The value of an element from its draw (Table 7.7). -/
def fillValue (c : Bytes) (d : Draw) : Word := match fillDist c with
  | 0 => fma32 (uniformOf d) (sub32 (fillP1 c) (fillP0 c)) (fillP0 c)
  | 1 => fma32 (boxMuller d) (fillP1 c) (fillP0 c)
  | 2 => fma32 (normalTable d) (fillP1 c) (fillP0 c)
  | 3 => BitVec.ofNat 32 d.w0
  | _ => if lt32 (uniformOf d) (fillP0 c) then zero32 else fillP1 c

/-- The work of an RNG_FILL. -/
def rngWork (_cx : Access) (c : Bytes) (s : State) : Work :=
  let out := s.tensor (le c 16 2)
  let u := streamUse s (fillStream c) out
  let rd := storeRounding s (fillSr c) (fillSrStream c) out
  let words := out.indices.map fun ix => fillValue c (u.draw s ix (fillDraw c))
  { outs := [outOf out rd ((out.indices.zip words).map fun e => (e.1, wordVal (fillDist c == 3) e.2))], values := words }

/-- The meaning of RNG_FILL (R193). -/
def execRngFill (t core : Nat) (s : State) : Host.Outcome State Fault Refusal :=
  issue core [] (fun c => cmdOpcode c == 0x0F) (fun _ c => tensorFields [16] c) rngWork (s.arrive t)

/-! ### POST (Table 8.6, R220) -/

/-- Whether score a ranks before score b where neither is chosen by index: larger first, NaN after every number. -/
def ranksBefore (a b : Val) : Bool := match a.exact, b.exact with
  | some x, some y => cmpExact x y == 1
  | some _, none => true
  | none, _ => false

/-- The indices of a row in rank order; equal scores keep their order. -/
def ranked (row : List Val) : List Nat :=
  (sortBy (fun a b => !(ranksBefore b.2 a.2)) (row.mapIdx fun i v => (i, v))).map (·.1)

/-- The rows of a tensor's values. -/
def valueRows (s : State) (cx : Access) (t : Tensor) : List (List Val) :=
  chunks (t.dim 0) (t.indices.map (readVal s cx t))

/-- The work of a POST that keeps the first k ranks of each row. -/
def postWork (k : Nat) (cx : Access) (c : Bytes) (s : State) : Work :=
  let inT := s.tensor (le c 16 2)
  let out := s.tensor (le c 18 2)
  let rows := valueRows s cx inT
  let picks := rows.map fun r => (ranked r).take k
  let words := picks.flatten.map fun i => BitVec.ofNat 32 i
  let outs := [outOf out (fun _ => .rne) ((out.indices.zip words).map fun e => (e.1, wordVal true e.2))]
  if cmdOpcode c == 0x0E && byteAt c 22 == 1 && named c 20 then
    let vt := s.tensor (le c 20 2)
    let scores := ((rows.zip picks).map fun q => q.2.map fun i => q.1.getD i .nan).flatten
    let sw := scores.map fun v => if inT.fmt.isInt then (match v with
      | .fin neg m _ => BitVec.ofInt 32 (if neg then -(m : Int) else m) | .nan => 0) else widen32 v
    { outs := outs ++ [outOf vt (fun _ => .rne) ((vt.indices.zip scores))], values := words ++ sw }
  else { outs := outs, values := words }

/-- The meaning of ARGMAX (R220). -/
def execArgmax (t core : Nat) (s : State) : Host.Outcome State Fault Refusal :=
  issue core [] (fun c => cmdOpcode c == 0x0E && byteAt c 22 == 0) (fun _ c => tensorFields [16, 18] c) (postWork 1)
    (s.arrive t)

/-- The meaning of TOP_K (R220). -/
def execTopK (t core : Nat) (s : State) : Host.Outcome State Fault Refusal :=
  issue core [] (fun c => cmdOpcode c == 0x0E && byteAt c 22 == 1) (fun _ c => tensorFields [16, 18, 20] c)
    (fun cx c s => postWork (le c 24 2 + 1) cx c s) (s.arrive t)

end Sys2Proof.Machine
end

