-- ==== Sys2Proof/Machine/Matrix.lean ====
section
/-! DEFINITION. Products on the matrix engine: operands and prologues (R83, R140), block results and the canonical tree
(R91 to R96), finishing (R95, R107, R139), and TILE_MM (R104 to R119). -/

namespace Sys2Proof.Machine

/-! ### Reduction (R90 to R94) -/

/-- The reduction block B of an operand pair, by the format of its first operand (Tables 3.9, 4.1, 8.5). -/
def blockSize : Fmt → Nat
  | .f4s => 512 | .f8 => 256 | .f8s => 256 | .int8 => 256 | _ => 128

/-- Whether the products of a block are summed exactly, rather than in order (Table 3.9). -/
def sumsExactly : Fmt → Bool
  | .f4s => true | .f8 => true | .f8s => true | .int8 => true | _ => false

/-- +0. -/
def zeroVal : Val := .fin false 0 0

/-- An exact product of two values; none when one is NaN. -/
def exactProduct (a b : Val) : Option Exact := match a.exact, b.exact with
  | some x, some y => let p := x.mul y; some (if p.i == 0 then ⟨0, 0, false⟩ else p)
  | _, _ => none

/-- The result of one block from its operand pairs in ascending logical order (R91 to R93). -/
def blockResult (exactly : Bool) (pairs : List (Val × Val)) : Word :=
  if exactly then sum32 (pairs.map fun q => exactProduct q.1 q.2)
  else orderedSum (pairs.map fun q => mul32 (widen32 q.1) (widen32 q.2))

/-- The value of a node from its blocks' results (R94). -/
def nodeValue (leaf : Nat → Word) (lo hi : Nat) : Word := tree add32 leaf lo hi

/-- The integer of a value of an integer format. -/
def intOfVal : Val → Int
  | .nan => 0 | .fin neg m _ => if neg then -(m : Int) else m

/-! ### Operands -/

/-- Where element ix stands in logical order. -/
def flatIndex (dims ix : List Nat) : Nat :=
  ix.getD 0 0 + dims.getD 0 1 * (ix.getD 1 0 + dims.getD 1 1 * (ix.getD 2 0 + dims.getD 2 1
    * (ix.getD 3 0 + dims.getD 3 1 * ix.getD 4 0)))

/-- The values of an operand as the array takes them. -/
structure Operand where
  dims : List Nat
  vals : Array Val
deriving Repr

/-- The value at logical indices. -/
def Operand.at (o : Operand) (ix : List Nat) : Val := o.vals.getD (flatIndex o.dims ix) zeroVal

/-- An element as it enters the array: F19 is formed from FP32 on read (R83). -/
def enterVal (f : Fmt) (trunc : Bool) (v : Val) : Val := if f == .f19 then toF19 trunc v else v

/-- What a prologue makes of the elements of a tensor: its ST converts into the tensor's own format (R140). -/
def prologueVals (s : State) (cx : Access) (c : Bytes) (t : Tensor) (prog : Nat) (trunc : Bool) (raw : List Val) :
    List Val × Bool :=
  let env : ProgEnv := ⟨cx, programAt s.plan prog, t.dims, t, exactSplit s c⟩
  let r := runProgram s env t.indices (raw.map widen32)
  if t.fmt == .f19 then (r.stored.map fun w => toF19 trunc (val32 w), r.notFinal)
  else
    let o := outOf t (fun _ => .rne) ((t.indices.zip r.stored).map fun e => (e.1, val32 e.2))
    if t.fmt.blockScaled then
      let perBlock := (chunks (t.dim 0) o.codes).flatMap (chunks 32)
      ((perBlock.zip o.scales).flatMap fun q => q.1.map fun e => elementVal t.fmt e.2 q.2.2, r.notFinal)
    else (o.codes.map fun e => elementVal t.fmt e.2 0x7F, r.notFinal)

/-- An operand tensor read for the array, through its prologue if it has one; and whether a statistic that the prologue
read was not final. -/
def readOperand (s : State) (cx : Access) (c : Bytes) (t : Tensor) (prog : Nat) (trunc : Bool) : Operand × Bool :=
  let raw := t.indices.map (readStored s cx t)
  if prog == 0xFFFF then (⟨t.dims, (raw.map (enterVal t.fmt trunc)).toArray⟩, false)
  else
    let r := prologueVals s cx c t prog trunc raw
    (⟨t.dims, r.1.toArray⟩, r.2)

/-! ### Finishing (R95, R107, R139) -/

/-- How a product's roots become its output. -/
structure Finish where
  c         : Option Tensor
  d         : Tensor
  epilogue  : Nat
  sr        : Bool
  stream    : Nat
deriving DecidableEq, Repr

/-- The output of a product from its FP32 roots at some logical indices of D, in order: C is added once, the epilogue
runs, and one conversion follows. -/
def finishAt (s : State) (cx : Access) (cmd : Bytes) (f : Finish) (ixs : List (List Nat)) (roots : List Word) (bad : Bool) :
    Work :=
  let withC := match f.c with
    | none => roots
    | some t => (ixs.zip roots).map fun e => add32 e.2 (widen32 (readVal s cx t (t.clip e.1)))
  let rd := storeRounding s f.sr f.stream f.d
  if f.epilogue == 0xFFFF then
    { outs := [outOf f.d rd ((ixs.zip withC).map fun e => (e.1, val32 e.2))], values := withC,
      kill := if bad then some 0x1207 else none }
  else
    let entry := programAt s.plan f.epilogue
    let r := runProgram s ⟨cx, entry, f.d.dims, f.d, exactSplit s cmd⟩ ixs withC
    let int := storesInt entry
    { outs := [outOf f.d rd ((ixs.zip r.stored).map fun e => (e.1, wordVal int e.2))], values := r.stored,
      staged := match r.stat with
        | some v =>
          if ixs.length == f.d.count then statContributions s.plan entry f.d.dims 0 v
          else statContributionsAt s.plan entry f.d.dims (ixs.zip v)
        | none => [],
      kill := if bad || r.notFinal then some 0x1207 else none }

/-- The output of a product over the whole of D. -/
def finishProduct (s : State) (cx : Access) (cmd : Bytes) (f : Finish) (roots : List Word) (bad : Bool) : Work :=
  finishAt s cx cmd f f.d.indices roots bad

/-- The output of the exact INT32 path from integer roots: C is added exactly, and the sum saturates once (Table 4.6). -/
def finishInt (s : State) (cx : Access) (f : Finish) (roots : List Int) (bad : Bool) : Work :=
  let ixs := f.d.indices
  let sums := (ixs.zip roots).map fun e => match f.c with
    | none => clampInt (-2147483648) 2147483647 e.2
    | some t => clampInt (-2147483648) 2147483647 (e.2 + intOfVal (readVal s cx t (t.clip e.1)))
  let words := sums.map fun i => BitVec.ofInt 32 i
  { outs := [outOf f.d (fun _ => .rne) ((ixs.zip words).map fun e => (e.1, wordVal true e.2))], values := words,
    kill := if bad then some 0x1207 else none }

/-- A whole product: for every element of D in logical order, the pair of operand values at every logical K index from
block lo to block hi - 1. -/
def product (s : State) (cx : Access) (cmd : Bytes) (f : Finish) (fmt : Fmt) (lo hi : Nat)
    (pair : List Nat → Nat → Val × Val) (bad : Bool) : Work :=
  let b := blockSize fmt
  if f.d.fmt == .int32 then
    finishInt s cx f (f.d.indices.map fun ix =>
      ((List.range ((hi - lo) * b)).map fun k =>
        let q := pair ix (lo * b + k)
        intOfVal q.1 * intOfVal q.2).foldl (· + ·) 0) bad
  else
    let leaf := fun (ix : List Nat) (j : Nat) =>
      blockResult (sumsExactly fmt) ((List.range b).map fun k => pair ix (j * b + k))
    finishProduct s cx cmd f (f.d.indices.map fun ix => nodeValue (leaf ix) lo hi) bad

/-! ### TILE_MM (Tables 4.3 to 4.5, 4.10) -/

/-- A_LAYOUT: M along dimension 0. -/
def mmALayout (c : Bytes) : Bool := bitAt (byteAt c 24) 3
/-- B_LAYOUT: K along dimension 0. -/
def mmBLayout (c : Bytes) : Bool := bitAt (byteAt c 24) 4
/-- PRO_B. -/
def mmProB (c : Bytes) : Bool := bitAt (byteAt c 24) 6
/-- A_F19: truncation. -/
def roundA (c : Bytes) (off : Nat) : Bool := bitAt (byteAt c off) 0
/-- B_F19: truncation. -/
def roundB (c : Bytes) (off : Nat) : Bool := bitAt (byteAt c off) 1
/-- D_SR. -/
def roundDsr (c : Bytes) (off : Nat) : Bool := bitAt (byteAt c off) 2
/-- K_HI, where 0 stands for n. -/
def partHi (c : Bytes) (off n : Nat) : Nat := if le c off 2 == 0 then n else le c off 2

/-- A tensor index or none. -/
def optTensor (s : State) (i : Nat) : Option Tensor := if i == 0xFFFF then none else some (s.tensor i)

/-- The gather table of an index. -/
def gatherTable (p : Plan) (i : Nat) : Bytes := (findSection p 0x06 0 0xFF i).getD []
/-- COUNT of a gather table. -/
def gatherCount (g : Bytes) : Nat := le g 0 2
/-- TENSOR and ROW of entry i. -/
def gatherEntry (g : Bytes) (i : Nat) : Nat × Nat := (le g (8 + 8 * i) 2, le g (12 + 8 * i) 4)

/-- The tensors that a TILE_MM reads and writes. -/
def mmTensors (s : State) (c : Bytes) : List Nat :=
  let g := gatherTable s.plan (le c 30 2)
  let rows := if named c 30 then (List.range (gatherCount g)).map fun i => (gatherEntry g i).1 else []
  tensorFields [16, 18, 20, 22] c ++ rows ++ programTensors s.plan (le c 26 2) ++ programTensors s.plan (le c 28 2)

/-- The operand A of a TILE_MM, by row, K index and batch; the rows of a gathered product come from their own tensors. -/
def mmOperandA (s : State) (cx : Access) (c : Bytes) : (Nat → Nat → Nat → Val) × Bool :=
  let prog := if mmProB c then 0xFFFF else le c 26 2
  let read := fun i => readOperand s cx c (s.tensor i) prog (roundA c 25)
  if named c 30 then
    let g := gatherTable s.plan (le c 30 2)
    let rows := ((List.range (gatherCount g)).map fun i =>
      let e := gatherEntry g i
      let r := read e.1
      (r.1, e.2, r.2)).toArray
    (fun m k _ => match rows[m]? with | some r => r.1.at [k, r.2.1] | none => zeroVal, rows.any fun r => r.2.2)
  else
    let r := read (le c 16 2)
    let g' := fun g => if r.1.dims.getD 2 1 == 1 then 0 else g
    (fun m k g => if mmALayout c then r.1.at [m, k, g' g] else r.1.at [k, m, g' g], r.2)

/-- The work of a TILE_MM (R109, R465). -/
def mmWork (cx : Access) (c : Bytes) (s : State) : Work :=
  let a := s.tensor (le c 16 2)
  let b := s.tensor (le c 18 2)
  let opA := mmOperandA s cx c
  let opB := readOperand s cx c b (if mmProB c then le c 26 2 else 0xFFFF) (roundB c 25)
  let kAll := if mmBLayout c then b.dim 0 else b.dim 1
  let n := kAll / blockSize a.fmt
  let g' := fun g => if b.dim 2 == 1 then 0 else g
  let atB := fun k j g => if mmBLayout c then opB.1.at [k, j, g' g] else opB.1.at [j, k, g' g]
  let f : Finish := ⟨optTensor s (le c 20 2), s.tensor (le c 22 2), le c 28 2, roundDsr c 25, le c 36 4⟩
  product s cx c f a.fmt (le c 32 2) (partHi c 34 n)
    (fun ix k => (opA.1 (ix.getD 1 0) k (ix.getD 2 0), atB k (ix.getD 0 0) (ix.getD 2 0))) (opA.2 || opB.2)

/-- The meaning of TILE_MM (R109). -/
def execTileMm (t core : Nat) (s : State) : Host.Outcome State Fault Refusal :=
  issue core [] (fun c => cmdOpcode c == 0x01) mmTensors mmWork (s.arrive t)

end Sys2Proof.Machine
end

