-- ==== Sys2Proof/Machine/Attention.lean ====
section
/-! DEFINITION. ATTN_BLOCK (R225 to R246): the length table, scores, records of key blocks and their merge, finishing, and
the backward operations. -/

namespace Sys2Proof.Machine

/-! ### The body (Tables 9.3, 9.4) -/

/-- OPERATION: 0 FORWARD, 1 PART, 2 MERGE, 3 BWD_DQ, 4 BWD_DK, 5 BWD_DV. -/
def attnOperation (c : Bytes) : Nat := bits (byteAt c 32) 5 3
/-- D_SR. -/
def attnDsr (c : Bytes) : Bool := bitAt (byteAt c 33) 2
/-- G, the query heads of a KV head. -/
def attnGroup (c : Bytes) : Nat := bits (byteAt c 38) 0 5
/-- The KV heads that a command serves (R226). -/
def attnHeads (c : Bytes) : List Nat := (List.range (bits (byteAt c 39) 0 3)).map (le c 40 2 + ·)
/-- ENTRY_LO. -/
def attnEntryLo (c : Bytes) : Nat := le c 42 2
/-- ENTRY_HI. -/
def attnEntryHi (c : Bytes) : Nat := le c 44 2
/-- KEY_BLOCKS, n. -/
def attnBlocks (c : Bytes) : Nat := le c 46 2
/-- K_LO. -/
def attnLo (c : Bytes) : Nat := le c 48 2
/-- K_HI. -/
def attnHi (c : Bytes) : Nat := partHi c 50 (attnBlocks c)
/-- SCALE. -/
def attnScale (c : Bytes) : Word := wordAt c 52
/-- PART_NO. -/
def attnPartNo (c : Bytes) : Nat := byteAt c 60

/-- The tensors that an ATTN_BLOCK names. -/
def attnTensors (s : State) (c : Bytes) : List Nat :=
  tensorFields [16, 18, 20, 22, 24, 26, 28, 30] c ++ programTensors s.plan (le c 34 2) ++ programTensors s.plan (le c 36 2)

/-- KB of a V format (R225). -/
def keyBlock (v : Fmt) : Nat := if v == .f8 then 256 else 128

/-- KB of a command. A MERGE names no V: its KB is that of the PART whose output it reads (R242, R243), 256 where the path
has none. -/
def attnKb (s : State) (c : Bytes) : Nat :=
  if attnOperation c == 2 then
    match ((List.range 64).flatMap s.list).find? fun p =>
        cmdOpcode p == 0x03 && attnOperation p == 1 && le p 22 2 == le c 28 2 with
    | some p => keyBlock (s.tensor (le p 20 2)).fmt
    | none => 256
  else if attnOperation c == 5 then 128
  else keyBlock (s.tensor (le c 20 2)).fmt

/-! ### The length table (R227 to R229) -/

/-- One entry of the length table (Table 9.2). -/
structure LenEntry where
  index   : Nat
  qStart  : Nat
  causal  : Bool
  window  : Nat
  qLen    : Nat
  kvStart : Nat
  kvLen   : Nat
deriving DecidableEq, Repr

/-- Entry e of a length table. -/
def lenEntry (s : State) (cx : Access) (t : Tensor) (e : Nat) : LenEntry :=
  let w := fun i => readCode s cx t [i, e, 0, 0, 0]
  ⟨e, w 0, bitAt (w 1) 31, bits (w 1) 16 15, bits (w 1) 0 16, w 2, w 3⟩

/-- Whether key u is excluded from the rows at position t (R228). -/
def LenEntry.excludes (e : LenEntry) (t u : Nat) : Bool :=
  let last : Int := (t : Int) + e.kvLen - e.qLen
  e.kvLen ≤ u || (e.causal && decide (last < (u : Int))) || (e.window != 0 && decide ((u : Int) ≤ last - e.window))

/-- The keys of [lo, hi) that some row at positions t0 to t1 - 1 of an entry reads: the first and one past the last; none
where no key is read. -/
def LenEntry.keysRead (e : LenEntry) (t0 t1 lo hi : Nat) : Option (Nat × Nat) :=
  if t1 ≤ t0 then none
  else
    let first : Int := (t0 : Int) + e.kvLen - e.qLen - e.window + 1
    let a := max lo (if e.window == 0 then 0 else first.toNat)
    let last : Int := (t1 : Int) + e.kvLen - e.qLen
    let b := min (min hi e.kvLen) (if e.causal then last.toNat else e.kvLen)
    if a < b then some (a, b) else none

/-- The tensors that an operation indexes by query position (Table 9.5, R229). -/
def queryTensors (op : Nat) (c : Bytes) : List Nat := match op with
  | 0 => tensorFields [16, 22, 24] c
  | 1 => tensorFields [16, 22] c
  | 2 => tensorFields [22, 24, 28] c
  | 3 => tensorFields [16, 22, 24, 28] c
  | 4 => tensorFields [16, 24, 28, 30] c
  | _ => tensorFields [16, 24, 28] c

/-- The tensors that an operation indexes by key position for reading. -/
def keyTensors (op : Nat) (c : Bytes) : List Nat := match op with
  | 2 => [] | 5 => tensorFields [18] c | _ => tensorFields [18, 20] c

/-- The offset of key 0 in K and V: a PART's tensors begin at block K_LO (R242). -/
def keyOffset (c : Bytes) (kb : Nat) : Nat := if attnOperation c == 1 then attnLo c * kb else 0

/-- The keys that an entry reads in a command. -/
def attnKeysRead (c : Bytes) (kb : Nat) (e : LenEntry) : Option (Nat × Nat) :=
  let g := max 1 (attnGroup c)
  if 4 ≤ attnOperation c then
    e.keysRead (min e.qLen (attnLo c * 128 / g)) (min e.qLen (ceilDiv (attnHi c * 128) g)) 0 e.kvLen
  else e.keysRead 0 e.qLen (attnLo c * kb) (attnHi c * kb)

/-- Whether an entry passes the checks of R229, after a valid entry whose written range ended at `prev`. -/
def LenEntry.valid (s : State) (c : Bytes) (kb : Nat) (e : LenEntry) (prev : Nat) : Bool :=
  let op := attnOperation c
  (queryTensors op c).all (fun i => e.qStart + e.qLen ≤ (s.tensor i).dim 1)
    && (match attnKeysRead c kb e with
        | none => true
        | some (a, b) => (keyTensors op c).all fun i =>
            keyOffset c kb ≤ e.kvStart + a && e.kvStart + b - keyOffset c kb ≤ (s.tensor i).dim 1)
    && (if 4 ≤ op then attnGroup c * e.qLen ≤ attnBlocks c * 128 else e.kvLen ≤ attnBlocks c * kb)
    && prev ≤ (if 4 ≤ op then e.kvStart else e.qStart)
    && e.kvLen ≤ 65536

/-- The entries of a command: the valid ones, and the indices of the others. -/
def attnEntries (s : State) (cx : Access) (c : Bytes) : List LenEntry × List Nat :=
  let t := s.tensor (le c 26 2)
  let kb := attnKb s c
  let r := (List.range (attnEntryHi c - attnEntryLo c)).foldl (fun (acc : List LenEntry × List Nat × Nat) i =>
    let e := lenEntry s cx t (attnEntryLo c + i)
    if e.valid s c kb acc.2.2 then
      (acc.1 ++ [e], acc.2.1, if 4 ≤ attnOperation c then e.kvStart + e.kvLen else e.qStart + e.qLen)
    else (acc.1, acc.2.1 ++ [e.index], acc.2.2)) ([], [], 0)
  (r.1, r.2.1)

/-! ### Records (R232 to R235) -/

/-- The running record of a row (R233). -/
structure AttnRec where
  count : Nat
  max   : Word
  sum   : Word
  o     : List Word
deriving DecidableEq, Repr

/-- The empty record. -/
def emptyRec : AttnRec := ⟨0, zero32, zero32, []⟩

/-- The merge of two records of a row (R234). -/
def AttnRec.merge (a b : AttnRec) : AttnRec :=
  if b.count == 0 then a
  else if a.count == 0 then b
  else
    let m := max32op a.max b.max
    let fa := exact32 (expe (sub32 a.max m))
    let fb := exact32 (expe (sub32 b.max m))
    let mix2 := fun x y => polySum [[exact32 x, fa], [exact32 y, fb]]
    ⟨a.count + b.count, m, mix2 a.sum b.sum, List.zipWith mix2 a.o b.o⟩

/-- The reduction over d of two rows of values, padded to one block (R232, R245). -/
def headProduct (f : Fmt) (pairs : List (Val × Val)) : Word :=
  blockResult (sumsExactly f) (pairs ++ List.replicate (blockSize f - pairs.length) (zeroVal, zeroVal))

/-- The probabilities of one key block in the probability format, +0 for an excluded key (R233): F8S in blocks of 32 keys
where V is F8, else V's own format. -/
def probabilities (v : Fmt) (es : List (Option Word)) : List Val :=
  let vals := es.map fun e => match e with | some w => val32 w | none => zeroVal
  if v == .f8 then
    (chunks 32 vals).flatMap fun b =>
      let sc := chooseScale .f8s b
      b.map fun x => elementVal .f8s (convertScaled .f8s .rne sc x) sc
  else vals.map fun x => elementVal v (convertElement v .rne x) 0x7F

/-- What the rows of a command read: its operands, by head, position and d. -/
structure AttnIn where
  dh    : Nat
  kb    : Nat
  q     : Operand
  k     : Operand
  v     : Operand
  /-- dO of the backward operations. -/
  g     : Operand
  qFmt  : Fmt
  vFmt  : Fmt
  scale : Word
  off   : Nat
deriving Repr

/-- The operands of a command; a tensor that the operation does not use is empty. -/
def attnIn (s : State) (cx : Access) (c : Bytes) : AttnIn × Bool :=
  let read := fun (off prog : Nat) =>
    if named c off then readOperand s cx c (s.tensor (le c off 2)) prog false else (⟨[1, 1, 1, 1, 1], #[]⟩, false)
  let q := read 16 (le c 34 2)
  let kb := attnKb s c
  ({ dh := (s.tensor (le c 18 2)).dim 0, kb := kb, q := q.1, k := (read 18 0xFFFF).1, v := (read 20 0xFFFF).1,
     g := if 3 ≤ attnOperation c then (read 28 0xFFFF).1 else ⟨[1, 1, 1, 1, 1], #[]⟩,
     qFmt := (s.tensor (le c 16 2)).fmt, vFmt := (s.tensor (le c 20 2)).fmt, scale := attnScale c,
     off := keyOffset c kb }, q.2)

/-- One query row: its entry, its KV head, its query head and its position within the entry. -/
structure AttnRow where
  entry : LenEntry
  head  : Nat
  qhead : Nat
  t     : Nat
deriving DecidableEq, Repr

/-- Position of the row in dimension 1 of the tensors indexed by query position. -/
def AttnRow.pos (r : AttnRow) : Nat := r.entry.qStart + r.t

/-- The query rows of a command, in the logical order of its outputs. -/
def attnRows (c : Bytes) (es : List LenEntry) : List AttnRow :=
  (attnHeads c).flatMap fun h => (List.range (attnGroup c)).flatMap fun g =>
    es.flatMap fun e => (List.range e.qLen).map fun t => ⟨e, h, h * attnGroup c + g, t⟩

/-- The score of a row and a key that is not excluded (R232). -/
def AttnIn.score (a : AttnIn) (r : AttnRow) (u : Nat) : Word :=
  let kp := r.entry.kvStart + u - a.off
  mul32 (headProduct a.qFmt ((List.range a.dh).map fun d => (a.q.at [d, r.pos, r.qhead], a.k.at [d, kp, r.head]))) a.scale

/-- The record of key block j for a row (R233). -/
def AttnIn.record (a : AttnIn) (r : AttnRow) (j : Nat) : AttnRec :=
  let keys := (List.range a.kb).map (j * a.kb + ·)
  let scores := keys.map fun u => if r.entry.excludes r.t u then none else some (a.score r u)
  let here := scores.filterMap id
  if here.isEmpty then emptyRec
  else
    let m := maxOf here
    let es := scores.map fun s => s.map fun x => expe (sub32 x m)
    let ps := (keys.zip (probabilities a.vFmt es)).zip es
    ⟨here.length, m, sum32 ((es.filterMap id).map exact32),
      (List.range a.dh).map fun d => blockResult (a.vFmt == .f8) (ps.map fun p => match p.2 with
        | none => (zeroVal, zeroVal)
        | some _ => (p.1.2, a.v.at [d, r.entry.kvStart + p.1.1 - a.off, r.head]))⟩

/-- The root record of a row over key blocks lo to hi - 1 (R235). -/
def AttnIn.root (a : AttnIn) (r : AttnRow) (lo hi : Nat) : AttnRec := tree AttnRec.merge (a.record r) lo hi

/-! ### Finishing (R236) -/

/-- out(d) of a row. -/
def AttnRec.out (x : AttnRec) (dh : Nat) : List Word :=
  if x.count == 0 then List.replicate dh zero32 else x.o.map fun o => div32 o x.sum

/-- MAX and LSE of a row. -/
def AttnRec.stats (x : AttnRec) : List Word :=
  if x.count == 0 then [lowest32, lowest32] else [x.max, add32 x.max (loge x.sum)]

/-- The output of FORWARD and MERGE from the finished rows. -/
def attnFinish (s : State) (cx : Access) (c : Bytes) (dh : Nat) (rows : List (AttnRow × AttnRec)) (bad : Bool)
    (skipped : List Nat) : Work :=
  let f : Finish := ⟨none, s.tensor (le c 22 2), le c 36 2, attnDsr c, le c 56 4⟩
  let ixs := rows.flatMap fun q => (List.range dh).map fun d => [d, q.1.pos, q.1.qhead, 0, 0]
  let w := finishAt s cx c f ixs (rows.flatMap fun q => q.2.out dh) bad
  let stats := rows.flatMap fun q => q.2.stats.mapIdx fun i v => ([i, q.1.pos, q.1.qhead, 0, 0], v)
  { w with
    outs := w.outs ++ [outOf (s.tensor (le c 24 2)) (fun _ => .rne) (stats.map fun e => (e.1, val32 e.2))],
    values := w.values ++ stats.map (·.2), notes := skipped.map fun e => (0x1188, e) }

/-- The work of a FORWARD (R236). -/
def forwardWork (cx : Access) (c : Bytes) (s : State) : Work :=
  let (es, skipped) := attnEntries s cx c
  let (a, bad) := attnIn s cx c
  attnFinish s cx c a.dh ((attnRows c es).map fun r => (r, a.root r (attnLo c) (attnHi c))) bad skipped

/-! ### PART and MERGE (R242, R243) -/

/-- The fields of a part record: O, MAX, SUM, COUNT, K_LO, K_HI and three zeros. What an empty record holds in the fields
before COUNT is free. -/
def partFields (ak dh lo hi : Nat) (r : AttnRow) (x : AttnRec) : List Word :=
  (if x.count == 0 then (List.range (dh + 2)).map (Config.emptyRecord ak r.qhead r.pos) else x.o ++ [x.max, x.sum])
    ++ [int32w x.count, int32w lo, int32w hi, zero32, zero32, zero32]

/-- The work of a PART. -/
def partWork (cx : Access) (c : Bytes) (s : State) : Work :=
  let (es, skipped) := attnEntries s cx c
  let (a, bad) := attnIn s cx c
  let d := s.tensor (le c 22 2)
  let els := ((attnRows c es).map fun r =>
    (partFields s.job.ak a.dh (attnLo c) (attnHi c) r (a.root r (attnLo c) (attnHi c))).mapIdx fun k v =>
      ([k, r.pos, r.qhead, attnPartNo c, 0], v)).flatten
  { outs := [outOf d (fun _ => .rne) (els.map fun e => (e.1, val32 e.2))], values := els.map (·.2),
    kill := if bad then some 0x1207 else none, notes := skipped.map fun e => (0x1188, e) }

/-- A non-negative integer held as FP32. -/
def natOf32 (w : Word) : Nat := (floorInt w).toNat

/-- Whether an FP32 field holds a whole number that is not negative. -/
def wholeNumber (w : Word) : Bool := w == int32w (natOf32 w)

/-- The part records of a row, with the node of each; a range that is none of whole numbers is the empty one at 0, which no
partition has. -/
def partRecords (s : State) (cx : Access) (c : Bytes) (dh : Nat) (r : AttnRow) : List (Nat × Nat × AttnRec) :=
  let t := s.tensor (le c 28 2)
  (List.range (attnPartNo c)).map fun p =>
    let w := fun i => readWord s cx t [i, r.pos, r.qhead, p, 0]
    let range := if wholeNumber (w (dh + 3)) && wholeNumber (w (dh + 4)) then
      (natOf32 (w (dh + 3)), natOf32 (w (dh + 4))) else (0, 0)
    (range.1, range.2,
      ⟨natOf32 (w (dh + 2)), w dh, w (dh + 1), (List.range dh).map w⟩)

/-- Whether ranges partition [0, n) into nodes of tree(0, n), in ascending order. -/
def partitions (n : Nat) (ranges : List (Nat × Nat)) : Bool :=
  let r := ranges.foldl (fun (acc : Bool × Nat) q => (acc.1 && q.1 == acc.2 && isNode n q.1 q.2, q.2)) (true, 0)
  r.1 && r.2 == n

/-- The merge of part records above their nodes, in the tree's order. -/
def mergeParts (n : Nat) (parts : List (Nat × Nat × AttnRec)) : AttnRec :=
  (treeParts AttnRec.merge (fun lo hi => (parts.find? fun p => p.1 == lo && p.2.1 == hi).map (·.2.2))
    (ceilLog2 n + 1) 0 n).getD emptyRec

/-- The work of a MERGE; ranges that break the partition kill it with 0x1189. -/
def mergeWork (cx : Access) (c : Bytes) (s : State) : Work :=
  let (es, skipped) := attnEntries s cx c
  let dh := (s.tensor (le c 22 2)).dim 0
  let rows := (attnRows c es).map fun r => (r, partRecords s cx c dh r)
  let n := attnBlocks c
  if rows.all fun q => partitions n (q.2.map fun p => (p.1, p.2.1)) then
    attnFinish s cx c dh (rows.map fun q => (q.1, mergeParts n q.2)) false skipped
  else { kill := some 0x1189, notes := skipped.map fun e => (0x1188, e) }

/-! ### Backward (R245, R246) -/

/-- p and ds of a row and a key, in the operand format; +0 for an excluded key. -/
def AttnIn.backward (a : AttnIn) (lse delta : AttnRow → Word) (r : AttnRow) (u : Nat) : Val × Val :=
  if r.entry.excludes r.t u then (zeroVal, zeroVal)
  else
    let p := expe (sub32 (a.score r u) (lse r))
    let dp := headProduct a.qFmt ((List.range a.dh).map fun d =>
      (a.g.at [d, r.pos, r.qhead], a.v.at [d, r.entry.kvStart + u, r.head]))
    let ds := mul32 (mul32 (sub32 dp (delta r)) p) a.scale
    let conv := fun w => elementVal a.qFmt (convertElement a.qFmt .rne (val32 w)) 0x7F
    (conv p, conv ds)

/-- Element (i, row) of STATS or DELTA. -/
def rowStat (s : State) (cx : Access) (t i : Nat) (r : AttnRow) : Word :=
  readWord s cx (s.tensor t) [i, r.pos, r.qhead, 0, 0]

/-- The output of a backward operation from its roots. -/
def backwardFinish (s : State) (cx : Access) (c : Bytes) (els : List (List Nat × Word)) (bad : Bool) (skipped : List Nat) :
    Work :=
  let f : Finish := ⟨none, s.tensor (le c 22 2), le c 36 2, attnDsr c, le c 56 4⟩
  { finishAt s cx c f (els.map (·.1)) (els.map (·.2)) bad with notes := skipped.map fun e => (0x1188, e) }

/-- The sum over blocks of 128 of a list of pairs (R246). -/
def backwardSum (pairs : Nat → Val × Val) (lo hi : Nat) : Word :=
  nodeValue (fun j => blockResult false ((List.range 128).map fun i => pairs (j * 128 + i))) lo hi

/-- The work of a BWD_DQ. Δ of a row is free: the operation names no tensor that holds it. -/
def bwdDqWork (cx : Access) (c : Bytes) (s : State) : Work :=
  let (es, skipped) := attnEntries s cx c
  let (a, bad) := attnIn s cx c
  let els := (attnRows c es).map fun r =>
    let delta := fun (r : AttnRow) => Config.backwardDelta s.job.ak r.qhead r.pos
    let ds := fun u => (a.backward (rowStat s cx (le c 24 2) 1) delta r u).2
    (List.range a.dh).map fun d =>
      ([d, r.pos, r.qhead, 0, 0], backwardSum (fun u =>
        if r.entry.excludes r.t u then (zeroVal, zeroVal) else (ds u, a.k.at [d, r.entry.kvStart + u, r.head]))
        (attnLo c) (attnHi c))
  backwardFinish s cx c els.flatten bad skipped

/-- The work of a BWD_DK or a BWD_DV: for every key of every entry that lies inside D, the sum over the entry's rows in the
order of R226; an entry without rows generates nothing (R228). -/
def bwdKeyWork (dv : Bool) (cx : Access) (c : Bytes) (s : State) : Work :=
  let (es, skipped) := attnEntries s cx c
  let (a, bad) := attnIn s cx c
  let d := s.tensor (le c 22 2)
  let g := max 1 (attnGroup c)
  let lse := rowStat s cx (le c 24 2) 1
  let delta := fun r => if dv then zero32 else rowStat s cx (le c 30 2) 0 r
  let els := (attnHeads c).flatMap fun h => (es.filter (·.qLen != 0)).flatMap fun e =>
    (List.range (min e.kvLen (d.dim 1 - e.kvStart))).flatMap fun u =>
      (List.range a.dh).map fun k =>
        ([k, e.kvStart + u, h, 0, 0], backwardSum (fun i =>
          let r : AttnRow := ⟨e, h, h * g + i % g, i / g⟩
          if g * e.qLen ≤ i || e.excludes r.t u then (zeroVal, zeroVal)
          else
            let b := a.backward lse delta r u
            if dv then (b.1, a.g.at [k, r.pos, r.qhead]) else (b.2, a.q.at [k, r.pos, r.qhead]))
          (attnLo c) (attnHi c))
  backwardFinish s cx c els bad skipped

/-! ### Meanings -/

/-- Whether a command is an ATTN_BLOCK of an operation. -/
def isAttn (op : Nat) (c : Bytes) : Bool := cmdOpcode c == 0x03 && attnOperation c == op

/-- The meaning of FORWARD (R236). -/
def execForward (t core : Nat) (s : State) : Host.Outcome State Fault Refusal :=
  issue core [] (isAttn 0) attnTensors forwardWork (s.arrive t)

/-- The meaning of ATTN_PART (R242). -/
def execAttnPart (t core : Nat) (s : State) : Host.Outcome State Fault Refusal :=
  issue core [] (isAttn 1) attnTensors partWork (s.arrive t)

/-- The meaning of MERGE (R243). -/
def execMerge (t core : Nat) (s : State) : Host.Outcome State Fault Refusal :=
  issue core [] (isAttn 2) attnTensors mergeWork (s.arrive t)

/-- The meaning of BWD_DQ (R246). -/
def execBwdDq (t core : Nat) (s : State) : Host.Outcome State Fault Refusal :=
  issue core [] (isAttn 3) attnTensors bwdDqWork (s.arrive t)

/-- The meaning of BWD_DK (R246). -/
def execBwdDk (t core : Nat) (s : State) : Host.Outcome State Fault Refusal :=
  issue core [] (isAttn 4) attnTensors (bwdKeyWork false) (s.arrive t)

/-- The meaning of BWD_DV (R246). -/
def execBwdDv (t core : Nat) (s : State) : Host.Outcome State Fault Refusal :=
  issue core [] (isAttn 5) attnTensors (bwdKeyWork true) (s.arrive t)

end Sys2Proof.Machine
end

