-- ==== Sys2Proof/Machine/Transfer.lean ====
section
/-! DEFINITION. The transfer commands: MOVE in every operation (R253 to R256, R275, R276), GATHER (R278) and TIER_REQ
(R279). -/

namespace Sys2Proof.Machine

/-! ### Resident blocks and the host window -/

/-- The directory entries that hold given elements of a tensor, each once. -/
def Tensor.entriesAt (t : Tensor) (ixs : List (List Nat)) : List Nat :=
  if t.space == 6 then
    (ixs.flatMap fun ix =>
      let a := (elementPlace t.fmt t.base (t.offset ix)).1 / 1048576
      if t.fmt.blockScaled then [a, t.scaleAddr ix / 1048576] else [a]).eraseDups
  else []

/-- Whether every page of the window that reading a tensor reads is valid (R265). -/
def pagesOk (s : State) (t : Tensor) : Bool :=
  (t.blocksRead 0x200000).all fun p => (windowPage s (p * 0x200000)).isSome

/-- What reading given elements of a tensor fails with: 0x2903 for a block that is not resident (R286), 0x2908 for a
window page that is not valid or a read that ends with a PCIe error (R265, R276). -/
def readFault (s : State) (t : Tensor) (ixs : List (List Nat)) (hostOk : Bool) : Option Nat :=
  if (t.entriesAt ixs).any fun e => !s.isResident e then some 0x2903
  else if t.space == 5 && !(hostOk && pagesOk s t) then some 0x2908
  else none

/-! ### MOVE (Table 10.8) -/

/-- OP. -/
def moveOp (c : Bytes) : Nat := byteAt c 20
/-- W64. -/
def moveWide (c : Bytes) : Bool := bitAt (byteAt c 21) 0
/-- SLOT. -/
def moveSlot (c : Bytes) : Nat := le c 26 2
/-- CONTRIB. -/
def moveContrib (c : Bytes) : Nat := byteAt c 28
/-- The number of contributors. -/
def moveParties (c : Bytes) : Nat := byteAt c 29 + 1
/-- SLOT_CLUSTER. -/
def moveCluster (c : Bytes) : Nat := bits (byteAt c 30) 0 3

/-- Whether a command is a MOVE of an operation. -/
def isMove (op : Nat) (c : Bytes) : Bool := cmdOpcode c == 0x05 && moveOp c == op

/-- The tensors that a MOVE names. -/
def moveTensors (_s : State) (c : Bytes) : List Nat := match moveOp c with
  | 0x20 => tensorFields [16] c
  | 0x21 => tensorFields [18] c
  | _ => tensorFields [16, 18, 22, 24] c

/-- The codes and block scales of some elements of a tensor, given to the elements of another. -/
def copiedOut (s : State) (cx : Access) (src dst : Tensor) (pairs : List (List Nat × List Nat)) : Out :=
  ⟨dst, pairs.map fun p => (p.1, readCode s cx src p.2),
    if dst.fmt.blockScaled then (pairs.filter fun p => p.1.headD 0 % 32 == 0).map fun p => (p.1, readScale s cx src p.2)
    else []⟩

/-- The work of a COPY: bytes unchanged, block scales included. -/
def copyWork (hostOk : Bool) (cx : Access) (c : Bytes) (s : State) : Work :=
  let src := s.tensor (le c 16 2)
  let dst := s.tensor (le c 18 2)
  match readFault s src src.indices hostOk with
  | some code => { kill := some code }
  | none => { outs := [copiedOut s cx src dst (dst.indices.map fun ix => (ix, ix))], reads := src.entriesAt src.indices }

/-- The work of a CONVERT: Table 3.8 with RNE. -/
def convertWork (hostOk : Bool) (cx : Access) (c : Bytes) (s : State) : Work :=
  let src := s.tensor (le c 16 2)
  let dst := s.tensor (le c 18 2)
  match readFault s src src.indices hostOk with
  | some code => { kill := some code }
  | none =>
    { outs := [outOf dst (fun _ => .rne) (dst.indices.map fun ix => (ix, readVal s cx src ix))],
      values := dst.indices.map (sourceWord s cx src), reads := src.entriesAt src.indices }

/-- The meaning of COPY (R276). -/
def execCopy (t core : Nat) (host : Option Bytes) (s : State) : Host.Outcome State Fault Refusal :=
  issue core (host.getD []) (isMove 0x00) moveTensors (copyWork host.isSome) (s.arrive t)

/-- The meaning of CONVERT (R276). -/
def execConvert (t core : Nat) (host : Option Bytes) (s : State) : Host.Outcome State Fault Refusal :=
  issue core (host.getD []) (isMove 0x01) moveTensors (convertWork host.isSome) (s.arrive t)

/-! ### Atomics (R253, R254) -/

/-- Where an element stands: its memory and the address in it. -/
def elementAt (s : State) (cx : Access) (t : Tensor) (ix : List Nat) : Option (Space × Nat) :=
  locate s cx t.space (elementPlace t.fmt t.base (t.offset ix)).1

/-- The value of one element of an atomic: one INT32, or a pair with the low word first (W64). -/
def atomicValue (s : State) (cx : Access) (t : Tensor) (ixs : List (List Nat)) : Nat :=
  leValue (ixs.flatMap fun ix => toLe 4 (readCode s cx t ix))

/-- The work of an atomic operation: one staging-queue entry for each element, in ascending element index. -/
def atomicWork (op : AtomicOp) (cx : Access) (c : Bytes) (s : State) : Work :=
  let src := s.tensor (le c 16 2)
  let dst := s.tensor (le c 18 2)
  let res := optTensorAt s c 24
  let cmp := optTensorAt s c 22
  let groups := chunks (if moveWide c then 2 else 1) src.indices
  { staged := groups.filterMap fun ixs => match elementAt s cx dst (ixs.headD []) with
      | some (_, a) => some (.atomic op (moveWide c) a (atomicValue s cx src ixs)
          ((cmp.map fun t => atomicValue s cx t ixs).getD 0)
          (match res with | some t => elementAt s cx t (ixs.headD []) | none => none))
      | none => none }
where
  /-- The tensor that a field names, if any. -/
  optTensorAt (s : State) (c : Bytes) (off : Nat) : Option Tensor :=
    if named c off then some (s.tensor (le c off 2)) else none

/-- The meaning of ATOMIC_IADD (R253). -/
def execAtomicIadd (t core : Nat) (s : State) : Host.Outcome State Fault Refusal :=
  issue core [] (isMove 0x10) moveTensors (atomicWork .iadd) (s.arrive t)

/-- The meaning of ATOMIC_SMIN (R253). -/
def execAtomicSmin (t core : Nat) (s : State) : Host.Outcome State Fault Refusal :=
  issue core [] (isMove 0x11) moveTensors (atomicWork .smin) (s.arrive t)

/-- The meaning of ATOMIC_SMAX (R253). -/
def execAtomicSmax (t core : Nat) (s : State) : Host.Outcome State Fault Refusal :=
  issue core [] (isMove 0x12) moveTensors (atomicWork .smax) (s.arrive t)

/-- The meaning of ATOMIC_UMIN (R253). -/
def execAtomicUmin (t core : Nat) (s : State) : Host.Outcome State Fault Refusal :=
  issue core [] (isMove 0x13) moveTensors (atomicWork .umin) (s.arrive t)

/-- The meaning of ATOMIC_UMAX (R253). -/
def execAtomicUmax (t core : Nat) (s : State) : Host.Outcome State Fault Refusal :=
  issue core [] (isMove 0x14) moveTensors (atomicWork .umax) (s.arrive t)

/-- The meaning of ATOMIC_AND (R253). -/
def execAtomicAnd (t core : Nat) (s : State) : Host.Outcome State Fault Refusal :=
  issue core [] (isMove 0x15) moveTensors (atomicWork .and) (s.arrive t)

/-- The meaning of ATOMIC_OR (R253). -/
def execAtomicOr (t core : Nat) (s : State) : Host.Outcome State Fault Refusal :=
  issue core [] (isMove 0x16) moveTensors (atomicWork .or) (s.arrive t)

/-- The meaning of ATOMIC_XOR (R253). -/
def execAtomicXor (t core : Nat) (s : State) : Host.Outcome State Fault Refusal :=
  issue core [] (isMove 0x17) moveTensors (atomicWork .xor) (s.arrive t)

/-- The meaning of EXCH (R254). -/
def execExch (t core : Nat) (s : State) : Host.Outcome State Fault Refusal :=
  issue core [] (isMove 0x18) moveTensors (atomicWork .exch) (s.arrive t)

/-- The meaning of CAS (R254). -/
def execCas (t core : Nat) (s : State) : Host.Outcome State Fault Refusal :=
  issue core [] (isMove 0x19) moveTensors (atomicWork .cas) (s.arrive t)

/-! ### FSUM slots (R256) -/

/-- The work of an FSUM_ADD: one staging-queue entry. -/
def fsumAddWork (cx : Access) (c : Bytes) (s : State) : Work :=
  let src := s.tensor (le c 16 2)
  { staged := [.fsum (moveCluster c) (moveSlot c) (moveContrib c) (moveParties c) (src.indices.map (readWord s cx src))] }

/-- The values of a final slot; none while it is not final. -/
def finalValues (s : State) (cluster slot : Nat) : Option (List Word) := match s.compute.ordered.find?
    fun o => o.cluster == cluster && o.slot == slot with
  | some o => o.final.map (·.2)
  | none => none

/-- The work of an FSUM_READ; a slot that is not final kills it with 0x2909. What a value holds that no contribution
reached is free. -/
def fsumReadWork (_cx : Access) (c : Bytes) (s : State) : Work :=
  let dst := s.tensor (le c 18 2)
  match finalValues s (moveCluster c) (moveSlot c) with
  | none => { kill := some 0x2909 }
  | some vs =>
    let words := (List.range dst.count).map fun i =>
      vs.getD i (Config.unsummed s.job.ak (moveCluster c * 1024 + moveSlot c) i)
    { outs := [outOf dst (fun _ => .rne) ((dst.indices.zip words).map fun e => (e.1, val32 e.2))], values := words }

/-- The meaning of FSUM_ADD (R256). -/
def execFsumAdd (t core : Nat) (s : State) : Host.Outcome State Fault Refusal :=
  issue core [] (isMove 0x20) moveTensors fsumAddWork (s.arrive t)

/-- The meaning of FSUM_READ (R256). -/
def execFsumRead (t core : Nat) (s : State) : Host.Outcome State Fault Refusal :=
  issue core [] (isMove 0x21) moveTensors fsumReadWork (s.arrive t)

/-! ### GATHER (Table 10.10) -/

/-- The source indices of an element of DST; none where IDX lies outside the rows of SRC (R278). -/
def gatherSource (s : State) (cx : Access) (src idx : Tensor) (ix : List Nat) : Option (List Nat) :=
  let i := readInt s cx idx [ix.getD 1 0, 0, 0, 0, 0]
  if 0 ≤ i && i < src.dim 1 then some (ix.set 1 i.toNat) else none

/-- The work of a GATHER; rows with an index out of range are zero codes with scales 0x7F, reported once with 0x2907. -/
def gatherWork (cx : Access) (c : Bytes) (s : State) : Work :=
  let src := s.tensor (le c 16 2)
  let idx := s.tensor (le c 18 2)
  let dst := s.tensor (le c 20 2)
  let pairs := dst.indices.map fun ix => (ix, gatherSource s cx src idx ix)
  let used := pairs.filterMap (·.2)
  match readFault s src used false with
  | some code => { kill := some code }
  | none =>
    let code := fun (p : List Nat × Option (List Nat)) => match p.2 with
      | some ix => readCode s cx src ix | none => 0
    let scale := fun (p : List Nat × Option (List Nat)) => match p.2 with
      | some ix => readScale s cx src ix | none => 0x7F
    { outs := [⟨dst, pairs.map fun p => (p.1, code p),
        if dst.fmt.blockScaled then (pairs.filter fun p => p.1.headD 0 % 32 == 0).map fun p => (p.1, scale p) else []⟩],
      notes := if used.length < pairs.length then [(0x2907, cmdArg cx.core (cmdIndex c))] else [],
      reads := src.entriesAt used }

/-- The meaning of GATHER (R278). -/
def execGather (t core : Nat) (s : State) : Host.Outcome State Fault Refusal :=
  issue core [] (fun c => cmdOpcode c == 0x06) (fun _ c => tensorFields [16, 18, 20] c) gatherWork (s.arrive t)

/-! ### TIER_REQ (Table 10.11) -/

/-- FIRST_ENTRY. -/
def treqFirst (c : Bytes) : Nat := le c 16 4
/-- COUNT. -/
def treqCount (c : Bytes) : Nat := le c 20 2
/-- AHEAD. -/
def treqAhead (c : Bytes) : Nat := byteAt c 22
/-- HOLD. -/
def treqHold (c : Bytes) : Nat := byteAt c 23
/-- INDIRECT. -/
def treqIndirect (c : Bytes) : Bool := bitAt (byteAt c 24) 0

/-- The work of a TIER_REQ: the request is staged. An indirect range outside the plan's directory range is reported with
0x290A, names no entry and counts as missed. -/
def tierReqWork (cx : Access) (c : Bytes) (s : State) : Work :=
  let off : Int := if treqIndirect c then readInt s cx (s.tensor (le c 26 2)) [0, 0, 0, 0, 0] else 0
  let first : Int := (treqFirst c : Int) + off
  let lo : Int := planDirFirst s.plan
  let bad := first < lo || lo + planDirCount s.plan < first + treqCount c
  { staged := [.tierReq (if bad then [] else (List.range (treqCount c)).map (first.toNat + ·)) (treqAhead c) (cmdAltList c)
      (treqHold c) bad],
    notes := if bad then [(0x290A, cmdArg cx.core (cmdIndex c))] else [] }

/-- The meaning of TIER_REQ (R279). -/
def execTierReq (t core : Nat) (s : State) : Host.Outcome State Fault Refusal :=
  issue core [] (fun c => cmdOpcode c == 0x0C) (fun _ c => if treqIndirect c then tensorFields [26] c else []) tierReqWork
    (s.arrive t)

end Sys2Proof.Machine
end

