-- ==== Sys2Proof/Machine/Life.lean ====
section
/-! DEFINITION. From an engine's finish to the commit of its command (R67 to R69): the staging queue, ordered slots (R152 to
R154, R256), signals, Cirrus (R403, R404), deadlines (R59) and parity faults. -/

namespace Sys2Proof.Machine

/-! ### Atomics (Table 10.3) -/

/-- The new value of a target word of n bytes. -/
def AtomicOp.apply (op : AtomicOp) (n t v cmp : Nat) : Nat :=
  let m := 2 ^ (8 * n)
  let lt := decide (signed (8 * n) t < signed (8 * n) v)
  match op with
  | .iadd => (t + v) % m
  | .smin => if lt then t else v
  | .smax => if lt then v else t
  | .umin => min t v
  | .umax => max t v
  | .and => t &&& v
  | .or => t ||| v
  | .xor => t ^^^ v
  | .exch => v
  | .cas => if t == cmp then v else t

/-- One atomic applied: the old value goes to RESULT (R253, R254). -/
def applyAtomic (op : AtomicOp) (wide : Bool) (addr v cmp : Nat) (result : Option (Space × Nat)) (s : State) : State :=
  let n := if wide then 8 else 4
  let old := leValue (s.readMem .cache addr n)
  let s := s.writeMem .cache addr (toLe n (op.apply n old v cmp))
  match result with
  | some (sp, a) => s.writeMem sp a (toLe n old)
  | none => s

/-! ### Ordered slots -/

/-- Two lists combined element by element; where one has no element the other's stands. -/
def zipLong {α : Type} (f : α → α → α) : List α → List α → List α
  | [], ys => ys
  | xs, [] => xs
  | x :: xs, y :: ys => f x y :: zipLong f xs ys

/-- The merge of contributions in ascending contributor index (R152, R256). -/
def mergeContributions (kind : StatKind) (cs : List (Nat × List StatRec × List Word)) : List StatRec × List Word :=
  match sortBy (fun a b => decide (a.1 ≤ b.1)) cs with
  | [] => ([], [])
  | c :: rest => rest.foldl (fun acc x =>
      (zipLong (statCombine kind) acc.1 x.2.1, zipLong add32 acc.2 x.2.2)) (c.2.1, c.2.2)

/-- A contribution reaches a slot (R153, R154): one that reaches a final slot first clears it, a second one with an index is
reported with 0x1208, and the last one makes the slot final. -/
def contribute (core idx : Nat) (o : OrderedSlot) (s : State) : State :=
  let same := fun (x : OrderedSlot) => x.cluster == o.cluster && x.slot == o.slot
  let old := match s.compute.ordered.find? same with
    | some x => if x.final.isSome then [] else x.contributions
    | none => []
  if o.contributions.any fun c => old.any fun d => d.1 == c.1 then commandFault 0x1208 (cmdArg core idx) core s
  else
    let cs := old ++ o.contributions
    let full := (List.range o.parties).all fun i => cs.any fun c => c.1 == i
    let n : OrderedSlot := { o with contributions := cs, final := if full then some (mergeContributions o.kind cs) else none }
    { s with compute := { s.compute with ordered := s.compute.ordered.filter (fun x => !same x) ++ [n] } }

/-- One entry of the staging queue applied at the commit of its command (R67). -/
def applyStaged (r : Run) (e : Staged) (s : State) : State :=
  let idx := cmdIndex r.cmd
  if s.compute.abandoned then s else match e with
  | .atomic op wide a v cmp res => applyAtomic op wide a v cmp res s
  | .fsum cl slot i parties vs =>
    contribute r.core idx ⟨cl, slot, [(i, [], vs)], parties, .sum, none⟩ s
  | .stats cl slot i parties kind recs =>
    contribute r.core idx ⟨cl, slot, [(i, recs, [])], parties, kind, none⟩ s
  | .tierReq es ahead alt hold missed => addRequest ⟨es, idx, s.tick.index + ahead, alt, hold, some s.tick.index, missed⟩ s

/-! ### Commit (R67) -/

/-- The events that a command signals at its commit: a SIGNAL's own, then its header's (R66). -/
def commitSignals (c : Bytes) : List Nat :=
  (if cmdOpcode c == 0x0A then cmdEvents c else []) ++ [cmdSignalEvent c]

/-- A finished command commits: its staging queue is applied, its slots are freed, its signal is counted. -/
def commitOne (r : Run) (s : State) : State :=
  let s := r.staged.foldl (fun s e => applyStaged r e s) s
  if s.compute.abandoned then s
  else
    let s := { s with compute := { s.compute with
        runs := s.compute.runs.filter fun x => !(x.core == r.core && x.place == r.place),
        agreed := s.compute.agreed.filter (·.1 != (r.core, r.place)),
        done := s.compute.done ++ [(r.core, r.place)] } }
    (commitSignals r.cmd).foldl (fun s ev =>
      if s.compute.abandoned then s else signal ev r.core (cmdIndex r.cmd) s) s

/-- A command commits, and READY goes out if it was the tick's last (R332). -/
def commitRun (r : Run) (s : State) : State := sendReady (commitOne r s)

/-- Whether a finished command may commit: unchecked, or compared and cleared (R69). -/
def Run.committable (r : Run) : Bool :=
  r.phase == .finished && (match r.cirrus with | .none => true | .cleared => true | _ => false)

/-- A command that has finished and may commit does so if COMMIT_ON_FINISH is set. -/
def commitIfReady (r : Run) (s : State) : State :=
  if r.committable && cmdCommitOnFinish r.cmd then commitRun r s else s

/-! ### Finish -/

/-- The commands of a core's list with CMD_INDEX in a COMMIT's range, with their places. -/
def commitRange (s : State) (core : Nat) (c : Bytes) : List (Nat × Bytes) :=
  ((s.list core).mapIdx fun i x => (i, x)).filter fun p => cmdFirst c ≤ cmdIndex p.2 && cmdIndex p.2 ≤ cmdLast c

/-- Whether an in-flight command's work is complete: a WAIT's events are set, every command before a SIGNAL has committed,
every command of a COMMIT's range has committed or may commit, and the engine of any other is done (R66). -/
def workDone (s : State) (r : Run) : Bool := match cmdOpcode r.cmd with
  | 0x09 => (cmdEvents r.cmd).all fun ev => eventSet s ev r.core
  | 0x0A => (List.range r.place).all fun i => s.compute.done.contains (r.core, i)
  | 0x0B => (commitRange s r.core r.cmd).all fun p =>
      s.compute.done.contains (r.core, p.1)
        || s.compute.runs.any fun x => x.core == r.core && x.place == p.1 && x.committable
  | _ => r.work

/-- The commands that a COMMIT covers and that have not committed commit in index order (R66). -/
def commitCovered (r : Run) (s : State) : State :=
  (commitRange s r.core r.cmd).foldl (fun s p => match s.compute.runs.find? fun x => x.core == r.core && x.place == p.1 with
    | some x => commitRun x s
    | none => s) s

/-- The bytes that a staging-queue entry enters into the digest. -/
def Staged.bytes : Staged → Bytes
  | .atomic _ wide a v cmp _ => toLe 8 a ++ toLe 8 v ++ toLe 8 cmp ++ toLe 1 (bitOf wide)
  | .fsum cl slot i n vs => toLe 4 cl ++ toLe 4 slot ++ toLe 4 i ++ toLe 4 n ++ vs.flatMap fun w => toLe 4 w.toNat
  | .stats cl slot i n _ rs => toLe 4 cl ++ toLe 4 slot ++ toLe 4 i ++ toLe 4 n ++ rs.flatMap fun r =>
      toLe 4 r.count ++ toLe 4 r.f1.toNat ++ toLe 4 r.f2.toNat ++ toLe 4 r.f3.toNat
  | .tierReq es a b h _ => (es.flatMap fun e => toLe 4 e) ++ toLe 4 a ++ toLe 4 b ++ toLe 4 h

/-- Whether an entry of a staging queue holds statistic records. -/
def Staged.isStats : Staged → Bool
  | .stats _ _ _ _ _ _ => true | _ => false

/-- The digest of an error-free run of a command, D1 and D2 (R403). -/
def digestOf (r : Run) : Nat × Nat :=
  (crc32c (r.values.flatMap fun w => toLe 4 w.toNat),
    crc32c (r.outBytes ++ (r.staged.filter fun e => !e.isStats).flatMap Staged.bytes
      ++ (r.staged.filter Staged.isStats).flatMap Staged.bytes))

/-- A digest with an error in it: D1 in the low half, D2 in the high half. -/
def withError (d : Nat × Nat) (err : BitVec 64) : Nat × Nat :=
  (d.1 ^^^ err.toNat % 4294967296, d.2 ^^^ err.toNat / 4294967296)

/-- The tick is abandoned with 0x4208, charged to the core (Table 15.3). -/
def cirrusLost (r : Run) (s : State) : State :=
  levelTwo 0x4208 (unitOf 1 r.core) noSite none (cmdArg r.core (cmdIndex r.cmd)) s

/-- An in-flight command finishes: its engine is free, for guests first, and it commits at once, stays staged, or awaits its
comparison. -/
def finishRun (r : Run) (err : BitVec 64) (s : State) : State :=
  let s := if cmdOpcode r.cmd == 0x0D then { s with compute := { s.compute with
      edge := s.compute.edge.set (r.core / 8) none } } else s
  let s := if cmdOpcode r.cmd == 0x0B then commitCovered r s else s
  let d := withError (digestOf r) err
  let r := { r with phase := .finished }
  match r.cirrus with
  | .selected _ => startGuests (s.setRun { r with cirrus := .selected (some d) })
  | .rerun agreed =>
    if d == agreed then
      let r := { r with cirrus := .cleared }
      commitIfReady r (startGuests (s.setRun r))
    else cirrusLost r (s.setRun r)
  | _ => commitIfReady r (startGuests (s.setRun r))

/-- COMMAND_FINISH for the command of a core with a CMD_INDEX. -/
def finish (core idx : Nat) (err : BitVec 64) (s : State) : State := match s.run core idx with
  | none => s
  | some r => if r.phase == .running && workDone s r then finishRun r err s else s

/-- The meaning of COMMAND_FINISH (R67). -/
def execCommandFinish (t core idx : Nat) (err : BitVec 64) (s : State) : Host.Outcome State Fault Refusal :=
  .next (finish core idx err (s.arrive t))

/-! ### Deadlines (R59) -/

/-- Whether the command at a place of a core's list is one whose deadline has passed uncommitted. -/
def overdue (s : State) (core idx : Nat) : Option Bytes :=
  let l := (s.list core).mapIdx fun i c => (i, c)
  match l.find? fun p => cmdIndex p.2 == idx with
  | none => none
  | some (i, c) =>
    if cmdDeadline c != 0 && computing s && !s.compute.done.contains (core, i)
        && s.tick.boundary + us (2 * cmdDeadline c) ≤ s.now then some c else none

/-- COMMAND_DEADLINE: 0x1702 and Squall, or the common abort with 0x3A02 for a collective (R59, R334). -/
def deadlinePassed (core idx : Nat) (s : State) : State := match overdue s core idx with
  | none => s
  | some c =>
    if (cmdOpcode c == 0x07 || cmdOpcode c == 0x08) && s.inRing then startAbort 0x3A02 false none none s
    else commandFault 0x1702 (cmdArg core idx) core s

/-- The meaning of COMMAND_DEADLINE (R59). -/
def execCommandDeadline (t core idx : Nat) (s : State) : Host.Outcome State Fault Refusal :=
  .next (deadlinePassed core idx (s.arrive t))

/-! ### Cirrus (R404) -/

/-- The digests differ: the arbitration is the tick's level-1 recovery, or a second fault of the tick (R398, R404). -/
def beginArbitration (r : Run) (d0 d1 : Nat × Nat) (s : State) : State :=
  let s := countKind 6 s
  if s.job.level1Used then
    enterSquall (some (unitOf 1 r.core)) none (raiseAs 0x4301 false .management true (cmdArg r.core (cmdIndex r.cmd)) s)
  else
    let s := (countKind 8 { s with job := { s.job with level1Used := true } }).setRun { r with cirrus := .arbitrating d0 d1 }
    startGuests (addGuest (arbiterOf r.core) r.core r.place r.cmd true s)

/-- A guest has finished: its host's engine and reserve are free for the next. -/
def endGuests (r : Run) (s : State) : State := startGuests (dropGuests r.core r.place s)

/-- CIRRUS_COMPARE: the digest of the finished original against that of its duplicate, which has run on the partner. -/
def compareDigests (core idx : Nat) (err : BitVec 64) (s : State) : State := match s.run core idx with
  | none => s
  | some r => match r.phase, r.cirrus with
    | .finished, .selected (some d0) =>
      if !guestRuns s core r.place false then s else
      let s := endGuests r s
      let d1 := withError (digestOf r) err
      let s := countKind 5 s
      if d0 == d1 then
        let r := { r with cirrus := .cleared }
        commitIfReady r (s.setRun r)
      else beginArbitration r d0 d1 s
    | _, _ => s

/-- The meaning of CIRRUS_COMPARE (R404). -/
def execCirrusCompare (t core idx : Nat) (err : BitVec 64) (s : State) : Host.Outcome State Fault Refusal :=
  .next (compareDigests core idx err (s.arrive t))

/-- CIRRUS_ARBITRATION (Table 15.3). -/
def arbitrate (core idx : Nat) (err : BitVec 64) (s : State) : State := match s.run core idx with
  | none => s
  | some r => match r.cirrus with
    | .arbitrating d0 d1 =>
      if !guestRuns s core r.place true then s else
      let s := endGuests r s
      let third := withError (digestOf r) err
      let arg := cmdArg core idx
      if third == d0 then
        let s := countError 0x4206 .compute false (unitOf 1 (partnerOf core)) noSite arg s
        let r := { r with cirrus := .cleared }
        if s.dawn.phase == .eclipse then s else commitIfReady r (s.setRun r)
      else if third == d1 then
        let s := countError 0x4207 .compute false (unitOf 1 core) noSite arg s
        if s.dawn.phase == .eclipse then s
        else if s.inRing then startAbort 0x3A04 false (some (unitOf 1 core)) none s
        else
          let s := killRun r s
          { s with compute := { s.compute with agreed := s.compute.agreed ++ [((core, r.place), d1)] } }
      else cirrusLost r s
    | _ => s

/-- The meaning of CIRRUS_ARBITRATION (R404). -/
def execCirrusArbitration (t core idx : Nat) (err : BitVec 64) (s : State) : Host.Outcome State Fault Refusal :=
  .next (arbitrate core idx err (s.arrive t))

/-! ### Parity (R397) -/

/-- A path parity error in the command of a core, or in its duplicate, which is dropped with the original going on
unchecked (R397, Table 15.14). -/
def parityFault (core idx : Nat) (duplicate : Bool) (s : State) : State := match s.run core idx with
  | none => s
  | some r =>
    let s := countKind 4 s
    let unit := unitOf 1 (if duplicate then partnerOf core else core)
    if duplicate then
      if r.cirrus == .none || r.cirrus == .cleared then s
      else
        let r := { r with cirrus := .none }
        let s := countError 0x4201 .compute false unit noSite (cmdArg core idx) (endGuests r (s.setRun r))
        if s.dawn.phase == .eclipse then s else commitIfReady r s
    else levelOne r (countError 0x4201 .compute false unit noSite (cmdArg core idx) s)

/-- The meaning of PARITY_FAULT (R397). -/
def execParityFault (t core idx : Nat) (duplicate : Bool) (s : State) : Host.Outcome State Fault Refusal :=
  .next (parityFault core idx duplicate (s.arrive t))

/-! ### Control commands (R66) -/

/-- A control command that the sequencer executes: it issues if it is the next one and may, and completes if its condition
holds. -/
def control (op core : Nat) (s : State) : State :=
  let s := match s.compute.runs.find? fun r => r.core == core && cmdOpcode r.cmd == op && r.phase == .running with
    | some _ => s
    | none => match nextCommand s core with
      | some (place, c) =>
        if cmdOpcode c == op && canIssue s core c then launch core place c (accessFor s core c []) {} true s else s
      | none => s
  match s.compute.runs.find? fun r => r.core == core && cmdOpcode r.cmd == op && r.phase == .running with
  | some r => finish core (cmdIndex r.cmd) 0 s
  | none => s

/-- The meaning of WAIT (R66). -/
def execWait (t core : Nat) (s : State) : Host.Outcome State Fault Refusal :=
  .next (control 0x09 core (s.arrive t))

/-- The meaning of SIGNAL (R66). -/
def execSignal (t core : Nat) (s : State) : Host.Outcome State Fault Refusal :=
  .next (control 0x0A core (s.arrive t))

/-- The meaning of COMMIT (R66). -/
def execCommit (t core : Nat) (s : State) : Host.Outcome State Fault Refusal :=
  .next (control 0x0B core (s.arrive t))

end Sys2Proof.Machine
end

