-- ==== Sys2Proof/Machine/Coll.lean ====
section
/-! DEFINITION. Collectives (R324 to R330): groups, what members send one another and when, COLL_MOVE, COLL_MM, and the flits
CLEAR, PART, DATA and DONE. A transfer's bytes are held until they are complete and then written to the receiving tensor,
which no other command reads before the commit (R67). -/

namespace Sys2Proof.Machine

/-! ### Messages -/

/-- Zeros up to a multiple of 32 bytes. -/
def padTo32 (b : Bytes) : Bytes := b ++ zeros ((32 - b.length % 32) % 32)

/-- Elements with given indices as a message: their codes densely, then the block scales (R408, R328). -/
def packElements (s : State) (cx : Access) (t : Tensor) (ixs : List (List Nat)) : Bytes :=
  padTo32 (packCodes t.fmt (ixs.map (readCode s cx t))
    ++ (if t.fmt.blockScaled then (ixs.filter fun ix => ix.headD 0 % 32 == 0).map fun ix =>
      BitVec.ofNat 8 (readScale s cx t ix) else []))

/-- Bytes that a message of given elements takes. -/
def packedLength (t : Tensor) (ixs : List (List Nat)) : Nat :=
  let n := packedBytes t.fmt ixs.length
    + (if t.fmt.blockScaled then (ixs.filter fun ix => ix.headD 0 % 32 == 0).length else 0)
  ceilDiv n 32 * 32

/-- A message as the elements of a tensor that it lands in. -/
def unpackElements (t : Tensor) (ixs : List (List Nat)) (b : Bytes) : Out :=
  ⟨t, ixs.mapIdx fun i ix => (ix, packedCode t.fmt b i),
    if t.fmt.blockScaled then (ixs.filter fun ix => ix.headD 0 % 32 == 0).mapIdx fun i ix =>
      (ix, byteAt b (packedBytes t.fmt ixs.length + i)) else []⟩

/-- The bytes of a message from its payloads by offset; none while some are missing. -/
def assemble (len : Nat) (parts : List (Nat × Bytes)) : Option Bytes :=
  let b := (sortBy (fun a b => decide (a.1 ≤ b.1)) parts).foldl
    (fun (acc : Option Bytes) p => match acc with
      | some b => if p.1 == b.length then some (b ++ p.2) else none
      | none => none) (some [])
  match b with
  | some b => if b.length == len then some b else none
  | none => none

/-! ### COLL_MOVE (Tables 12.8, 12.9) -/

/-- The segments: source and destination tensors. -/
def moveSegments (s : State) (c : Bytes) : List (Tensor × Tensor) :=
  (List.range (byteAt c 20)).map fun i => (s.tensor (le c (24 + 4 * i) 2), s.tensor (le c (26 + 4 * i) 2))

/-- Whether index n receives the source of index j in a group of k (Table 12.9). -/
def moveReceives (c : Bytes) (k n j : Nat) : Bool := match collOperation c with
  | 0 => j == (n + k - byteAt c 19 % max 1 k) % max 1 k
  | 1 => j == collRoot c
  | 2 => true
  | _ => n == collRoot c

/-- The elements of DST that the source of index j lands in: all, or slice j along the highest dimension of extent above 1. -/
def landing (c : Bytes) (k j : Nat) (dst : Tensor) : List (List Nat) :=
  if collOperation c ≤ 1 then dst.indices
  else
    let h := ((List.range 5).filter fun i => 1 < dst.dim i).getLast?.getD 0
    let ext := max 1 (dst.dim h / max 1 k)
    dst.indices.filter fun ix => ix.getD h 0 / ext == j

/-! ### COLL_MM (Table 12.10) -/

/-- The N-tiles of slice i of k, for an output of tn tiles (R330). -/
def mmSlice (c : Bytes) (k tn i : Nat) : Nat × Nat :=
  if collOperation c == 2 then (if i == collRoot c then (0, tn) else (0, 0)) else (i * tn / max 1 k, (i + 1) * tn / max 1 k)

/-- The elements of a tensor, N along dimension 0, that slice i holds. -/
def sliceIndices (c : Bytes) (k i : Nat) (t : Tensor) : List (List Nat) :=
  let (lo, hi) := mmSlice c k (t.dim 0 / 128) i
  t.indices.filter fun ix => 128 * lo ≤ ix.headD 0 && ix.headD 0 < 128 * hi

/-- The blocks of the part that a member holds, from its own command of the collective. -/
def partnerRange (s : State) (pos : Nat) (c : Bytes) : Nat × Nat :=
  let lists := (List.range 64).flatMap (commandList s.plan s.job.variant pos s.job.path)
  match lists.find? fun x => cmdIndex x == cmdIndex c with
  | some x => (le x 32 2, le x 34 2)
  | none => (0, 0)

/-! ### What goes where -/

/-- Bytes of PART and of DATA that this member gets from group index j. -/
def incoming (s : State) (c : Bytes) (j : Nat) : Nat × Nat :=
  let k := (collMembers s c).length
  let n := collIndex s c
  if j == n then (0, 0)
  else if isMm c then
    (4 * (sliceIndices c k n (s.tensor (le c 16 2))).length,
      if collOperation c == 0 then packedLength (s.tensor (le c 22 2)) (sliceIndices c k j (s.tensor (le c 22 2))) else 0)
  else if moveReceives c k n j then
    (0, ((moveSegments s c).map fun g => packedLength g.2 (landing c k j g.2)).foldl (· + ·) 0)
  else (0, 0)

/-- What this member sends to group index j: PART, and DATA once its local work allows. -/
def outgoing (s : State) (cx : Access) (c : Bytes) (j : Nat) : Bytes × Bytes :=
  let k := (collMembers s c).length
  let n := collIndex s c
  if j == n then ([], [])
  else if isMm c then
    let part := s.tensor (le c 16 2)
    let d := s.tensor (le c 22 2)
    (packElements s cx part (sliceIndices c k j part),
      if collOperation c == 0 then packElements s cx d (sliceIndices c k n d) else [])
  else if moveReceives c k j n then ([], (moveSegments s c).flatMap fun g => packElements s cx g.1 g.1.indices)
  else ([], [])

/-! ### Transfers -/

/-- What stands between this member and a position for a collective of the tick. -/
def transferOf (s : State) (pos idx tick : Nat) : Transfer :=
  (s.link.transfers.find? fun t => t.source == pos && t.index == idx && t.tick == tick % 65536).getD
    { source := pos, index := idx, tick := tick % 65536 }

/-- The state with a transfer replaced. -/
def setTransfer (t : Transfer) (s : State) : State :=
  { s with link := { s.link with transfers :=
      (s.link.transfers.filter fun x => !(x.source == t.source && x.index == t.index && x.tick == t.tick)) ++ [t] } }

/-- The transfer with a position for a command of the current tick. -/
def State.withPeer (s : State) (c : Bytes) (pos : Nat) : Transfer := transferOf s pos (cmdIndex c) s.tick.index

/-- A message goes to a position in flits of at most 224 bytes of payload (R317). -/
def sendMessage (op : Nat) (c : Bytes) (dst : Nat) (b : Bytes) (s : State) : State :=
  ((chunks 224 b).mapIdx fun i p => (i, p)).foldl (fun s q =>
    sendData (goesForward s dst) none (flitBody op (collGroup c) s.job.position dst (cmdIndex c) (224 * q.1) q.2.length
      (s.tick.index % 65536) q.2) s) s

/-- A control flit of a collective. -/
def sendCollControl (op : Nat) (c : Bytes) (dst : Nat) (payload : Bytes) (s : State) : State :=
  sendControl (goesForward s dst) none
    (flitBody op (collGroup c) s.job.position dst (cmdIndex c) 0 32 (s.tick.index % 65536) payload) s

/-- The other members of a collective: group index and position. -/
def collPeers (s : State) (c : Bytes) : List (Nat × Nat) :=
  ((collMembers s c).mapIdx fun j p => (j, p)).filter fun q => q.1 != collIndex s c

/-- Whether the bytes of group index j are all here. -/
def arrived (s : State) (c : Bytes) (q : Nat × Nat) (data : Bool) : Bool :=
  let (np, nd) := incoming s c q.1
  let t := s.withPeer c q.2
  (assemble np t.part).isSome && (!data || (assemble nd t.data).isSome)

/-- Whether the local work of a collective is complete. -/
def localDone (s : State) (c : Bytes) : Bool := (s.withPeer c s.job.position).sentPart

/-- The local work is complete. -/
def setLocalDone (c : Bytes) (s : State) : State := setTransfer { s.withPeer c s.job.position with sentPart := true } s

/-! ### Local work -/

/-- The value of an element of this member's slice in every part: its blocks, and its value (R330). -/
def sliceParts (s : State) (cx : Access) (c : Bytes) : List (Nat × Nat × Array Word) :=
  let k := (collMembers s c).length
  let n := collIndex s c
  let own := s.tensor (le c 16 2)
  (collMembers s c).mapIdx fun j p =>
    let (lo, hi) := if j == n then (le c 32 2, le c 34 2) else partnerRange s p c
    let vals := if j == n then (sliceIndices c k n own).map (readWord s cx own)
      else
        let b := (assemble (incoming s c j).1 (s.withPeer c p).part).getD []
        (List.range (b.length / 4)).map fun i => wordAt b (4 * i)
    (lo, hi, vals.toArray)

/-- The additions of tree(0, N_BLOCKS) above the parts' nodes, for every element of this member's slice (R330). -/
def sliceRoots (s : State) (cx : Access) (c : Bytes) : List Word :=
  let parts := sliceParts s cx c
  let own := s.tensor (le c 16 2)
  let n := le c 30 2
  (List.range (sliceIndices c (collMembers s c).length (collIndex s c) own).length).map fun i =>
    (treeParts add32 (fun lo hi => (parts.find? fun p => p.1 == lo && p.2.1 == hi).map fun p => p.2.2.getD i zero32)
      (ceilLog2 n + 1) 0 n).getD zero32

/-- The parts of the other members as they stand in the receive area, group index by group index. -/
def stageOut (s : State) (c : Bytes) : Out :=
  let t := s.tensor (le c 18 2)
  ⟨t, (collPeers s c).flatMap fun q =>
    let b := (assemble (incoming s c q.1).1 (s.withPeer c q.2).part).getD []
    let n := b.length / 4
    (List.range n).map fun i => (unflatten t.dims (q.1 * n + i), (wordAt b (4 * i)).toNat), []⟩

/-- The owner of a slice finishes it: C, epilogue, conversion into D (R330). -/
def mmFinish (core : Nat) (c : Bytes) (s : State) : State :=
  let cx : Access := ⟨core, [], []⟩
  let d := s.tensor (le c 22 2)
  let f : Finish := ⟨optTensor s (le c 20 2), d, le c 28 2, bitAt (byteAt c 27) 2, le c 36 4⟩
  let w := finishAt s cx c f (sliceIndices c (collMembers s c).length (collIndex s c) d) (sliceRoots s cx c) false
  match w.kill with
  | some code => commandFault code (cmdArg core (cmdIndex c)) core s
  | none => setLocalDone c ((w.outs ++ [stageOut s c]).foldl (fun s o => writeOut cx o s) s)

/-- The local copies of a COLL_MOVE: what this member's own source gives its own destination. -/
def moveLocal (core : Nat) (c : Bytes) (s : State) : State :=
  let cx : Access := ⟨core, [], []⟩
  let k := (collMembers s c).length
  let n := collIndex s c
  let s := if moveReceives c k n n then
      (moveSegments s c).foldl (fun s g =>
        writeOut cx (unpackElements g.2 (landing c k n g.2) (packElements s cx g.1 g.1.indices)) s) s
    else s
  setLocalDone c s

/-! ### Progress (R326) -/

/-- What a member's clearance lets this one send it. -/
def progressSend (core : Nat) (c : Bytes) (q : Nat × Nat) (s : State) : State :=
  let cx : Access := ⟨core, [], []⟩
  let t := s.withPeer c q.2
  let (p, d) := outgoing s cx c q.1
  let s := if t.cleared && !t.sentPart && !p.isEmpty then
      setTransfer { t with sentPart := true } (sendMessage 0x02 c q.2 p s)
    else s
  let t := s.withPeer c q.2
  if t.cleared && !t.sentData && !d.isEmpty && localDone s c then
    setTransfer { t with sentData := true } (sendMessage 0x01 c q.2 d s)
  else s

/-- DATA of a member that is all here goes into this member's tensors. -/
def landData (core : Nat) (c : Bytes) (q : Nat × Nat) (s : State) : State :=
  let cx : Access := ⟨core, [], []⟩
  let k := (collMembers s c).length
  let b := (assemble (incoming s c q.1).2 (s.withPeer c q.2).data).getD []
  if isMm c then
    let d := s.tensor (le c 22 2)
    writeOut cx (unpackElements d (sliceIndices c k q.1 d) b) s
  else
    ((moveSegments s c).foldl (fun (acc : State × Nat) g =>
      let ixs := landing c k q.1 g.2
      let n := packedLength g.2 ixs
      (writeOut cx (unpackElements g.2 ixs (slice b acc.2 n)) acc.1, acc.2 + n)) (s, 0)).1

/-- Once every byte of a member is here, DATA lands and DONE goes to it with the byte count. -/
def progressReceive (core : Nat) (c : Bytes) (q : Nat × Nat) (s : State) : State :=
  let (np, nd) := incoming s c q.1
  let t := s.withPeer c q.2
  if np + nd != 0 && !t.sentDone && arrived s c q true then
    let s := if nd != 0 then landData core c q s else s
    setTransfer { t with sentDone := true } (sendCollControl 0x11 c q.2 (toLe 4 (np + nd)) s)
  else s

/-- Whether all that R326 asks of a collective has happened. -/
def collComplete (core : Nat) (c : Bytes) (s : State) : Bool :=
  localDone s c && (collPeers s c).all fun q =>
    let (np, nd) := incoming s c q.1
    let (op, od) := outgoing s ⟨core, [], []⟩ c q.1
    let t := s.withPeer c q.2
    (np + nd == 0 || t.sentDone) && ((op.isEmpty && od.isEmpty) || t.done)

/-- An in-flight collective goes as far as what it holds allows. -/
def progress (r : Run) (s : State) : State :=
  let c := r.cmd
  let peers := collPeers s c
  let s := peers.foldl (fun s q => progressSend r.core c q s) s
  let s := if isMm c && !localDone s c && peers.all (fun q => arrived s c q false) then mmFinish r.core c s else s
  if s.compute.abandoned then s
  else
    let s := peers.foldl (fun s q => progressReceive r.core c q (progressSend r.core c q s)) s
    if collComplete r.core c s then s.setRun { r with work := true } else s

/-! ### Issue -/

/-- The tensors that a collective names. -/
def collTensors (s : State) (c : Bytes) : List Nat :=
  if isMm c then tensorFields [16, 18, 20, 22] c ++ programTensors s.plan (le c 28 2)
  else (List.range (byteAt c 20)).flatMap fun i => tensorFields [24 + 4 * i, 26 + 4 * i] c

/-- What a collective moves to or from HBM for a tensor is charged to the Link partition's regulator (R260). -/
def chargeLink (s : State) (i : Nat) : State :=
  let t := s.tensor i
  if t.space == 0 then chargeHbm 2 t.base t.bytes s else s

/-- The next command of a core, if it is the collective asked for: it issues, sends CLEAR to every member that sends to it
(R326) and goes as far as it can. -/
def issueColl (asked : Bytes → Bool) (core : Nat) (s : State) : Host.Outcome State Fault Refusal :=
  match nextCommand s core with
  | none => .next s
  | some (place, c) =>
    if !asked c then .next s
    else if !canIssue s core c then .next (waitIssue core c s)
    else if (collTensors s c).any fun i => !(s.tensor i).inside then .fault .addressOutsideSpace
    else
      let s := launch core place c (accessFor s core c []) {} false ((collTensors s c).foldl chargeLink s)
      let s := (collPeers s c).foldl (fun s q =>
        let (np, nd) := incoming s c q.1
        if np + nd == 0 then s else sendCollControl 0x10 c q.2 [] s) s
      let s := if isMm c then s else moveLocal core c s
      .next (match s.run core (cmdIndex c) with | some r => progress r s | none => s)

/-- Whether a command is a COLL_MM of an operation. -/
def isCollMm (op : Nat) (c : Bytes) : Bool := cmdOpcode c == 0x07 && collOperation c == op

/-- Whether a command is a COLL_MOVE of an operation. -/
def isCollMove (op : Nat) (c : Bytes) : Bool := cmdOpcode c == 0x08 && collOperation c == op

/-- The meaning of ALLREDUCE (R330). -/
def execAllreduce (t core : Nat) (s : State) : Host.Outcome State Fault Refusal :=
  issueColl (isCollMm 0) core (s.arrive t)

/-- The meaning of REDUCE_SCATTER (R330). -/
def execReduceScatter (t core : Nat) (s : State) : Host.Outcome State Fault Refusal :=
  issueColl (isCollMm 1) core (s.arrive t)

/-- The meaning of COLL_REDUCE (R330). -/
def execCollReduce (t core : Nat) (s : State) : Host.Outcome State Fault Refusal :=
  issueColl (isCollMm 2) core (s.arrive t)

/-- The meaning of SHIFT (R328). -/
def execShift (t core : Nat) (s : State) : Host.Outcome State Fault Refusal :=
  issueColl (isCollMove 0) core (s.arrive t)

/-- The meaning of BROADCAST (R328). -/
def execBroadcast (t core : Nat) (s : State) : Host.Outcome State Fault Refusal :=
  issueColl (isCollMove 1) core (s.arrive t)

/-- The meaning of ALLGATHER (R328). -/
def execAllgather (t core : Nat) (s : State) : Host.Outcome State Fault Refusal :=
  issueColl (isCollMove 2) core (s.arrive t)

/-- The meaning of COLL_GATHER (R328). -/
def execCollGather (t core : Nat) (s : State) : Host.Outcome State Fault Refusal :=
  issueColl (isCollMove 3) core (s.arrive t)

/-! ### Flits of a collective (R326) -/

/-- The in-flight collective that a flit names. -/
def collOfFlit (s : State) (f : Bytes) : Option Run := s.compute.runs.find? fun r =>
  classOf (cmdOpcode r.cmd) == .link && cmdIndex r.cmd == flitIndex f && flitTick f == s.tick.index % 65536
    && r.phase == .running

/-- Whether a CLEAR can concern this member: it names the current tick, not abandoned, or the next one. -/
def clearConcerns (s : State) (f : Bytes) : Bool :=
  s.inRing && (flitTick f == s.nextIndex % 65536 || (flitTick f == s.tick.index % 65536 && computing s))

/-- CLEAR of a member is held; what it lets this one send goes. -/
def takeClear (f : Bytes) (s : State) : State :=
  if clearConcerns s f then
    let t := transferOf s (flitSrc f) (flitIndex f) (flitTick f)
    let s := setTransfer { t with cleared := true } s
    match collOfFlit s f with | some r => progress r s | none => s
  else s

/-- A flit of an in-flight collective changes the transfer with its sender; one of none, as after a reset of the Compute
partition, is discarded (R252). -/
def takeColl (change : Transfer → Transfer) (f : Bytes) (s : State) : State := match collOfFlit s f with
  | none => s
  | some r => progress r (setTransfer (change (transferOf s (flitSrc f) (flitIndex f) s.tick.index)) s)

/-- The payload of a data flit with its place. -/
def flitPiece (f : Bytes) : Nat × Bytes := (flitOffset f, (flitPayload f).take (flitLen f))

/-- The meaning of DATA (R326). -/
def execData (t port : Nat) (flit : Bytes) (errors : Nat) (s : State) : Host.Outcome State Fault Refusal :=
  .next (receive port 0x01 flit errors always
    (takeColl (fun x => { x with data := x.data ++ [flitPiece flit] }) flit) (s.arrive t))

/-- The meaning of PART (R330). -/
def execPart (t port : Nat) (flit : Bytes) (errors : Nat) (s : State) : Host.Outcome State Fault Refusal :=
  .next (receive port 0x02 flit errors always
    (takeColl (fun x => { x with part := x.part ++ [flitPiece flit] }) flit) (s.arrive t))

/-- The meaning of CLEAR (R326). -/
def execClear (t port : Nat) (flit : Bytes) (errors : Nat) (s : State) : Host.Outcome State Fault Refusal :=
  .next (receive port 0x10 flit errors always (takeClear flit) (s.arrive t))

/-- The meaning of DONE (R326). -/
def execDone (t port : Nat) (flit : Bytes) (errors : Nat) (s : State) : Host.Outcome State Fault Refusal :=
  .next (receive port 0x11 flit errors always (takeColl (fun x => { x with done := true }) flit) (s.arrive t))

end Sys2Proof.Machine
end

