-- ==== Sys2Proof/Machine/Conv.lean ====
section
/-! DEFINITION. Convolution on either engine, pooling and bilinear resampling (R198 to R217): the address generator, the
logical K, and what each function computes. Stripes, dataflow and the skipping of padding blocks change no bit (R222). -/

namespace Sys2Proof.Machine

/-! ### The body (Tables 8.1, 8.2, 8.4) -/

/-- The geometry of a convolution body. -/
structure Geometry where
  kw  : Nat
  kh  : Nat
  sx  : Nat
  sy  : Nat
  dx  : Nat
  dy  : Nat
  pl  : Nat
  pr  : Nat
  pt  : Nat
  pb  : Nat
  ux  : Nat
  uy  : Nat
  /-- PAD_MODE: 0 zero, 1 reflect, 2 replicate. -/
  pad : Nat
  /-- UPMODE: 0 none, 1 zero insertion, 2 nearest repeat. -/
  up  : Nat
  ox0 : Nat
  oy0 : Nat
deriving DecidableEq, Repr

/-- The geometry that a command gives. -/
def geometryOf (c : Bytes) : Geometry :=
  { kw := byteAt c 32, kh := byteAt c 33, sx := byteAt c 34, sy := byteAt c 35, dx := byteAt c 36, dy := byteAt c 37,
    pl := byteAt c 38, pr := byteAt c 39, pt := byteAt c 40, pb := byteAt c 41,
    ux := bits (byteAt c 42) 0 4, uy := bits (byteAt c 42) 4 4,
    pad := bits (byteAt c 24) 5 2, up := bits (byteAt c 24) 2 2, ox0 := le c 56 2, oy0 := le c 58 2 }

/-- COUNT_PAD. -/
def convCountPad (c : Bytes) : Bool := bitAt (byteAt c 24) 4
/-- FUNCTION of an EDGE_CONV. -/
def edgeFunction (c : Bytes) : Nat := bits (byteAt c 24) 0 2

/-! ### The address generator (R203, R204) -/

/-- The virtual extent of an input of n columns or rows. -/
def virtualExtent (up u n : Nat) : Nat := match up with
  | 0 => n
  | 1 => (n - 1) * u + 1
  | _ => n * u

/-- What a coordinate of a tap gives: an input index, a padded zero or an inserted zero. -/
inductive Coord where
  | at (i : Nat)
  | pad
  | insert
deriving DecidableEq, Repr

/-- The real index of a virtual one. -/
def realIndex (up u v : Nat) : Coord := match up with
  | 0 => .at v
  | 1 => if v % u == 0 then .at (v / u) else .insert
  | _ => .at (v / u)

/-- The input coordinate of output position o and tap k (R203). -/
def tapCoord (pad up u n stride dil before o k : Nat) : Coord :=
  let vw := virtualExtent up u n
  let v : Int := (o * stride + k * dil : Nat) - (before : Int)
  if 0 ≤ v && v < vw then realIndex up u v.toNat
  else match pad with
    | 0 => .pad
    | 1 => realIndex up u (if v < 0 then -v else 2 * ((vw : Int) - 1) - v).toNat
    | _ => realIndex up u (clampInt 0 ((vw : Int) - 1) v).toNat

/-- What a tap reads: an element by column and row, or a zero. A coordinate outside the virtual input makes the tap
padded. -/
inductive Tap where
  | at (ix iy : Nat)
  | pad
  | insert
deriving DecidableEq, Repr

/-- The tap (kx, ky) of output position (ox, oy) of an input of iw columns and ih rows. -/
def Geometry.tap (g : Geometry) (iw ih ox oy kx ky : Nat) : Tap :=
  match tapCoord g.pad g.up g.ux iw g.sx g.dx g.pl ox kx, tapCoord g.pad g.up g.uy ih g.sy g.dy g.pt oy ky with
  | .at x, .at y => .at x y
  | .pad, _ => .pad
  | _, .pad => .pad
  | _, _ => .insert

/-- OX and OY of R204; 0 where the window does not fit. -/
def outExtent (v before after dil k stride : Nat) : Nat :=
  if v + before + after < dil * (k - 1) + 1 then 0 else (v + before + after - dil * (k - 1) - 1) / stride + 1

/-! ### Logical K (R205, R206) -/

/-- w of R206: the smallest power of two that is at least ⌈49 C / B⌉. -/
def passBlocks (ch b : Nat) : Nat := 2 ^ ceilLog2 (ceilDiv (49 * ch) b)

/-- K' of R205 or R206. -/
def Geometry.logicalK (g : Geometry) (ch b : Nat) : Nat :=
  if g.kw ≤ 7 && g.kh ≤ 7 then ceilDiv (ch * g.kw * g.kh) b * b
  else ceilDiv g.kw 7 * ceilDiv g.kh 7 * passBlocks ch b * b

/-- The channel and tap of a logical K index; none at a padding position. -/
def Geometry.position (g : Geometry) (ch b k : Nat) : Option (Nat × Nat × Nat) :=
  if g.kw ≤ 7 && g.kh ≤ 7 then
    if k < ch * g.kw * g.kh then some (k % ch, k / ch % g.kw, k / ch / g.kw) else none
  else
    let span := passBlocks ch b * b
    let q := k / span
    let r := k % span
    let px := q % ceilDiv g.kw 7
    let py := q / ceilDiv g.kw 7
    let pw := min 7 (g.kw - 7 * px)
    let ph := min 7 (g.kh - 7 * py)
    if r < ch * pw * ph then some (r % ch, 7 * px + r / ch % pw, 7 * py + r / ch / pw) else none

/-! ### Convolution (R198, R211, R214) -/

/-- The tensors that a convolution body names. -/
def convTensors (s : State) (c : Bytes) : List Nat :=
  tensorFields [16, 18, 20, 22] c ++ programTensors s.plan (le c 26 2) ++ programTensors s.plan (le c 28 2)

/-- The work of a TILE_CONV or an EDGE_CONV convolution: the product of the input taps and the weights in logical K
order. -/
def convWork (cx : Access) (c : Bytes) (s : State) : Work :=
  let g := geometryOf c
  let x := s.tensor (le c 16 2)
  let w := s.tensor (le c 18 2)
  let d := s.tensor (le c 22 2)
  let opX := readOperand s cx c x (le c 26 2) (roundA c 25)
  let opW := readOperand s cx c w 0xFFFF (roundB c 25)
  let b := blockSize x.fmt
  let ch := x.dim 0
  let f : Finish := ⟨optTensor s (le c 20 2), d, le c 28 2, roundDsr c 25, le c 52 4⟩
  let pair := fun (ix : List Nat) (k : Nat) => match g.position ch b k with
    | none => (zeroVal, zeroVal)
    | some (cn, kx, ky) =>
      let v := match g.tap (x.dim 1) (x.dim 2) (g.ox0 + ix.getD 1 0) (g.oy0 + ix.getD 2 0) kx ky with
        | .at i j => opX.1.at [cn, i, j, ix.getD 3 0]
        | _ => zeroVal
      (v, opW.1.at [k, ix.getD 0 0])
  product s cx c f x.fmt (le c 48 2) (partHi c 50 (g.logicalK ch b / b)) pair (opX.2 || opW.2)

/-- The meaning of TILE_CONV (R198). -/
def execTileConv (t core : Nat) (s : State) : Host.Outcome State Fault Refusal :=
  issue core [] (fun c => cmdOpcode c == 0x02) convTensors convWork (s.arrive t)

/-- Whether a command is an EDGE_CONV of a function. -/
def isEdge (fn : Nat) (c : Bytes) : Bool := cmdOpcode c == 0x0D && edgeFunction c == fn

/-- The meaning of CONVOLUTION (R214). -/
def execConvolution (t core : Nat) (s : State) : Host.Outcome State Fault Refusal :=
  issue core [] (isEdge 0) convTensors convWork (s.arrive t)

/-! ### Pooling and resampling (R216, R217) -/

/-- The taps of a window at output index ix. -/
def Geometry.window (g : Geometry) (x : Tensor) (ix : List Nat) : List Tap :=
  (List.range g.kh).flatMap fun ky => (List.range g.kw).map fun kx =>
    g.tap (x.dim 1) (x.dim 2) (g.ox0 + ix.getD 1 0) (g.oy0 + ix.getD 2 0) kx ky

/-- The element of a tap, widened to FP32. -/
def tapWord (s : State) (cx : Access) (x : Tensor) (ix : List Nat) (i j : Nat) : Word :=
  widen32 (readVal s cx x [ix.getD 0 0, i, j, ix.getD 3 0, 0])

/-- The result of a maximum pool: zero-padded and zero-inserted taps are skipped (R216). -/
def maximumOf (ws : List Word) : Word := match ws with
  | [] => zero32
  | w :: rest => rest.foldl max32op (max32op w w)

/-- The result of an average pool: the exact sum over the count, rounded once (R216). -/
def averageOf (ws : List Word) : Word :=
  if ws.isEmpty then zero32
  else match sumExact (ws.map exact32) with
    | none => nan32
    | some x => match x.val with
      | .nan => nan32
      | .fin neg m e =>
        let (p, q) := pow2 e
        ratio32 .rne neg (m * p) (q * ws.length)

/-- One element of a maximum pool. -/
def maximumAt (s : State) (cx : Access) (_c : Bytes) (g : Geometry) (x : Tensor) (ix : List Nat) : Word :=
  maximumOf ((g.window x ix).filterMap fun tp => match tp with
    | .at i j => some (tapWord s cx x ix i j) | _ => none)

/-- One element of an average pool: inserted zeros always count, padded ones with COUNT_PAD. -/
def averageAt (s : State) (cx : Access) (c : Bytes) (g : Geometry) (x : Tensor) (ix : List Nat) : Word :=
  averageOf ((g.window x ix).filterMap fun tp => match tp with
    | .at i j => some (tapWord s cx x ix i j)
    | .insert => some zero32
    | .pad => if convCountPad c then some zero32 else none)

/-- The two source indices and the numerator of the fraction over 2F of a coordinate (R217). -/
def bilinearCoord (f n o : Nat) : Nat × Nat × Nat :=
  let a : Int := (2 * o + 1 : Nat) - (f : Int)
  let x0 := a / ((2 * f : Nat) : Int)
  let fx := (a % ((2 * f : Nat) : Int)).toNat
  ((clampInt 0 ((n : Int) - 1) x0).toNat, (clampInt 0 ((n : Int) - 1) (x0 + 1)).toNat, fx)

/-- One element of a bilinear resampling: r formed exactly and rounded once (R217). -/
def bilinearAt (s : State) (cx : Access) (_c : Bytes) (g : Geometry) (x : Tensor) (ix : List Nat) : Word :=
  let f := g.ux
  let (xa, xb, fx) := bilinearCoord f (x.dim 1) (g.ox0 + ix.getD 1 0)
  let (ya, yb, fy) := bilinearCoord f (x.dim 2) (g.oy0 + ix.getD 2 0)
  let term := fun (wx wy i j : Nat) => (exact32 (tapWord s cx x ix i j)).map fun v => (Exact.ofInt (wx * wy : Nat)).mul v
  match sumExact [term (2 * f - fx) (2 * f - fy) xa ya, term fx (2 * f - fy) xb ya, term (2 * f - fx) fy xa yb,
      term fx fy xb yb] with
  | none => nan32
  | some r => ({ r with e := r.e - 2 * (ceilLog2 (2 * f) : Nat) } : Exact).to32 .rne

/-- The work of a pooling or resampling command: one FP32 value per output element, through the epilogue and the
conversion. -/
def poolWork (at' : State → Access → Bytes → Geometry → Tensor → List Nat → Word) (cx : Access) (c : Bytes) (s : State) :
    Work :=
  let d := s.tensor (le c 22 2)
  finishProduct s cx c ⟨none, d, le c 28 2, roundDsr c 25, le c 52 4⟩
    (d.indices.map (at' s cx c (geometryOf c) (s.tensor (le c 16 2)))) false

/-- The tensors that a pooling or resampling command names. -/
def poolTensors (s : State) (c : Bytes) : List Nat := tensorFields [16, 22] c ++ programTensors s.plan (le c 28 2)

/-- The meaning of MAXIMUM_POOL (R216). -/
def execMaximumPool (t core : Nat) (s : State) : Host.Outcome State Fault Refusal :=
  issue core [] (isEdge 1) poolTensors (poolWork maximumAt) (s.arrive t)

/-- The meaning of AVERAGE_POOL (R216). -/
def execAveragePool (t core : Nat) (s : State) : Host.Outcome State Fault Refusal :=
  issue core [] (isEdge 2) poolTensors (poolWork averageAt) (s.arrive t)

/-- The meaning of BILINEAR_RESAMPLING (R217). -/
def execBilinearResampling (t core : Nat) (s : State) : Host.Outcome State Fault Refusal :=
  issue core [] (isEdge 3) poolTensors (poolWork bilinearAt) (s.arrive t)

end Sys2Proof.Machine
end

