-- ==== Sys2Proof/Machine/PlanCheck.lean ====
section
/-! DEFINITION. Plan-load admission, its frame (R33, R34): the plan header and section table (R385), the checks of Table
1.4, and the checks of chapter 2 on command lists, descriptors and events (R51 to R68, Table 2.16). -/

namespace Sys2Proof.Machine

/-! ### The view of a plan -/

/-- What plan-load admission knows beside the plan: the running firmware image and the layout of the plan image. -/
structure LoadContext where
  firmware : Bytes
  layout   : Layout
deriving DecidableEq, Repr

/-- One path of one position of a ring variant. -/
structure PathKey where
  variant  : Nat
  position : Nat
  path     : Nat
deriving DecidableEq, Repr

/-- A command in its list. -/
structure Spot where
  core  : Nat
  place : Nat
  cmd   : Bytes
deriving DecidableEq, Repr

/-- A list without repeats, first occurrences kept. -/
def distinct (l : List Nat) : List Nat := l.foldl (fun acc x => if acc.contains x then acc else acc ++ [x]) []

/-- Whether no number occurs twice. -/
def noRepeat (l : List Nat) : Bool := (distinct l).length == l.length

/-- Ring variants that a plan has (R385). -/
def variantsOf (p : Plan) : List Nat := ((List.range 16).map (· + 1)).filter (variantExists p)

/-- The path numbers that a plan names in command lists. -/
def pathNumbers (p : Plan) : List Nat := distinct ((p.sections.filter (·.type == 0x01)).map (·.index))

/-- Every path of every position of every variant. -/
def pathKeys (p : Plan) : List PathKey :=
  (variantsOf p).flatMap fun v => (List.range v).flatMap fun pos =>
    ((pathNumbers p).filter fun i => (findSection p 0x01 v pos i).isSome).map fun i => ⟨v, pos, i⟩

/-- A path seen as if it ran: the tables, tensors and lists of a plan through the operations of the running job. -/
def viewOf (cx : LoadContext) (p : Plan) (k : PathKey) : State :=
  { State.reset with
    dawn := { plans := [⟨p, false, 0⟩], firmware := cx.firmware, layout := cx.layout },
    job := { variant := k.variant, position := k.position, path := k.path } }

/-- The lists of a path, one per core. -/
def listsOf (p : Plan) (k : PathKey) : List (List Bytes) :=
  (List.range 64).map (commandList p k.variant k.position k.path)

/-- Every command of a path. -/
def spotsOf (p : Plan) (k : PathKey) : List Spot :=
  (listsOf p k).zipIdx.flatMap fun l => l.1.zipIdx.map fun c => ⟨l.2, c.2, c.1⟩

/-- Whether every path of a plan passes a check on its view and its commands. -/
def everyPath (cx : LoadContext) (p : Plan) (ok : State → List Spot → Bool) : Bool :=
  (pathKeys p).all fun k => ok (viewOf cx p k) (spotsOf p k)

/-- Whether every command of a plan passes a check. -/
def everyCommand (cx : LoadContext) (p : Plan) (ok : State → Bytes → Bool) : Bool :=
  everyPath cx p fun v spots => spots.all fun x => ok v x.cmd

/-! ### Header and section table (0x8205, R385) -/

/-- Section types of Table 14.12, and those keyed by VARIANT, POSITION and INDEX. -/
def knownSection (t : Nat) : Bool := 1 ≤ t && t ≤ 0x11

/-- Offset and length of section entry i of a plan's bytes. -/
def sectionRange (raw : Bytes) (i : Nat) : Nat × Nat := (le (sectionEntry raw i) 8 4, le (sectionEntry raw i) 12 4)

/-- The key of section entry i. -/
def sectionKey (raw : Bytes) (i : Nat) : Nat × Nat × Nat × Nat :=
  let e := sectionEntry raw i
  (le e 0 2, byteAt e 2, byteAt e 4, le e 6 2)

/-- Whether the reserved fields of the header are zero and its fields hold values of Table 14.10. -/
def headerForm (raw : Bytes) : Bool :=
  raw.take 4 == ascii "A7PL" && 1 ≤ planSectionCount raw && planSectionCount raw ≤ 1024
    && bits (byteAt raw 16) 4 4 == 0 && byteAt raw 22 ≤ 1 && byteAt raw 23 < 4 && zeroBytes raw 92 36

/-- Whether one section entry is well formed: known, nothing reserved set, aligned, inside the plan. -/
def sectionForm (raw : Bytes) (i : Nat) : Bool :=
  let e := sectionEntry raw i
  let r := sectionRange raw i
  knownSection (le e 0 2) && byteAt e 2 ≤ 16 && byteAt e 3 == 0 && (byteAt e 4 < 16 || byteAt e 4 == 0xFF)
    && byteAt e 5 == 0 && r.1 % 16 == 0 && r.1 + r.2 ≤ raw.length

/-- Whether the sections lie apart from each other, the header and the section table. -/
def sectionsApart (raw : Bytes) : Bool :=
  let n := planSectionCount raw
  rangesApart ((0, 128 + 16 * n) :: ((List.range n).map (sectionRange raw)).filter (·.2 != 0))

/-- Whether no two sections have the same key. -/
def keysApart (raw : Bytes) : Bool :=
  let ks := (List.range (planSectionCount raw)).map (sectionKey raw)
  (List.range ks.length).all fun i => !(ks.take i).contains (ks.getD i (0, 0, 0, 0))

/-- Whether a section of a type exists for a variant. -/
def hasFor (p : Plan) (type v : Nat) : Bool := (findSection p type v 0xFF 0).isSome

/-- Whether a section of a type exists. -/
def hasSection (p : Plan) (type : Nat) : Bool := p.sections.any (·.type == type)

/-- Whether a command names an element program. -/
def namesProgram (c : Bytes) : Bool := match cmdOpcode c with
  | 0x01 => named c 26 || named c 28
  | 0x02 => named c 26 || named c 28
  | 0x03 => named c 34 || named c 36
  | 0x04 => named c 16
  | 0x07 => named c 28
  | 0x0D => named c 28
  | _ => false

/-- Whether an element program holds an instruction with one of some opcodes. -/
def anyProgram (p : Plan) (ops : List Nat) : Bool :=
  (List.range (tableCount p 0x03 272)).any fun i => (progInstrs (programAt p i)).any fun w => ops.contains (insOp w)

/-- Whether the sections that Table 14.12 requires are present; the default conditioning has a code of its own. Every
variant that a command list names has path 0 for each of its positions, and there is at least one. -/
def sectionsPresent (p : Plan) : Bool :=
  let vs := variantsOf p
  let cmds := (pathKeys p).flatMap fun k => (spotsOf p k).map (·.cmd)
  !vs.isEmpty
    && (p.sections.all fun s => s.type != 0x01 || s.variant == 0 || vs.contains s.variant)
    && vs.all (fun v => hasFor p 0x02 v && hasFor p 0x0D v && hasFor p 0x10 v && (v == 1 || hasFor p 0x0C v))
    && (findSection p 0x07 0 0xFF 0).isSome && hasSection p 0x09 && hasSection p 0x0F
    && (planDirCount p == 0 || hasSection p 0x0A)
    && (!cmds.any namesProgram || hasSection p 0x03)
    && (!anyProgram p [0x38, 0x39] || hasSection p 0x04)
    && (!(anyProgram p [0x30] || cmds.any fun c => cmdOpcode c == 0x0F) || hasSection p 0x05)
    && (!(cmds.any fun c => cmdOpcode c == 0x01 && named c 30) || hasSection p 0x06)
    && (!anyProgram p [0x29, 0x2A] || hasSection p 0x08)

/-- Whether the header and the section table of a plan are valid (0x8205). -/
def planFormOk (raw : Bytes) : Bool :=
  headerForm raw && (List.range (planSectionCount raw)).all (sectionForm raw) && sectionsApart raw && keysApart raw
    && sectionsPresent (parsePlan raw)

/-! ### Table 1.4 -/

/-- Source, period and divider satisfy R13 and R14 (0x1002). The limits 1/120 s and 1/12 s round to 8,333,333 ns and
83,333,333 ns; for a word clock the exact D / f_wc is compared. -/
def tickOk (p : Plan) : Bool := match planSource p with
  | 2 => match planClockHz p with
    | some f =>
      400 ≤ planDivider p && planDivider p ≤ 16000 && f ≤ 120 * planDivider p && 12 * planDivider p ≤ f
        && planPeriodNs p == (2 * (planDivider p * 1000000000) + f) / (2 * f)
    | none => false
  | 3 => false
  | _ => planDivider p == 0 && 8333333 ≤ planPeriodNs p && planPeriodNs p ≤ 83333333

/-- N and P satisfy R25 (0x1003). -/
def depthOk (p : Plan) : Bool :=
  1 ≤ planN p && planN p ≤ 1024 && 1 ≤ planP p && planP p ≤ 8 && planN p % planP p == 0

/-- The index of a list that an ALT_LIST names exists for the same variant and position (0x100A). -/
def altListsOk (cx : LoadContext) (p : Plan) : Bool :=
  everyCommand cx p fun v c =>
    cmdAltList c == 0 || (findSection p 0x01 v.job.variant v.job.position (cmdAltList c)).isSome

/-- Every command list names each core once, in its 64 pairs, and lies inside its section (0x1009). -/
def coresOk (p : Plan) : Bool :=
  p.sections.all fun s => s.type != 0x01 || (512 ≤ s.content.length && (List.range 64).all fun core =>
    let n := le s.content (8 * core + 4) 4
    n == 0 || le s.content (8 * core) 4 + 64 * n ≤ s.content.length)

/-! ### Lists and headers (R51, R56 to R59, R66) -/

/-- No list holds more than 16,384 commands (0x1709). -/
def listLengthOk (cx : LoadContext) (p : Plan) : Bool :=
  everyPath cx p fun v _ => (List.range 64).all fun core => (v.list core).length ≤ 16384

/-- CMD_INDEX is unique in a tick and strictly rises along each list (0x1701). -/
def indexOk (cx : LoadContext) (p : Plan) : Bool :=
  everyPath cx p fun v spots =>
    noRepeat (spots.map fun x => cmdIndex x.cmd)
      && (List.range 64).all fun core =>
        let l := (v.list core).map cmdIndex
        (l.zip (l.drop 1)).all fun q => decide (q.1 < q.2)

/-- Whether a command is one of the sequencer itself. -/
def isControl (c : Bytes) : Bool := [0x09, 0x0A, 0x0B].contains (cmdOpcode c)

/-- Whether a command neither has an unknown opcode nor a reserved flag, and a control command has COMMIT_ON_FINISH and
no slots (0x1706). -/
def headOk (c : Bytes) : Bool :=
  1 ≤ cmdOpcode c && cmdOpcode c ≤ 0x0F && cmdFlags c < 8
    && (!isControl c || (cmdCommitOnFinish c && cmdAccSlots c == 0))

/-- No DEADLINE is beyond 0.94 × Tp (0x170B). -/
def deadlineOk (p : Plan) (c : Bytes) : Bool := cmdDeadline c * us 2 * 100 ≤ 94 * planTp p

/-- The place of the COMMIT that covers a command of a core's list: the first later one whose range holds it. -/
def coveringCommit (l : List Bytes) (place : Nat) : Option Nat :=
  let idx := cmdIndex (l.getD place [])
  (List.range l.length).find? fun q =>
    place < q && cmdOpcode (l.getD q []) == 0x0B && cmdFirst (l.getD q []) ≤ idx && idx ≤ cmdLast (l.getD q [])

/-- Whether the COMMIT at a place has a range in order that precedes it in the list. -/
def commitRangeOk (l : List Bytes) (q : Nat) : Bool :=
  let c := l.getD q []
  cmdFirst c ≤ cmdLast c && (List.range l.length).all fun i =>
    !(cmdFirst c ≤ cmdIndex (l.getD i []) && cmdIndex (l.getD i []) ≤ cmdLast c) || i < q

/-- Every COMMIT has a valid range and every command with COMMIT_ON_FINISH = 0 a later COMMIT that covers it (0x170D). -/
def commitsOk (cx : LoadContext) (p : Plan) : Bool :=
  everyPath cx p fun v _ => (List.range 64).all fun core =>
    let l := v.list core
    (List.range l.length).all fun i =>
      let c := l.getD i []
      if cmdOpcode c == 0x0B then commitRangeOk l i
      else cmdCommitOnFinish c || (coveringCommit l i).isSome

/-! ### Events (R62 to R64) -/

/-- Whether an event number names no event or one of Table 2.10. -/
def eventNumberOk (ev : Nat) : Bool := ev < 0x4000

/-- The events that a command signals. -/
def signalsOf (c : Bytes) : List Nat :=
  (cmdSignalEvent c :: (if cmdOpcode c == 0x0A then cmdEvents c else [])).filter (· != 0)

/-- The events that a WAIT completes on. -/
def listedWaits (c : Bytes) : List Nat := if cmdOpcode c == 0x09 then cmdEvents c else []

/-- Every event number is one of Table 2.10 (0x1703). -/
def eventNumbersOk (cx : LoadContext) (p : Plan) : Bool :=
  (everyCommand cx p fun _ c => eventNumberOk (cmdWaitEvent c) && (signalsOf c).all eventNumberOk
    && (listedWaits c).all eventNumberOk)
  && p.sections.all fun s => s.type != 0x07 || (List.range (s.content.length / 4)).all fun i =>
    let e := bits (le s.content (4 * i) 4) 0 16
    e != 0 && eventNumberOk e

/-- How many signals a path counts for an event of a scope instance. -/
def signalCount (spots : List Spot) (ev scope : Nat) : Nat :=
  spots.foldl (fun n x => n + ((signalsOf x.cmd).filter fun e => e == ev && eventScope e x.core == scope).length) 0

/-- For every path, the signals of each event equal its target, which is 1 to 64 (0x1708). -/
def signalsOk (cx : LoadContext) (p : Plan) : Bool :=
  everyPath cx p fun v spots =>
    (spots.all fun x => (signalsOf x.cmd).all fun ev =>
      signalCount spots ev (eventScope ev x.core) == eventTarget p v.job.path ev (eventScope ev x.core))
    && (let c := (findSection p 0x07 0 0xFF v.job.path).getD []
        (List.range (c.length / 4)).all fun i =>
          let e := le c (4 * i) 4
          let n := bits e 16 8
          1 ≤ n && n ≤ 64 && signalCount spots (bits e 0 16) (bits e 24 6) == n)

/-! ### What precedes what (R53, R54, R62, R66, R67)

Every command has three moments: issue (0), finish (1) and commit (2). Each moment waits for others whatever the
timing; a path can deadlock just when these waits form a cycle. -/

/-- A moment of a command: core, place, and which of the three. -/
abbrev Moment := Nat × Nat × Nat

/-- The lists of a path with its commands, ready for the analysis of order. -/
structure PathView where
  view  : State
  spots : List Spot
deriving DecidableEq, Repr

/-- The command at a place. -/
def PathView.cmd (w : PathView) (core place : Nat) : Bytes :=
  ((w.spots.find? fun x => x.core == core && x.place == place).map (·.cmd)).getD []

/-- The commands of a core before a place. -/
def PathView.before (w : PathView) (core place : Nat) : List Spot :=
  w.spots.filter fun x => x.core == core && x.place < place

/-- Commits of every command that signals an event as a core sees it. -/
def PathView.signallers (w : PathView) (ev core : Nat) : List Moment :=
  if ev == 0 then [] else
    (w.spots.filter fun x => (signalsOf x.cmd).any fun e => e == ev && eventScope e x.core == eventScope ev core).map
      fun x => (x.core, x.place, 2)

/-- The moments that a moment waits for: through the lists and events (R53, R62, R66), and where asked through engine classes and
slots too (R53, R54). -/
def PathView.waitsFor (w : PathView) (engines : Bool) (m : Moment) : List Moment :=
  let core := m.1
  let place := m.2.1
  let c := w.cmd core place
  let earlier := w.before core place
  match m.2.2 with
  | 0 =>
    (if place == 0 then [] else [(core, place - 1, 0)])
      ++ w.signallers (cmdWaitEvent c) core
      ++ (if engines then
        ((earlier.filter fun x => shareClass w.view x.cmd c).map fun x => (core, x.place, 1))
          ++ (earlier.filter fun x => ownSlots w.view < cmdAccSlots x.cmd + cmdAccSlots c).map fun x => (core, x.place, 2)
        else [])
  | 1 =>
    (core, place, 0) :: (match cmdOpcode c with
      | 0x09 => (listedWaits c).flatMap fun ev => w.signallers ev core
      | 0x0A => earlier.map fun x => (core, x.place, 2)
      | 0x0B => (earlier.filter fun x => cmdFirst c ≤ cmdIndex x.cmd && cmdIndex x.cmd ≤ cmdLast c).map fun x =>
        (core, x.place, 1)
      | _ => [])
  | _ =>
    (core, place, 1) :: (if cmdCommitOnFinish c then [] else
      (((w.spots.filter fun x => x.core == core && place < x.place && cmdOpcode x.cmd == 0x0B
          && cmdFirst x.cmd ≤ cmdIndex c && cmdIndex c ≤ cmdLast x.cmd).head?).map fun x => (core, x.place, 1)).toList)

/-- One round of reaching: moments all of whose waits are reached. -/
def PathView.reachRound (w : PathView) (all done : List Moment) : List Moment :=
  done ++ all.filter fun m => !done.contains m && (w.waitsFor true m).all done.contains

/-- Rounds of reaching, up to a bound. -/
def PathView.reachFuel (w : PathView) (all : List Moment) : Nat → List Moment → List Moment
  | 0, done => done
  | fuel + 1, done => w.reachFuel all fuel (w.reachRound all done)

/-- Every moment of a path. -/
def PathView.moments (w : PathView) : List Moment := w.spots.flatMap fun x => [0, 1, 2].map fun k => (x.core, x.place, k)

/-- Whether an event that some command of the path waits on is signalled at all. -/
def PathView.eventsSignalled (w : PathView) : Bool :=
  w.spots.all fun x => ((cmdWaitEvent x.cmd :: listedWaits x.cmd).filter (· != 0)).all fun ev =>
    !(w.signallers ev x.core).isEmpty

/-- Every command of a path can be reached: no wait is never satisfied (0x170C). -/
def waitsOk (cx : LoadContext) (p : Plan) : Bool :=
  everyPath cx p fun v spots =>
    let w : PathView := ⟨v, spots⟩
    w.eventsSignalled && (w.reachFuel w.moments (w.moments.length + 1) []).length == w.moments.length

/-- One round of going back: what the moments found wait for. -/
def PathView.backFuel (w : PathView) (engines : Bool) : Nat → List Moment → List Moment → List Moment
  | 0, _, found => found
  | fuel + 1, front, found =>
    let next := (front.flatMap (w.waitsFor engines)).filter fun m => !found.contains m
    if next.isEmpty then found else w.backFuel engines fuel next (found ++ next)

/-- The moments that must come before a moment, through lists and events, and where asked through engines and slots. -/
def PathView.past (w : PathView) (engines : Bool) (m : Moment) : List Moment :=
  w.backFuel engines (3 * w.spots.length + 1) [m] []

/-- Whether two commands can be in flight at the same time. A command counts as in flight from its issue to its commit: DEDUCED,
R53 has it in flight while it holds an engine class, and a finished command is still one that a fault may kill and run again
(R55), which reads its inputs anew (log 52). -/
def PathView.together (w : PathView) (a b : Spot) : Bool :=
  !(w.past true (a.core, a.place, 0)).contains (b.core, b.place, 2)
    && !(w.past true (b.core, b.place, 0)).contains (a.core, a.place, 2)

/-- Whether a command waits on an event that the commit of another sets. -/
def waitsOn (a b : Spot) : Bool :=
  (cmdWaitEvent a.cmd :: listedWaits a.cmd).any fun ev =>
    ev != 0 && (signalsOf b.cmd).any fun e => e == ev && eventScope e b.core == eventScope ev a.core

/-! ### Regions (R68) -/

/-- A tensor as a command of a core reaches it: the memory that only the core sees is told apart by core. -/
structure Region where
  tensor : Tensor
  owner  : Nat
deriving DecidableEq, Repr

/-- A region of a command of a core; scratchpad, accumulator and halo belong to the core. -/
def regionOf (v : State) (core i : Nat) : Region :=
  let t := v.tensor i
  ⟨t, if t.space == 2 || t.space == 3 || t.space == 4 then core + 1 else 0⟩

/-- The byte ranges of a tensor: its elements, and its block scales. -/
def Tensor.ranges (t : Tensor) : List (Nat × Nat) :=
  t.indices.flatMap fun ix =>
    let (a, b, w) := elementPlace t.fmt t.base (t.offset ix)
    let n := if t.fmt == .u10p then 4 else (b + w + 7) / 8
    (a, n) :: (if t.fmt.blockScaled && ix.headD 0 % 32 == 0 then [(t.scaleAddr ix, 1)] else [])

/-- Whether two regions share a byte. -/
def Region.meets (a b : Region) : Bool :=
  a.tensor.space == b.tensor.space && a.owner == b.owner
    && rangesOverlap (a.tensor.base, a.tensor.extent) (b.tensor.base, b.tensor.extent)
    && a.tensor.ranges.any fun r => b.tensor.ranges.any fun q => rangesOverlap r q

/-- Tensor-table indices that a command writes. -/
def outputTensors (c : Bytes) : List Nat := match cmdOpcode c with
  | 0x01 => tensorFields [22] c
  | 0x02 => tensorFields [22] c
  | 0x03 => match attnOperation c with
    | 0 => tensorFields [22, 24] c
    | 2 => tensorFields [22, 24] c
    | _ => tensorFields [22] c
  | 0x04 => tensorFields [20] c
  | 0x05 => match moveOp c with
    | 0x00 => tensorFields [18] c
    | 0x01 => tensorFields [18] c
    | 0x18 => tensorFields [24] c
    | 0x19 => tensorFields [24] c
    | 0x21 => tensorFields [18] c
    | _ => []
  | 0x06 => tensorFields [20] c
  | 0x07 => tensorFields [18, 22] c
  | 0x08 => (List.range (byteAt c 20)).flatMap fun i => tensorFields [26 + 4 * i] c
  | 0x0D => tensorFields [22] c
  | 0x0E => tensorFields [18, 20] c
  | 0x0F => tensorFields [16] c
  | _ => []

/-- Every tensor that a command names. -/
def allTensors (v : State) (c : Bytes) : List Nat := match cmdOpcode c with
  | 0x01 => mmTensors v c
  | 0x02 => convTensors v c
  | 0x03 => attnTensors v c
  | 0x04 => vecTensors v c
  | 0x05 => moveTensors v c
  | 0x06 => tensorFields [16, 18, 20] c
  | 0x07 => collTensors v c
  | 0x08 => collTensors v c
  | 0x0C => if treqIndirect c then tensorFields [26] c else []
  | 0x0D => if byteAt c 24 % 4 == 0 then convTensors v c else poolTensors v c
  | 0x0E => tensorFields [16, 18, 20] c
  | 0x0F => tensorFields [16] c
  | _ => []

/-- Tensor-table indices that a command reads: each that it names once more than as an output, so that one that it both reads
and writes is among them. -/
def inputTensors (v : State) (c : Bytes) : List Nat := (outputTensors c).foldl List.erase (allTensors v c)

/-- Whether a command overwrites what it, or a command that can be in flight beside it, reads. -/
def overlapsReader (v : State) (w : PathView) (a b : Spot) : Bool :=
  let hit := (outputTensors a.cmd).any fun i => (inputTensors v b.cmd).any fun j =>
    (regionOf v a.core i).meets (regionOf v b.core j)
  hit && (a == b || (!waitsOn b a && w.together a b))

/-- Output regions do not overlap what can be read at the same time (0x1704). -/
def regionsOk (cx : LoadContext) (p : Plan) : Bool :=
  everyPath cx p fun v spots =>
    let w : PathView := ⟨v, spots⟩
    spots.all fun a => spots.all fun b => !overlapsReader v w a b

/-- At most 32 commands of a core are finished and uncommitted when a command finishes (0x1705). -/
def stagedOk (cx : LoadContext) (p : Plan) : Bool :=
  everyPath cx p fun v spots =>
    let w : PathView := ⟨v, spots⟩
    spots.all fun a =>
      let past := w.past true (a.core, a.place, 1)
      ((w.before a.core (a.place + 1)).filter fun x =>
        !cmdCommitOnFinish x.cmd && !past.contains (x.core, x.place, 2)).length ≤ 32

/-! ### Descriptors (R60, R61) -/

/-- The stride fields that are in use: those of dimensions 1 to RANK - 1. -/
def usedStrides (d : Bytes) : List Nat :=
  let rank := bits (byteAt d 6) 4 3
  let st := le d 18 14
  (List.range (min 4 (rank - 1))).map fun j => bits st (28 * j) 28

/-- Whether the fields of dimensions at or beyond RANK are zero; SCALE_OFF takes the last stride field of a block-scaled
format. -/
def unusedZero (d : Bytes) (blockScaled : Bool) : Bool :=
  let rank := bits (byteAt d 6) 4 3
  let st := le d 18 14
  (List.range 5).all fun j => j < rank ||
    (le d (8 + 2 * j) 2 == 0 && (j == 0 || (blockScaled && j == 4) || bits st (28 * (j - 1)) 28 == 0))

/-- Whether a descriptor meets R60 and R61. -/
def descriptorOk (d : Bytes) : Bool :=
  match Fmt.ofCode (bits (byteAt d 6) 0 4) with
  | none => false
  | some f =>
    let t := tensorOf d
    let rank := t.rank
    let st := usedStrides d
    t.space < 7 && 1 ≤ rank && rank ≤ (if f.blockScaled then 4 else 5)
      && unusedZero d f.blockScaled
      && (f != .f4s || st.all (· % 2 == 0)) && (f != .u10p || (st.all (· % 3 == 0) && t.base % 4 == 0))
      && (!f.blockScaled || st.all (· % 32 == 0))
      && (f == .f4s || f == .u10p || t.base % (f.storageBits / 8) == 0)
      && (if t.space == 1 then t.base / 0x20000000 < 8 && t.base % 0x20000000 + t.extent ≤ 0x4000000 else t.inside)

/-- An accumulator tensor lies inside the command's own slots. -/
def ordinalsOk (v : State) (c : Bytes) : Bool :=
  (allTensors v c).all fun i =>
    let t := v.tensor i
    t.space != 3 || t.base + t.extent ≤ cmdAccSlots c * 65536

/-- Every tensor that a command names is in the table. -/
def indicesOk (p : Plan) (v : State) (c : Bytes) : Bool :=
  let n := ((findSection p 0x02 v.job.variant 0xFF 0).getD []).length / 32
  (allTensors v c).all (· < n)

/-- No T0 descriptor reaches the function banks (0x1303, R160). -/
def banksOk (p : Plan) : Bool :=
  p.sections.all fun s => s.type != 0x02 || (List.range (s.content.length / 32)).all fun i =>
    let t := tensorOf (slice s.content (32 * i) 32)
    t.space != 2 || t.base + t.extent ≤ 0x3A0000

end Sys2Proof.Machine
end

