-- ==== Sys2Proof/Machine/PlanCompute.lean ====
section
/-! DEFINITION. Plan-load admission of products, element programs, statistics, tables and random draws: the checks of
chapters 3 to 7 (Tables 3.12, 4.13, 5.11, 6.12, 7.10). -/

namespace Sys2Proof.Machine

/-- Whether a tensor lies in one of some spaces: 0 T2, 1 T1, 2 T0, 5 T4, 6 resident. -/
def Tensor.inSpaces (t : Tensor) (l : List Nat) : Bool := l.contains t.space

/-- The extents of dimensions from j on are 1. -/
def Tensor.flatFrom (t : Tensor) (j : Nat) : Bool := (t.dims.drop j).all (· == 1)

/-- Whether an FP32 field is finite (R75). -/
def finite32 (w : Word) : Bool := w.toNat / 0x800000 % 256 != 255

/-! ### Products (R101, R107, R110, R117) -/

/-- Whether two operand formats form a pair of Table 4.1. -/
def pairOk (a b : Fmt) : Bool := match a, b with
  | .f4s, .f4s => true
  | .f8, .f8 => true | .f8, .f8s => true | .f8s, .f8 => true | .f8s, .f8s => true
  | .int8, .int8 => true | .bf16, .bf16 => true | .fp16, .fp16 => true | .f19, .f19 => true
  | _, _ => false

/-- A product command, as the rules of chapter 4 see it. -/
structure Product where
  a        : Tensor
  b        : Tensor
  c        : Option Tensor
  d        : Tensor
  /-- n, the blocks of the whole reduction. -/
  blocks   : Nat
  lo       : Nat
  hi       : Nat
  dbuf     : Bool
  dsr      : Bool
  epilogue : Bool
deriving DecidableEq, Repr

/-- The product of a TILE_MM. -/
def mmProduct (v : State) (c : Bytes) : Product :=
  let a := v.tensor (le c 16 2)
  let b := v.tensor (le c 18 2)
  let n := (if mmBLayout c then b.dim 0 else b.dim 1) / blockSize a.fmt
  ⟨a, b, optTensor v (le c 20 2), v.tensor (le c 22 2), n, le c 32 2, partHi c 34 n, bitAt (byteAt c 24) 5, roundDsr c 25,
    named c 28⟩

/-- The product of a TILE_CONV or an EDGE_CONV convolution. -/
def convProduct (v : State) (c : Bytes) : Product :=
  let x := v.tensor (le c 16 2)
  let n := (geometryOf c).logicalK (x.dim 0) (blockSize x.fmt) / blockSize x.fmt
  ⟨x, v.tensor (le c 18 2), optTensor v (le c 20 2), v.tensor (le c 22 2), n, le c 48 2, partHi c 50 n,
    bitAt (byteAt c 24) 4, roundDsr c 25, named c 28⟩

/-- The product of a command, if it is one. -/
def productOf (v : State) (c : Bytes) : Option Product := match cmdOpcode c with
  | 0x01 => some (mmProduct v c)
  | 0x02 => some (convProduct v c)
  | 0x0D => if edgeFunction c == 0 then some (convProduct v c) else none
  | _ => none

/-- Whether the formats of C and D are permitted (Table 4.6); extra formats are those of the edge engine (R214). -/
def Product.cdOk (x : Product) (extra : List Fmt) : Bool :=
  if x.d.fmt == .int32 then
    x.a.fmt == .int8 && (x.c.map (·.fmt)).getD .int32 == .int32 && !x.epilogue && !x.dsr
  else
    ([Fmt.fp32, .bf16, .fp16, .f8, .f8s, .f4s, .int8] ++ extra).contains x.d.fmt
      && (match x.c with | none => true | some t => ([Fmt.fp32, .bf16, .fp16] ++ extra).contains t.fmt)

/-- Whether a product is a part (R117). -/
def Product.isPart (x : Product) : Bool := !(x.lo == 0 && x.hi == x.blocks)

/-- Whether a part keeps to R117; its range apart. -/
def Product.partOk (x : Product) : Bool :=
  !x.isPart || (x.c.isNone && !x.epilogue && x.d.fmt == .fp32 && !x.dsr)

/-- Whether a part's range is a node of tree(0, n). -/
def Product.nodeOk (x : Product) : Bool := !(x.lo < x.hi) || isNode x.blocks x.lo x.hi

/-- The slot need of n' blocks (R110). -/
def slotNeed (n : Nat) (dbuf : Bool) : Nat := (ceilLog2 n + 1) * (if dbuf then 2 else 1)

/-- The slot need of a matrix command; none for another. -/
def needOf (v : State) (c : Bytes) : Option Nat := match cmdOpcode c with
  | 0x01 => let x := mmProduct v c; some (slotNeed (x.hi - x.lo) x.dbuf)
  | 0x02 => let x := convProduct v c; some (slotNeed (x.hi - x.lo) x.dbuf)
  | 0x03 =>
    let n := if attnOperation c == 2 then attnPartNo c else attnHi c - attnLo c
    some (slotNeed n (bitAt (byteAt c 32) 4))
  | _ => none

/-- No matrix command has fewer slots than its need (0x1103, R111). A need above 16 gets 0x1104 too, as Table 4.8 says for 129 to
512 blocks with DBUF = 1: DEDUCED, R33 reports every check that fails (log 24). -/
def needOk (v : State) (c : Bytes) : Bool := (needOf v c).all (· ≤ cmdAccSlots c)

/-- The slot peak of a core's list never passes 16 (R112). -/
def slotPeakOk (reserve : Nat) (l : List Bytes) : Bool :=
  (List.range l.length).all fun i =>
    let held := (List.range i).filter fun j =>
      !cmdCommitOnFinish (l.getD j []) && (match coveringCommit l j with | some q => i ≤ q | none => true)
    cmdAccSlots (l.getD i []) + (held.map fun j => cmdAccSlots (l.getD j [])).foldl (· + ·) 0 + reserve ≤ 16

/-- No command has or needs more than 16 slots (R111, Table 4.8), no list a peak above 16, and the plan is compiled for 16
(0x1104). -/
def slotsOk (cx : LoadContext) (p : Plan) : Bool :=
  planAccSlots p == 16 && everyCommand cx p (fun v c => cmdAccSlots c ≤ 16 && (needOf v c).all (· ≤ 16))
    && everyPath cx p fun v _ => (List.range 64).all fun core => slotPeakOk (planCirrusReserve p) (v.list core)

/-- No Cirrus-eligible command has more slots than the partner core's reserve (0x1106). -/
def eligibleOk (p : Plan) (c : Bytes) : Bool := !cmdEligible c || cmdAccSlots c ≤ planCirrusReserve p

/-! ### TILE_MM (R101 to R108, R118) -/

/-- Operand pair and formats of C and D (0x1101). -/
def mmFormatsOk (v : State) (c : Bytes) : Bool :=
  cmdOpcode c != 0x01 || (let x := mmProduct v c; pairOk x.a.fmt x.b.fmt && x.cdOk [])

/-- An extent of G or 1. -/
def batchOk (g n : Nat) : Bool := n == g || n == 1

/-- The shapes of Table 4.7, and block-scaled operands with K along dimension 0 (0x1102). With GATHER, where G is 1, that holds
of A_TENSOR as it does of A; a source of the gather table may have batches beside the first, whose rows no entry names (DEDUCED,
log 24: R118 checks the format and the K extent of a source, and the row in it). -/
def mmShapeOk (v : State) (c : Bytes) : Bool :=
  cmdOpcode c != 0x01 ||
    (let x := mmProduct v c
     let b := blockSize x.a.fmt
     let gathered := named c 30
     let rows := gatherCount (gatherTable v.plan (le c 30 2))
     let kA := if mmALayout c then x.a.dim 1 else x.a.dim 0
     let mA := if mmALayout c then x.a.dim 0 else x.a.dim 1
     let kB := if mmBLayout c then x.b.dim 0 else x.b.dim 1
     let nB := if mmBLayout c then x.b.dim 1 else x.b.dim 0
     let m := x.d.dim 1
     let g := x.d.dim 2
     kA == kB && kA % b == 0 && nB % 128 == 0 && x.d.dim 0 == nB
       && (if gathered then m == rows && g == 1 && !mmALayout c else mA == m && m % 128 == 0)
       && x.d.flatFrom 3 && x.a.flatFrom 3 && x.b.flatFrom 3 && batchOk g (x.a.dim 2) && batchOk g (x.b.dim 2)
       && (match x.c with
           | none => true
           | some t => t.dim 0 == nB && t.dim 1 == m && batchOk g (t.dim 2) && t.flatFrom 3)
       && x.hi ≤ x.blocks
       && (!x.a.fmt.blockScaled || !mmALayout c) && (!x.b.fmt.blockScaled || mmBLayout c))

/-- The spaces of R106, and D apart from A, B, C and every other tensor that the command reads (0x1105). -/
def mmSpacesOk (v : State) (core : Nat) (c : Bytes) : Bool :=
  cmdOpcode c != 0x01 ||
    (let x := mmProduct v c
     x.a.inSpaces [1, 2] && x.b.inSpaces [1, 2] && x.d.inSpaces [0, 1, 2] && x.c.all (·.inSpaces [0, 1, 2])
       && ((mmTensors v c).erase (le c 22 2)).all fun i => !(regionOf v core (le c 22 2)).meets (regionOf v core i))

/-- The F19 bits, the reserved bits of ROUND and an empty range of a product (R105, R108). -/
def Product.roundOk (x : Product) (round : Nat) : Bool :=
  round < 8 && (!bitAt round 0 || x.a.fmt == .f19) && (!bitAt round 1 || x.b.fmt == .f19) && x.lo < x.hi

/-- MODE of a TILE_MM, and ROUND bits and parts of every product (0x1107). -/
def modeOk (v : State) (c : Bytes) : Bool := match productOf v c with
  | none => true
  | some x =>
    x.roundOk (byteAt c 25) && x.partOk
      && (cmdOpcode c != 0x01 || (!bitAt (byteAt c 24) 7 && byteAt c 24 % 4 != 3))

/-- The gather table of a gathered product (0x1108). -/
def gatherOk (v : State) (c : Bytes) : Bool :=
  cmdOpcode c != 0x01 || !named c 30 ||
    (let g := gatherTable v.plan (le c 30 2)
     let a := v.tensor (le c 16 2)
     let n := gatherCount g
     1 ≤ n && n ≤ 128 && 8 + 8 * n ≤ g.length && (List.range n).all fun i =>
       let e := gatherEntry g i
       let t := v.tensor e.1
       t.fmt == a.fmt && t.dim 0 == a.dim 0 && e.2 < t.dim 1 && t.inSpaces [1, 2])

/-! ### Element programs (R126 to R131) -/

/-- How many of the source fields SA, SB and SC an opcode reads; none for an opcode outside Table 5.4. -/
def sourceArity (op : Nat) : Option Nat :=
  if [0x30, 0x31, 0x39].contains op then some 0
  else if [0x01, 0x08, 0x09, 0x0D, 0x18, 0x19, 0x38, 0x3C, 0x3F].contains op || (0x20 ≤ op && op ≤ 0x2A) then some 1
  else if [0x02, 0x03, 0x04, 0x06, 0x07, 0x0C].contains op || (0x10 ≤ op && op ≤ 0x17) then some 2
  else if [0x05, 0x0A, 0x0B].contains op then some 3
  else none

/-- The source selectors that an instruction reads. -/
def sourcesRead (w : Nat) : List Nat := [insSa w, insSb w, insSc w].take ((sourceArity (insOp w)).getD 0)

/-- Whether a MOD is defined for an opcode (Table 5.4). -/
def modDefined (op mod : Nat) : Bool :=
  if 0x20 ≤ op && op ≤ 0x28 then builtinModValid (op - 0x20) mod
  else match op with
    | 0x0C => mod < 4 | 0x0D => mod < 4 | 0x16 => mod < 3 | 0x17 => mod < 4 | 0x19 => mod < 4
    | 0x30 => mod < 4 | 0x31 => mod < 5 | 0x39 => true | 0x3C => mod < 2 | 0x3F => mod < 2
    | _ => mod == 0

/-- Whether an opcode takes IMM as a parameter. -/
def immParameter (op : Nat) : Bool := [0x29, 0x2A, 0x30, 0x39, 0x3C].contains op

/-- Whether one instruction keeps to R130, after the temporaries written before it. -/
def instrOk (entry : Bytes) (written : List Nat) (w : Nat) : Bool :=
  let op := insOp w
  let used := sourcesRead w
  let fields := [insSa w, insSb w, insSc w]
  (match sourceArity op with
   | none => false
   | some n => ((fields.drop n).zipIdx).all fun q => q.1 == 0 || (op == 0x30 && n + q.2 == 0))
    && bits w 0 4 == 0 && modDefined op (insMod w)
    && used.all (fun s => s != 0xE && (8 ≤ s || written.contains s) && (s != 0xD || !immParameter op)
        && (s < 8 || 0xC ≤ s || progStream entry (s - 8) != 0xFFFF))
    && (op != 0x3C || (2 ≤ insFmt w && insFmt w ≤ 0xA))
    && (op != 0x38 || progStatOut entry != 0xFFFF) && (op != 0x39 || progStatIn entry != 0xFFFF)

/-- Whether an element program is valid (R130). -/
def programOk (entry : Bytes) : Bool :=
  let ws := progInstrs entry
  let n := progCount entry
  1 ≤ n && n ≤ 32 && byteAt entry 1 == 0 && zeroBytes entry 14 2 && zeroBytes entry (16 + 8 * n) (256 - 8 * n)
    && (ws.getLast?.map insOp) == some 0x3F && (ws.filter fun w => insOp w == 0x3F).length == 1
    && (ws.foldl (fun (acc : Bool × List Nat) w =>
        (acc.1 && instrOk entry acc.2 w,
          if [0x38, 0x3F].contains (insOp w) then acc.2 else insDst w :: acc.2)) (true, [])).1

/-- How a command runs a program: on its own, on an operand as it is read, or on its finished output. -/
inductive ProgRole where
  | run | prologue | epilogue
deriving DecidableEq, Repr

/-- One use of an element program by a command: its iteration space, the anchor of its draws (Table 7.4) and what its ST
writes to. -/
structure ProgUse where
  prog   : Nat
  role   : ProgRole
  dims   : List Nat
  anchor : Tensor
  target : Tensor
deriving DecidableEq, Repr

/-- The use of an attached program. -/
def attachedUse (role : ProgRole) (c : Bytes) (off : Nat) (t : Tensor) : List ProgUse :=
  if named c off then [⟨le c off 2, role, t.dims, t, t⟩] else []

/-- The uses of programs by a command (R134, R139, R140, R211, R238). -/
def usesOf (v : State) (c : Bytes) : List ProgUse := match cmdOpcode c with
  | 0x01 =>
    let g := gatherTable v.plan (le c 30 2)
    let ops := if mmProB c then [le c 18 2]
      else if named c 30 then distinct ((List.range (gatherCount g)).map fun i => (gatherEntry g i).1) else [le c 16 2]
    (ops.flatMap fun i => attachedUse .prologue c 26 (v.tensor i)) ++ attachedUse .epilogue c 28 (v.tensor (le c 22 2))
  | 0x02 => attachedUse .prologue c 26 (v.tensor (le c 16 2)) ++ attachedUse .epilogue c 28 (v.tensor (le c 22 2))
  | 0x0D => attachedUse .prologue c 26 (v.tensor (le c 16 2)) ++ attachedUse .epilogue c 28 (v.tensor (le c 22 2))
  | 0x03 => attachedUse .prologue c 34 (v.tensor (le c 16 2)) ++ attachedUse .epilogue c 36 (v.tensor (le c 22 2))
  | 0x04 =>
    let t := v.tensor (if vecOperation c == 2 then le c 18 2 else le c 20 2)
    [⟨le c 16 2, .run, t.dims, t, v.tensor (le c 20 2)⟩]
  | 0x07 => attachedUse .epilogue c 28 (v.tensor (le c 22 2))
  | _ => []

/-- The entry of a use. -/
def ProgUse.entry (u : ProgUse) (v : State) : Bytes := programAt v.plan u.prog

/-- The instructions of a use. -/
def ProgUse.instrs (u : ProgUse) (v : State) : List Nat := progInstrs (u.entry v)

/-- Every program of the table is valid, every one that a command names exists, and no ST takes INT32 into a
floating-point output (0x1201). -/
def programsOk (cx : LoadContext) (p : Plan) : Bool :=
  (List.range (tableCount p 0x03 272)).all (fun i => programOk (programAt p i))
    && everyCommand cx p fun v c => (usesOf v c).all fun u =>
      u.prog < tableCount p 0x03 272
        && (u.role == .prologue || !storesInt (u.entry v) || u.target.fmt.isInt)

/-! ### VEC_RUN and streams (R123, R125, R133 to R137, R140) -/

/-- Whether a stream has the extents of an iteration space or 1 (R123). -/
def extentsOk (dims : List Nat) (t : Tensor) : Bool := (List.range 5).all fun j => batchOk (dims.getD j 1) (t.dim j)

/-- The streams that a use binds. -/
def ProgUse.streams (u : ProgUse) (v : State) : List Tensor :=
  (((List.range 4).map (progStream (u.entry v))).filter (· != 0xFFFF)).map v.tensor

/-- Extents of streams, and the spaces and slots of a VEC_RUN (0x1202). -/
def vecStreamsOk (v : State) (c : Bytes) : Bool :=
  ((usesOf v c).all fun u => (u.streams v).all (extentsOk u.dims))
    && (cmdOpcode c != 0x04 ||
      (let out := v.tensor (le c 20 2)
       let inp := optTensor v (le c 18 2)
       cmdAccSlots c == 0 && out.inSpaces [1, 2] && inp.all (·.inSpaces [1, 2])
         && (usesOf v c).all (fun u =>
           (u.streams v).all (·.inSpaces [1, 2])
             && (inp.isSome || (u.instrs v).all fun w => !(sourcesRead w).contains 0xC)
             && (!vecSegmented c || progStream (u.entry v) 3 != 0xFFFF))
         && (if vecOperation c == 2 then
               (match inp with | none => false | some t => out.dim 0 == 1 && out.dims.drop 1 == t.dims.drop 1)
             else inp.all (extentsOk out.dims))))

/-- No prologue holds a special function, a STAT or an integer ST (0x1203). -/
def prologuesOk (v : State) (c : Bytes) : Bool :=
  (usesOf v c).all fun u => u.role != .prologue || (u.instrs v).all fun w =>
    !((0x20 ≤ insOp w && insOp w ≤ 0x2A) || insOp w == 0x38) && !(insOp w == 0x3F && bitAt (insMod w) 0)

/-- Whether a use contains an opcode. -/
def ProgUse.has (u : ProgUse) (v : State) (op : Nat) : Bool := (u.instrs v).any fun w => insOp w == op

/-- Whether a statistic entry is valid (R149): a known kind, a row length from 1 to 8,192 and slots that the cluster has. -/
def statEntryOk (e : Bytes) : Bool :=
  (StatKind.ofCode (bits (byteAt e 0) 0 4)).isSome && 1 ≤ statRowLen e && statRowLen e ≤ 8192
    && statSlot e + ceilDiv (statRows e) 128 ≤ 1024

/-- Whether the STAT of a use fits its entry (R151). DESIGN CHOICE (log 24): M × G are the rows of the command's own D, so
the worked example of the manual, where 64 commands of 128 rows build one entry of 8,192, gets 0x1204. -/
def statShapeOk (v : State) (c : Bytes) (u : ProgUse) : Bool :=
  let e := statAt v.plan (progStatOut (u.entry v))
  let rows := (u.dims.drop 1).foldl (· * ·) 1
  let len := u.dims.headD 1
  progStatOut (u.entry v) < tableCount v.plan 0x04 16 && rows == statRows e
    && (if u.role == .run then
          let stop := 128 * vecContrib c + len
          stop == statRowLen e || (stop < statRowLen e && len % 128 == 0)
        else len == statRowLen e)

/-- Whether every quantity that a use reads is one of its kind (R150). -/
def statReadsOk (v : State) (u : ProgUse) : Bool :=
  let e := statAt v.plan (progStatIn (u.entry v))
  progStatIn (u.entry v) < tableCount v.plan 0x04 16
    && (u.instrs v).all fun w => insOp w != 0x39 || (statKind e).provides (insMod w)

/-- Statistic entries, shapes and quantities (0x1204). -/
def statisticsOk (cx : LoadContext) (p : Plan) : Bool :=
  (List.range (tableCount p 0x04 16)).all (fun i => statEntryOk (statAt p i))
    && everyCommand cx p fun v c => (usesOf v c).all fun u =>
      (!u.has v 0x38 || statShapeOk v c u) && (!u.has v 0x39 || statReadsOk v u)

/-- No STAT in a SCAN or REDUCE, and no REDUCE with segments or EXCLUSIVE (0x1206). -/
def scansOk (v : State) (c : Bytes) : Bool :=
  cmdOpcode c != 0x04 || vecOperation c == 0 ||
    ((usesOf v c).all (fun u => !u.has v 0x38) && (vecOperation c != 2 || (!vecSegmented c && !vecExclusive c)))

/-- MODE and ROUND of a VEC_RUN (0x1209). -/
def vecModeOk (c : Bytes) : Bool :=
  cmdOpcode c != 0x04 ||
    (byteAt c 22 < 64 && byteAt c 23 < 2 && vecOperation c != 3 && vecKind c != 3
      && (vecOperation c != 0 || bits (byteAt c 22) 2 4 == 0))

/-! ### Rounds of ordered slots (R154, R256) -/

/-- What a command does to an ordered slot. -/
structure SlotUse where
  spot    : Spot
  cluster : Nat
  slot    : Nat
  /-- The contributor index; none for a read. -/
  index   : Option Nat
  parties : Nat
  /-- FSUM rather than RECORD. -/
  fsum    : Bool
deriving DecidableEq, Repr

/-- The slots of a statistic entry. -/
def statSlots (e : Bytes) : List Nat := (List.range (ceilDiv (statRows e) 128)).map (statSlot e + ·)

/-- The slots that one use of a program contributes to and reads. -/
def programSlots (v : State) (x : Spot) (u : ProgUse) : List SlotUse :=
  let out := statAt v.plan (progStatOut (u.entry v))
  let inp := statAt v.plan (progStatIn (u.entry v))
  let base := if u.role == .run then vecContrib x.cmd else 0
  (((u.instrs v).filter fun w => insOp w == 0x38).flatMap fun _ => (statSlots out).flatMap fun k =>
      (List.range (ceilDiv (u.dims.headD 1) 128)).map fun i =>
        ⟨x, statCluster out, k, some (base + i), statParties out, false⟩)
    ++ (if u.has v 0x39 then (statSlots inp).map fun k => ⟨x, statCluster inp, k, none, 0, false⟩ else [])

/-- The slots that a command uses. -/
def slotUses (v : State) (x : Spot) : List SlotUse :=
  let c := x.cmd
  ((usesOf v c).flatMap (programSlots v x))
    ++ (if isMove 0x20 c then [⟨x, moveCluster c, moveSlot c, some (moveContrib c), moveParties c, true⟩] else [])
    ++ (if isMove 0x21 c then [⟨x, moveCluster c, moveSlot c, none, 0, true⟩] else [])

/-- Whether a command issues only after events that the commit of another precedes (R154). -/
def PathView.commitsBefore (w : PathView) (a b : Spot) : Bool :=
  (w.past false (b.core, b.place, 0)).contains (a.core, a.place, 2)

/-- Whether the uses of one slot form rounds in order: every index contributes once per round, every reader comes after
all of its round, and the next round after every reader (0x1205). -/
def roundsOk (w : PathView) (uses : List SlotUse) : Bool :=
  let cs := uses.filter (·.index.isSome)
  let readers := uses.filter (·.index.isNone)
  let n := ((cs.head?).map (·.parties)).getD 0
  let before := fun (i : Nat) (x : Spot) => (cs.filter fun c => c.index == some i && w.commitsBefore c.spot x).length
  let round := fun (c : SlotUse) => before (c.index.getD 0) c.spot
  let rounds := (cs.filter fun c => c.index == some 0).length
  let readRound := fun (r : SlotUse) => before 0 r.spot
  (cs.all fun c => c.parties == n && (c.index.getD 0) < n)
    && (List.range n).all (fun i => ((cs.filter fun c => c.index == some i).map round).length == rounds
        && (List.range rounds).all fun q => ((cs.filter fun c => c.index == some i).map round).contains q)
    && readers.all (fun r => 1 ≤ readRound r && (List.range n).all fun i => before i r.spot == readRound r)
    && cs.all fun c => round c == 0 ||
      ((cs.filter fun d => round d + 1 == round c).all (fun d => w.commitsBefore d.spot c.spot)
        && (readers.filter fun r => readRound r == round c).all fun r => w.commitsBefore r.spot c.spot)

/-- Every ordered slot of every path is used in rounds (0x1205). -/
def slotRoundsOk (cx : LoadContext) (p : Plan) : Bool :=
  everyPath cx p fun v spots =>
    let w : PathView := ⟨v, spots⟩
    let uses := spots.flatMap (slotUses v)
    (uses.map fun u => (u.cluster, u.slot)).eraseDups.all fun k =>
      roundsOk w (uses.filter fun u => (u.cluster, u.slot) == k)

/-! ### Descriptors and staging queues (R60, R61, R68) -/

/-- The entries that a command of a core puts into its staging queue: atomics, contributions to ordered slots, a tier request. -/
def stagingCount (v : State) (core : Nat) (c : Bytes) : Nat :=
  let words := (v.tensor (le c 18 2)).count
  ((slotUses v ⟨core, 0, c⟩).filter (·.index.isSome)).length
    + (if cmdOpcode c == 0x0C then 1
       else if cmdOpcode c == 0x05 && 0x10 ≤ moveOp c && moveOp c ≤ 0x19 then (if moveWide c then words / 2 else words)
       else 0)

/-- The staging queue of no core can overflow: a command with its own entries and those of the earlier commands whose
COMMIT stands at or after it. -/
def stagingOk (v : State) (core : Nat) : Bool :=
  let l := v.list core
  (List.range l.length).all fun i =>
    let held := (List.range i).filter fun j =>
      !cmdCommitOnFinish (l.getD j []) && (match coveringCommit l j with | some q => i ≤ q | none => true)
    stagingCount v core (l.getD i []) + (held.map fun j => stagingCount v core (l.getD j [])).foldl (· + ·) 0 ≤ 4096

/-- Every descriptor is valid, and no staging queue overflows (0x170A). -/
def descriptorsOk (cx : LoadContext) (p : Plan) : Bool :=
  (p.sections.all fun s => s.type != 0x02 || (List.range (s.content.length / 32)).all fun i =>
    descriptorOk (slice s.content (32 * i) 32))
  && everyCommand cx p (fun v c => indicesOk p v c && ordinalsOk v c)
  && everyPath cx p fun v _ => (List.range 64).all (stagingOk v)

/-! ### Parts and their combination (R117, R138) -/

/-- A node of tree(0, n): its range and n. -/
abbrev NodeTag := Nat × Nat × Nat

/-- Whether a value is a node's that still has siblings to be added. -/
def openNode (t : Option NodeTag) : Bool := match t with | some (lo, hi, n) => !(lo == 0 && hi == n) | none => false

/-- The node that an ADD of two nodes' values gives: siblings, left operand first. -/
def siblingSum (a b : Option NodeTag) : Option NodeTag := match a, b with
  | some (lo, m, n), some (m', hi, n') =>
    if m == m' && n == n' && isNode n lo hi && treeSplit lo hi == m then some (lo, hi, n) else none
  | _, _ => none

/-- A program over node values: whether it keeps to R138, and the node whose value it stores. -/
def nodeProgram (ws : List Nat) (inp : Option NodeTag) (streams : List (Option NodeTag)) : Bool × Option NodeTag :=
  let r := ws.foldl (fun (acc : Bool × List (Option NodeTag) × Option NodeTag) w =>
    let tag := fun s => if s < 8 then acc.2.1.getD s none else if s < 0xC then streams.getD (s - 8) none
      else if s == 0xC then inp else none
    let used := (sourcesRead w).map tag
    match insOp w with
    | 0x01 => (acc.1, acc.2.1.set (insDst w) (used.headD none), acc.2.2)
    | 0x3F => (acc.1, acc.2.1, used.headD none)
    | op =>
      let sum := if op == 0x02 then siblingSum (used.getD 0 none) (used.getD 1 none) else none
      (acc.1 && (sum.isSome || !used.any openNode), if op == 0x38 then acc.2.1 else acc.2.1.set (insDst w) sum, acc.2.2))
    (true, List.replicate 8 none, none)
  (r.1, r.2.2)

/-- The command whose output a command reads in a tensor: the last to write it of those that commit before it issues. -/
def PathView.writerOf (w : PathView) (x : Spot) (i : Nat) : Option Spot :=
  let ps := w.spots.filter fun y => (outputTensors y.cmd).contains i && w.commitsBefore y x
  ps.find? fun y => ps.all fun z => z == y || w.commitsBefore z y

/-- The lists of a position of a variant, on the path of a view. -/
def viewAt (v : State) (pos : Nat) : PathView :=
  let u := { v with job := { v.job with position := pos } }
  ⟨u, spotsOf v.plan ⟨v.job.variant, pos, v.job.path⟩⟩

/-- The position whose source a COLL_MOVE brings into all of a destination: SHIFT and BROADCAST have one (Table 12.9). -/
def moveSource (v : State) (c : Bytes) : Option Nat :=
  let ms := groupMembers v (collGroup c)
  let n := (ms.findIdx? (· == v.job.position)).getD 0
  match collOperation c with
  | 0 => ms[(n + ms.length - byteAt c 19 % max 1 ms.length) % max 1 ms.length]?
  | 1 => ms[collRoot c]?
  | _ => none

/-- What a command does with node values: whether it keeps to R138, and the node whose value it writes, if any. A COPY and a
COLL_MOVE of one source pass a value on. -/
def nodeOutput : Nat → PathView → Spot → Bool × Option NodeTag
  | 0, _, _ => (true, none)
  | fuel + 1, w, x =>
    let c := x.cmd
    let v := w.view
    let source := fun i => if i == 0xFFFF then none
      else match w.writerOf x i with | some y => (nodeOutput fuel w y).2 | none => none
    match productOf v c with
    | some q => (true, if q.isPart then some (q.lo, q.hi, q.blocks) else none)
    | none =>
      if cmdOpcode c == 0x03 && 3 ≤ attnOperation c then
        (true, if attnLo c == 0 && attnHi c == attnBlocks c then none else some (attnLo c, attnHi c, attnBlocks c))
      else if cmdOpcode c == 0x04 then
        let e := programAt v.plan (le c 16 2)
        let r := nodeProgram (progInstrs e) (source (le c 18 2)) ((List.range 4).map fun j => source (progStream e j))
        (r.1 && (!openNode r.2 || (vecOperation c == 0 && (v.tensor (le c 20 2)).fmt == .fp32)), r.2)
      else if isMove 0x00 c then (true, source (le c 16 2))
      else if cmdOpcode c == 0x08 && byteAt c 20 == 1 then
        match moveSource v c with
        | some pos =>
          let u := viewAt v pos
          match u.spots.find? fun y => cmdOpcode y.cmd == 0x08 && cmdIndex y.cmd == cmdIndex c with
          | some y => match u.writerOf y (le y.cmd 24 2) with
            | some z => (true, (nodeOutput fuel u z).2)
            | none => (true, none)
          | none => (true, none)
        | none => (true, none)
      else (true, none)

/-- Whether a command may read a tensor that holds the open node of a part: it adds it, passes it on, or is the COLL_MM of that
node (R96, R117). -/
def takesNode (x : Spot) (i : Nat) (t : Option NodeTag) : Bool :=
  let c := x.cmd
  match cmdOpcode c with
  | 0x04 => true
  | 0x05 => isMove 0x00 c
  | 0x07 => le c 16 2 == i && t == some (le c 32 2, le c 34 2, le c 30 2)
  | 0x08 => true
  | _ => false

/-- Whether the open node that a command writes is read, and only by commands that take it: no part is left out of its sum and
none is used by itself. -/
def nodeTaken (w : PathView) (x : Spot) : Bool :=
  let t := (nodeOutput (w.spots.length + 1) w x).2
  !openNode t ||
    (let reads := w.spots.flatMap fun y =>
       ((inputTensors w.view y.cmd).filter fun i => (outputTensors x.cmd).contains i && w.writerOf y i == some x).map fun i => (y, i)
     !reads.isEmpty && reads.all fun r => takesNode r.1 r.2 t)

/-- Every part is a node, every combination of parts follows the tree, and no part is left over (0x1601, R96). -/
def partsOk (cx : LoadContext) (p : Plan) : Bool :=
  (everyCommand cx p fun v c => (match productOf v c with | some x => x.nodeOk | none => true)
    && (cmdOpcode c != 0x03 || attnOperation c == 0 || attnOperation c == 2
        || (attnOperation c != 1 && !(attnLo c < attnHi c)) || isNode (attnBlocks c) (attnLo c) (attnHi c)))
  && everyPath cx p fun v spots =>
    let w : PathView := ⟨v, spots⟩
    spots.all fun x => (nodeOutput (spots.length + 1) w x).1 && nodeTaken w x

/-! ### Conversions (R85, R89) -/

/-- Whether stochastic rounding may be selected for a target (Table 3.7). -/
def stochasticOk (f : Fmt) : Bool := [Fmt.bf16, .fp16, .f8, .f8s, .f4s, .int8, .u8].contains f

/-- Whether Table 3.8 lists a conversion; a format into itself is none. From F19 it lists that into FP32 alone. -/
def conversionOk (a b : Fmt) : Bool :=
  a == b || (if a == .f19 then b == .fp32 else !a.isInt || !b.isInt || a == .int32 || b == .int32)

/-- The formats that a command rounds into stochastically. -/
def stochasticTargets (v : State) (c : Bytes) : List Fmt :=
  let d := fun (on : Bool) off => if on then [(v.tensor (le c off 2)).fmt] else []
  ((usesOf v c).flatMap fun u => ((u.instrs v).filter fun w => insOp w == 0x3C && bitAt (insMod w) 0).map fun w =>
      (Fmt.ofCode (insFmt w)).getD .fp32)
    ++ (match cmdOpcode c with
        | 0x01 => d (roundDsr c 25) 22 | 0x02 => d (roundDsr c 25) 22 | 0x0D => d (roundDsr c 25) 22
        | 0x03 => d (attnDsr c) 22 | 0x04 => d (vecSr c) 20 | 0x07 => d (bitAt (byteAt c 27) 2) 22
        | 0x0F => d (fillSr c) 16 | _ => [])

/-- Every conversion is one of Table 3.8, and stochastic rounding is selected only where Table 3.7 permits it (0x1602). -/
def conversionsOk (v : State) (c : Bytes) : Bool :=
  (stochasticTargets v c).all stochasticOk
    && (!isMove 0x01 c || conversionOk (v.tensor (le c 16 2)).fmt (v.tensor (le c 18 2)).fmt)

/-- Every RND of the program table rounds as Table 3.7 permits (0x1602). -/
def rndsOk (p : Plan) : Bool :=
  (List.range (tableCount p 0x03 272)).all fun i => (progInstrs (programAt p i)).all fun w =>
    insOp w != 0x3C || !bitAt (insMod w) 0 || stochasticOk ((Fmt.ofCode (insFmt w)).getD .fp32)

/-! ### Function tables (R163, R168, R174) -/

/-- The table set and every reference to it (0x1301). -/
def tableSetOk (p : Plan) : Bool :=
  let set := sectionOf p 0x08
  let nt := tablesIn set
  let nm := microCount set
  nt ≤ 32 && nm ≤ 16 && set.length == 4096 * nt + 256 * nm
    && (List.range nt).all (fun i => tableValid (tableOf set i)) && (List.range nm).all (fun i => mprgValid nt (microOf set i))
    && (List.range (tableCount p 0x03 272)).all fun i => (progInstrs (programAt p i)).all fun w =>
      (insOp w != 0x29 || insImm w < nt) && (insOp w != 0x2A || insImm w < nm)

/-- The ε of every STATRD of MOD 1 or 2 is finite and not negative (0x1304). -/
def epsilonOk (p : Plan) : Bool :=
  (List.range (tableCount p 0x03 272)).all fun i => (progInstrs (programAt p i)).all fun w =>
    !(insOp w == 0x39 && (insMod w == 1 || insMod w == 2)) ||
      (let e := BitVec.ofNat 32 (insImm w); finite32 e && !negative32 e)

/-! ### Random draws (R182 to R187, R194) -/

/-- Whether a stream entry is valid (R183). -/
def streamEntryOk (p : Plan) (e : Bytes) : Bool :=
  let b := strBinding e
  let product := (List.range 5).foldl (fun n j => n * strExtent e j) 1
  byteAt e 6 < 4 && byteAt e 7 < 8 && b != 3 && zeroBytes e 14 2 && zeroBytes e 36 12 && product ≤ 2 ^ 64
    && (if b == 1 then
          strFrameDim e < 5 && strExtent e (strFrameDim e) == strRows e * planP p && strEval e < planN p / max 1 (planP p)
        else strFrameDim e == 0 && strRows e == 0 && strEval e == 0)

/-- The stream table: at most 4,096 valid entries with stream numbers of their own (0x1401). -/
def streamTableOk (p : Plan) : Bool :=
  let n := tableCount p 0x05 48
  let es := (List.range n).map (tableEntry p 0x05 48)
  n ≤ 4096 && es.all (streamEntryOk p) && noRepeat (es.map fun e => le e 0 4)

/-- The streams of an instruction: RNG, and a stochastic RND. -/
def instrStream (w : Nat) : List Nat :=
  if insOp w == 0x30 || (insOp w == 0x3C && bitAt (insMod w) 0) then [insImm w] else []

/-- The streams that a command uses with the anchor of each use (Table 7.4). -/
def streamUses (v : State) (c : Bytes) : List (Nat × Tensor) :=
  let d := fun (on : Bool) stream off => if on then [(le c stream 4, v.tensor (le c off 2))] else []
  ((usesOf v c).flatMap fun u => ((u.instrs v).flatMap instrStream).map fun n => (n, u.anchor))
    ++ (match cmdOpcode c with
        | 0x01 => d (roundDsr c 25) 36 22 | 0x02 => d (roundDsr c 25) 52 22 | 0x0D => d (roundDsr c 25) 52 22
        | 0x03 => d (attnDsr c) 56 22 | 0x04 => d (vecSr c) 24 20 | 0x07 => d (bitAt (byteAt c 27) 2) 36 22
        | 0x0F => d true 20 16 ++ d (fillSr c) 26 16 | _ => [])

/-- Every stream that a plan names has an entry (0x1404). -/
def streamsNamedOk (cx : LoadContext) (p : Plan) : Bool :=
  (List.range (tableCount p 0x03 272)).all (fun i => ((progInstrs (programAt p i)).flatMap instrStream).all fun n =>
      (streamEntry p n).isSome)
    && everyCommand cx p fun v c => (streamUses v c).all fun u => (streamEntry p u.1).isSome

/-- Whether an anchor is related to its index tensor and every logical coordinate is in range (R185, R186). -/
def anchorOk (v : State) (use : Nat × Tensor) : Bool := match streamEntry v.plan use.1 with
  | none => true
  | some e => match anchorOffsets use.2 (v.tensor (strIndex e)) with
    | none => false
    | some o => (List.range 5).all fun j =>
      (strBinding e == 1 && j == strFrameDim e) || strOrigin e j + o.getD j 0 + (use.2.dim j - 1) < strExtent e j

/-- Every anchor is related to its index tensor (0x1402). -/
def anchorsOk (v : State) (c : Bytes) : Bool := (streamUses v c).all (anchorOk v)

/-- The body of an RNG_FILL (0x1403). -/
def fillOk (v : State) (c : Bytes) : Bool :=
  cmdOpcode c != 0x0F ||
    (let out := v.tensor (le c 16 2)
     fillDist c < 5 && byteAt c 25 < 2 && zeroBytes c 38 26 && fillDraw c != 0xFFFF
       && (fillDist c != 3 || out.fmt == .int32) && finite32 (fillP0 c) && finite32 (fillP1 c)
       && (fillDist c != 4 || (!negative32 (fillP0 c) && !lt32 one32 (fillP0 c)))
       && out.inSpaces [1, 2] && cmdAccSlots c == 0)

/-- No RNG_FILL names a reserved draw number (0x1405). -/
def drawsOk (c : Bytes) : Bool := cmdOpcode c != 0x0F || fillDraw c < 0xFF00 || fillDraw c == 0xFFFF

end Sys2Proof.Machine
end

