-- ==== Sys2Proof/Machine/PlanOps.lean ====
section
/-! DEFINITION. Plan-load admission of convolutions, image operators, attention and the memory tiers: the checks of chapters
8 to 10 (Tables 8.8, 9.8, 10.23). -/

namespace Sys2Proof.Machine

/-! ### Convolution and image operators (R199 to R217) -/

/-- STRIPE_W. -/
def convStripeW (c : Bytes) : Nat := le c 44 2
/-- STRIPE_H. -/
def convStripeH (c : Bytes) : Nat := le c 46 2

/-- Whether a command uses the address generator. -/
def isConvolving (c : Bytes) : Bool := cmdOpcode c == 0x02 || cmdOpcode c == 0x0D

/-- Whether a command is a convolution, on either engine. -/
def isConvolution (c : Bytes) : Bool := cmdOpcode c == 0x02 || isEdge 0 c

/-- Whether a number lies in a range. -/
def within (lo hi n : Nat) : Bool := lo ≤ n && n ≤ hi

/-- The fields of the geometry lie in the ranges of Table 8.1. -/
def geometryRanges (c : Bytes) : Bool :=
  let g := geometryOf c
  within 1 31 g.kw && within 1 31 g.kh && within 1 16 g.sx && within 1 16 g.sy && within 1 16 g.dx && within 1 16 g.dy
    && within 1 8 g.ux && within 1 8 g.uy && within 1 4096 (convStripeW c) && within 1 4096 (convStripeH c)

/-- OX and OY of a command (R204, R217). -/
def fullOutput (v : State) (c : Bytes) : Nat × Nat :=
  let g := geometryOf c
  let x := v.tensor (le c 16 2)
  if isEdge 3 c then (x.dim 1 * g.ux, x.dim 2 * g.uy)
  else (outExtent (virtualExtent g.up g.ux (x.dim 1)) g.pl g.pr g.dx g.kw g.sx,
    outExtent (virtualExtent g.up g.uy (x.dim 2)) g.pt g.pb g.dy g.kh g.sy)

/-- The geometry of a convolving command, and D inside the full output (0x1501). DEDUCED: the limit of K' binds convolutions alone,
as the functions without W have no reduction block to pad to (R216, R217; log 24). -/
def geometryOk (v : State) (c : Bytes) : Bool :=
  !isConvolving c ||
    (let g := geometryOf c
     let x := v.tensor (le c 16 2)
     let d := v.tensor (le c 22 2)
     let o := fullOutput v c
     let vw := virtualExtent g.up g.ux (x.dim 1)
     let vh := virtualExtent g.up g.uy (x.dim 2)
     geometryRanges c && (isEdge 3 c || g.up != 0 || (g.ux == 1 && g.uy == 1))
       && (g.pad != 1 || (2 ≤ vw && 2 ≤ vh && g.pl < vw && g.pr < vw && g.pt < vh && g.pb < vh))
       && 1 ≤ o.1 && 1 ≤ o.2 && g.ox0 + d.dim 1 ≤ o.1 && g.oy0 + d.dim 2 ≤ o.2
       && (!isConvolution c || g.logicalK (x.dim 0) (blockSize x.fmt) ≤ 65536))

/-- The layouts and spaces of Table 8.3 (0x1502). C is a multiple of 32 where an operand is block-scaled (R201). DEDUCED: X, C and
D of the functions without W keep to the same rows of the table, and their X to the same multiple (log 24). -/
def convLayoutOk (v : State) (c : Bytes) : Bool :=
  !isConvolving c ||
    (let g := geometryOf c
     let x := v.tensor (le c 16 2)
     let d := v.tensor (le c 22 2)
     let cOk := (optTensor v (le c 20 2)).all fun t => t.inSpaces [0, 1, 2] && t.dims == d.dims
     x.inSpaces [0, 1, 2] && x.flatFrom 4 && d.inSpaces [0, 1, 2] && d.flatFrom 4 && d.dim 3 == x.dim 3 && cOk
       && (!(x.fmt.blockScaled || (isConvolution c && (v.tensor (le c 18 2)).fmt.blockScaled)) || x.dim 0 % 32 == 0)
       && (if isConvolution c then
             (let w := v.tensor (le c 18 2)
              w.inSpaces [1, 2] && w.flatFrom 2 && w.dim 0 == g.logicalK (x.dim 0) (blockSize x.fmt) && w.dim 1 == d.dim 0
                && (cmdOpcode c == 0x0D || d.dim 0 % 128 == 0))
           else true))

/-- Bytes of one pixel of X, block scales included (R209). -/
def pixelBytes (x : Tensor) : Nat :=
  (if x.fmt == .u10p then 4 * ceilDiv (x.dim 0) 3 else ceilDiv (x.dim 0 * x.fmt.storageBits) 8)
    + (if x.fmt.blockScaled then x.dim 0 / 32 else 0)

/-- Real columns or rows of a stripe's footprint (R209). -/
def footprint (up u stripe stride k dil : Nat) : Nat :=
  let f := (stripe - 1) * stride + (k - 1) * dil + 1
  if up == 0 then f else ceilDiv (f - 1) u + 1

/-- The halo buffer's bytes that a command needs (R209). -/
def haloNeed (v : State) (c : Bytes) : Nat :=
  let g := geometryOf c
  let rw := footprint g.up g.ux (convStripeW c) g.sx g.kw g.dx
  let rh := footprint g.up g.uy (convStripeH c) g.sy g.kh g.dy
  let nw := min rw (ceilDiv (convStripeW c * g.sx) (max 1 g.ux))
  (if bitAt (byteAt c 24) 7 then rw else rw + nw) * rh * pixelBytes (v.tensor (le c 16 2))

/-- Stripe area and halo requirement (0x1503). -/
def stripesOk (v : State) (c : Bytes) : Bool :=
  !isConvolving c || (convStripeW c * convStripeH c % 128 == 0 && haloNeed v c ≤ 524288)

/-- Operand pair, C and D of a TILE_CONV (0x1101). -/
def convFormatsOk (v : State) (c : Bytes) : Bool :=
  cmdOpcode c != 0x02 || (let x := convProduct v c; pairOk x.a.fmt x.b.fmt && x.cdOk [])

/-- Whether two formats form a pair of Table 8.5. -/
def edgePairOk (a b : Fmt) : Bool := match a, b with
  | .f8, .f8 => true | .f8, .f8s => true | .f8s, .f8 => true | .f8s, .f8s => true
  | .int8, .int8 => true | .bf16, .bf16 => true | .fp16, .fp16 => true | .u8, .bf16 => true | .u10p, .fp16 => true
  | _, _ => false

/-- Formats of an EDGE_CONV convolution (0x1504). -/
def edgeFormatsOk (v : State) (c : Bytes) : Bool :=
  !isEdge 0 c || (let x := convProduct v c; edgePairOk x.a.fmt x.b.fmt && x.cdOk [.u8, .u10p])

/-- Channel limits of an EDGE_CONV convolution (0x1505). -/
def edgeChannelsOk (v : State) (c : Bytes) : Bool :=
  !isEdge 0 c ||
    (let ch := (v.tensor (le c 16 2)).dim 0
     let n := (v.tensor (le c 22 2)).dim 0
     (ch ≤ 16 || n ≤ 16) && ch ≤ 4096 && within 1 256 n)

/-- The body of an EDGE_CONV, the format and channels of a pooling, and the geometry of a bilinear resampling (0x1506). The functions
without W have no operand conversion, so that D_SR is the one bit of their ROUND (R213, R216, R217). -/
def edgeBodyOk (v : State) (c : Bytes) : Bool :=
  cmdOpcode c != 0x0D ||
    (let g := geometryOf c
     let x := v.tensor (le c 16 2)
     !named c 26 && cmdAccSlots c == 0
       && (isEdge 0 c || (!named c 18 && byteAt c 25 &&& 0xFB == 0 && (v.tensor (le c 22 2)).dim 0 == x.dim 0))
       && (isEdge 0 c || isEdge 3 c || [Fmt.fp32, .bf16, .fp16, .f8, .f8s, .u8, .u10p].contains x.fmt)
       && (!isEdge 3 c || (g.ux == g.uy && [2, 4, 8].contains g.ux && g.up == 0 && g.pad == 2
           && g.pl == 0 && g.pr == 0 && g.pt == 0 && g.pb == 0
           && g.kw == 1 && g.kh == 1 && g.sx == 1 && g.sy == 1 && g.dx == 1 && g.dy == 1)))

/-- No reserved value in the MODE of a TILE_CONV or EDGE_CONV (0x1509). -/
def convModeOk (c : Bytes) : Bool :=
  !isConvolving c ||
    ((geometryOf c).pad != 3 && (geometryOf c).up != 3 && (cmdOpcode c != 0x02 || byteAt c 24 % 4 != 3))

/-! ### POST (R218 to R220) -/

/-- The body of a POST, and its FUNCTION (0x1507). -/
def postBodyOk (v : State) (c : Bytes) : Bool :=
  cmdOpcode c != 0x0E ||
    (let inp := v.tensor (le c 16 2)
     let out := v.tensor (le c 18 2)
     byteAt c 22 == planPostFunction v.plan && cmdAccSlots c == 0 && inp.inSpaces [1, 2] && out.inSpaces [1, 2]
       && byteAt c 23 == 0 && zeroBytes c 26 38
       && [Fmt.fp32, .bf16, .fp16, .f8, .f8s, .int32].contains inp.fmt && out.fmt == .int32
       && (optTensor v (le c 20 2)).all fun t => t.fmt == inp.fmt && t.inSpaces [1, 2])

/-- The shape of a POST (0x1508). -/
def postShapeOk (v : State) (c : Bytes) : Bool :=
  cmdOpcode c != 0x0E ||
    (let inp := v.tensor (le c 16 2)
     let out := v.tensor (le c 18 2)
     let k := if byteAt c 22 == 0 then 1 else le c 24 2 + 1
     out.dim 0 == k && out.dims.drop 1 == inp.dims.drop 1
       && (byteAt c 22 == 0 || (k ≤ inp.dim 0 && inp.dim 0 ≤ 1024
           && (optTensor v (le c 20 2)).all fun t => t.dims == out.dims)))

/-! ### Attention (R225 to R245) -/

/-- Whether an ATTN_BLOCK is a backward operation. -/
def attnBackward (c : Bytes) : Bool := 3 ≤ attnOperation c

/-- The tensor fields that an operation must name, and those that it must not (Table 9.5). -/
def attnFields (op : Nat) : List Nat × List Nat := match op with
  | 0 => ([16, 18, 20, 22, 24, 26], [28, 30])
  | 1 => ([16, 18, 20, 22, 26], [24, 28, 30])
  | 2 => ([22, 24, 26, 28], [16, 18, 20, 30])
  | 3 => ([16, 18, 20, 22, 24, 26, 28], [30])
  | 4 => ([16, 18, 20, 22, 24, 26, 28, 30], [])
  | _ => ([16, 18, 22, 24, 26, 28], [20, 30])

/-- The body of an ATTN_BLOCK (0x1181). -/
def attnBodyOk (c : Bytes) : Bool :=
  cmdOpcode c != 0x03 ||
    (let op := attnOperation c
     op < 6 && bits (byteAt c 32) 2 2 == 0 && byteAt c 32 % 4 != 3 && bits (byteAt c 33) 3 5 == 0 && byteAt c 33 % 4 == 0
       && byteAt c 38 < 32 && [1, 2, 4, 8, 16].contains (attnGroup c) && within 1 4 (byteAt c 39)
       && finite32 (attnScale c) && zeroBytes c 61 3
       && (attnFields op).1.all (named c) && (attnFields op).2.all (fun o => !named c o)
       && (op != 1 || (!named c 36 && !attnDsr c && attnPartNo c < 16))
       && (op == 1 || attnBackward c || (attnLo c == 0 && attnHi c == attnBlocks c)))

/-- The formats of Table 9.1 (0x1182). -/
def attnFormatsOk (v : State) (c : Bytes) : Bool :=
  cmdOpcode c != 0x03 ||
    (let op := attnOperation c
     let f := fun off => (v.tensor (le c off 2)).fmt
     let d := f 22
     (op == 2 || (pairOk (f 16) (f 18) && [Fmt.f8, .f8s, .bf16, .fp16].contains (f 16)
         && (op == 5 || [Fmt.f8, .bf16, .fp16].contains (f 20))))
       && (if op == 1 then d == .fp32
           else if attnBackward c then [Fmt.fp32, .bf16, .fp16].contains d
           else [Fmt.fp32, .bf16, .fp16, .f8, .f8s, .f4s, .int8].contains d)
       && (op != 2 || f 28 == .fp32) && (!(op == 0 || op == 2) || f 24 == .fp32))

/-- Formats of a backward operation's operands, STATS and DELTA (0x1187). -/
def attnBackwardOk (v : State) (c : Bytes) : Bool :=
  cmdOpcode c != 0x03 || !attnBackward c ||
    (let f := fun off => (v.tensor (le c off 2)).fmt
     [Fmt.bf16, .fp16].contains (f 16) && f 18 == f 16 && f 28 == f 16 && (attnOperation c == 5 || f 20 == f 16)
       && f 24 == .fp32 && (attnOperation c != 4 || f 30 == .fp32))

/-- Whether a tensor has the layout of a row of Table 9.1: its first dimension, heads enough, and its spaces. -/
def attnTensorOk (t : Tensor) (first heads : Nat) (spaces : List Nat) : Bool :=
  t.dim 0 == first && heads ≤ t.dim 2 && t.flatFrom 3 && t.inSpaces spaces

/-- Layouts, spaces and extents (0x1183). -/
def attnLayoutOk (v : State) (c : Bytes) : Bool :=
  cmdOpcode c != 0x03 ||
    (let op := attnOperation c
     let at' := fun off => v.tensor (le c off 2)
     let dh := if op == 2 then (at' 22).dim 0 else (at' 18).dim 0
     let kv := le c 40 2 + bits (byteAt c 39) 0 3
     let q := kv * attnGroup c
     let used := fun off => (attnFields op).1.contains off
     let records := fun (t : Tensor) parts =>
       t.dim 0 == dh + 8 && q ≤ t.dim 2 && within parts 16 (t.dim 3) && t.flatFrom 4 && t.inSpaces [0, 1, 2]
     (dh == 64 || dh == 128)
       && (!used 16 || attnTensorOk (at' 16) dh q [1, 2]) && (!used 18 || attnTensorOk (at' 18) dh kv [0, 1, 2])
       && (!used 20 || attnTensorOk (at' 20) dh kv [0, 1, 2]) && (!used 24 || attnTensorOk (at' 24) 2 q [0, 1, 2])
       && (if op == 1 then records (at' 22) (attnPartNo c + 1)
           else attnTensorOk (at' 22) dh (if 4 ≤ op then kv else q) [0, 1, 2])
       && (op != 2 || records (at' 28) (attnPartNo c)) && (!attnBackward c || attnTensorOk (at' 28) dh q [1, 2])
       && (op != 4 || attnTensorOk (at' 30) 1 q [1, 2]))

/-- The length table and the entry range (0x1184). -/
def lengthTableOk (v : State) (c : Bytes) : Bool :=
  cmdOpcode c != 0x03 ||
    (let t := v.tensor (le c 26 2)
     t.fmt == .int32 && t.inSpaces [1, 2] && t.dim 0 == 4 && t.dim 1 ≤ 4096 && t.flatFrom 2
       && attnEntryLo c ≤ attnEntryHi c && attnEntryHi c ≤ t.dim 1 && within 1 512 (attnBlocks c))

/-- The working buffer of an ATTN_BLOCK in bytes (R239). -/
def attnBuffer (v : State) (c : Bytes) : Nat :=
  let kb := attnKb v c
  let block := fun off => if named c off then
      (let t := v.tensor (le c off 2)
       kb * (t.dim 0 * t.fmt.storageBits / 8 + (if t.fmt.blockScaled then t.dim 0 / 32 else 0))) else 0
  let vf := (v.tensor (le c 20 2)).fmt
  let p := if attnOperation c < 3 && vf == .f8 then 128 * kb + 128 * kb / 32 else 128 * kb * 2
  2 * (block 18 + block 20) + (if attnBackward c then 2 else 1) * 512 * kb + 2 * p

/-- The working buffer fits (0x1185). -/
def attnBufferOk (v : State) (c : Bytes) : Bool :=
  cmdOpcode c != 0x03 || attnOperation c == 2 || attnBuffer v c ≤ 524288

/-- The regions whose contents a COPY or a COLL_MOVE of the path may have put into some regions, those included; fuel bounds the
number of moves in a row. -/
def movedFrom (v : State) (spots : List Spot) : Nat → List Region → List Region
  | 0, rs => rs
  | fuel + 1, rs =>
    let moves := spots.flatMap fun x =>
      if isMove 0x00 x.cmd then [(regionOf v x.core (le x.cmd 18 2), regionOf v x.core (le x.cmd 16 2))]
      else if cmdOpcode x.cmd == 0x08 then (List.range (byteAt x.cmd 20)).map fun i =>
        (regionOf v x.core (le x.cmd (26 + 4 * i) 2), regionOf v x.core (le x.cmd (24 + 4 * i) 2))
      else []
    let more := (moves.filter fun m => !rs.contains m.2 && rs.any m.1.meets).map (·.2)
    if more.isEmpty then rs else movedFrom v spots fuel (rs ++ more)

/-- The PART commands whose records a MERGE reads: those that write a region which is its AUX or was moved there. -/
def partsRead (v : State) (spots : List Spot) (m : Spot) : List Spot :=
  let rs := movedFrom v spots spots.length [regionOf v m.core (le m.cmd 28 2)]
  spots.filter fun x => isAttn 1 x.cmd && rs.any (regionOf v x.core (le x.cmd 22 2)).meets

/-- Whether PART commands with indices below a count partition n key blocks in order of part index (R243). -/
def partsPartition (n count : Nat) (parts : List Spot) : Bool :=
  let ranges := (List.range count).map fun i =>
    ((parts.filter fun x => attnPartNo x.cmd == i).map fun x => (attnLo x.cmd, attnHi x.cmd)).eraseDups
  within 1 16 count && parts.all (fun x => attnBlocks x.cmd == n && attnPartNo x.cmd < count)
    && ranges.all (·.length == 1) && partitions n (ranges.map fun r => r.headD (0, 0))

/-- The PART commands of every MERGE of a path partition its key blocks, and those that no MERGE reads partition theirs, tensor by
tensor (0x1186, R243). DEDUCED: a path whose PARTs a MERGE reads through COPY or COLL_MOVE finds them through these moves (log
24). -/
def mergesOk (cx : LoadContext) (p : Plan) : Bool :=
  everyPath cx p fun v spots =>
    let merges := spots.filter fun m => isAttn 2 m.cmd
    let read := merges.flatMap (partsRead v spots)
    merges.all (fun m => partsPartition (attnBlocks m.cmd) (attnPartNo m.cmd) (partsRead v spots m))
      && spots.all fun x => !isAttn 1 x.cmd || read.contains x ||
        (let own := spots.filter fun y =>
           isAttn 1 y.cmd && (regionOf v y.core (le y.cmd 22 2)).meets (regionOf v x.core (le x.cmd 22 2))
         partsPartition (attnBlocks x.cmd) (own.foldl (fun n y => max n (attnPartNo y.cmd + 1)) 0) own)

/-- A backward part keeps to R117 (0x1107). -/
def attnPartOk (v : State) (c : Bytes) : Bool :=
  cmdOpcode c != 0x03 || !attnBackward c ||
    (attnLo c < attnHi c && ((attnLo c == 0 && attnHi c == attnBlocks c)
      || (!named c 36 && !attnDsr c && (v.tensor (le c 22 2)).fmt == .fp32)))

/-! ### Regulators (R259) -/

/-- Entry i of the regulator table. -/
def regulatorRow (p : Plan) (i : Nat) : Bytes := tableEntry p 0x09 32 i

/-- CLUSTER_RATE of a cluster. -/
def clusterRate (e : Bytes) (k : Nat) : Nat := le e (16 + 2 * k) 2

/-- Whether one regulator entry is valid. -/
def regulatorRowOk (e : Bytes) : Bool :=
  let rate := le e 2 2
  let burst := le e 4 4
  let die := byteAt e 1
  let own := (List.range 4).map fun k => clusterRate e (4 * die + k)
  let other := (List.range 4).map fun k => clusterRate e (4 * (1 - die) + k)
  byteAt e 0 < 5 && die < 2 && byteAt e 8 < 2 && zeroBytes e 9 7 && max 4096 (rate * 1000) ≤ burst
    && burst % 4096 == 0 && burst ≤ 4194304 && other.all (· == 0)
    && (if byteAt e 0 == 0 then own.foldl (· + ·) 0 == rate else own.all (· == 0))

/-- The regulator table (0x2101). -/
def regulatorsOk (p : Plan) : Bool :=
  let es := (List.range 10).map (regulatorRow p)
  (sectionOf p 0x09).length == 320 && es.all regulatorRowOk && noRepeat (es.map fun e => 2 * byteAt e 0 + byteAt e 1)
    && [0, 1].all fun die => ((es.filter fun e => byteAt e 1 == die).map fun e => le e 2 2).foldl (· + ·) 0 ≤ 3100

/-- The sum of every share over both dies (0x1007). -/
def sharesOk (p : Plan) : Bool :=
  ((List.range (tableCount p 0x09 32)).map fun i => le (regulatorRow p i) 2 2).foldl (· + ·) 0 ≤ 6200

/-! ### Directory and spaces (R251, R271, R272) -/

/-- Initial entry i of a plan's directory range. -/
def initialEntry (p : Plan) (i : Nat) : Bytes := tableEntry p 0x0A 16 i

/-- Whether an initial entry is valid: nothing reserved, absent, a segment length in range. -/
def initialEntryOk (e : Bytes) : Bool :=
  byteAt e 0 &&& 0xF9 == 0 && byteAt e 1 == 0 && within 5 4117 (le e 2 2) && le e 4 4 == 0 && le e 12 4 == 0

/-- The directory range of a plan, apart from those of the other plans of the image, and its initial entries (0x2102). -/
def directoryOk (others : List Plan) (p : Plan) : Bool :=
  let r := (planDirFirst p, planDirCount p)
  r.1 + r.2 ≤ 131072
    && others.all (fun o => !rangesOverlap r (planDirFirst o, planDirCount o))
    && (r.2 == 0 || (sectionOf p 0x0A).length == 16 * r.2)
    && (List.range (tableCount p 0x0A 16)).all fun i => initialEntryOk (initialEntry p i)

/-- Pinned entries of a plan. -/
def pinnedEntries (p : Plan) : List Nat :=
  ((List.range (planDirCount p)).filter fun i => bitAt (byteAt (initialEntry p i) 0) 1).map (planDirFirst p + ·)

/-- Whether a tensor keeps clear of the slots, its directory range, the window and the pool (R251, R272). -/
def tierTensorOk (cx : LoadContext) (p : Plan) (t : Tensor) : Bool := match t.space with
  | 0 => !rangesOverlap (t.base, t.extent) (cx.layout.poolBase, cx.layout.poolFrames * 1048576)
  | 1 => t.base % 0x20000000 + t.extent ≤ 0x3E00000
  | 5 => t.base + t.extent ≤ 0x1000000000
  | 6 => planDirFirst p * 1048576 ≤ t.base && t.base + t.extent ≤ (planDirFirst p + planDirCount p) * 1048576
  | _ => true

/-- Every descriptor of a plan (0x2104). -/
def tierTensorsOk (cx : LoadContext) (p : Plan) : Bool :=
  p.sections.all fun s => s.type != 0x02 || (List.range (s.content.length / 32)).all fun i =>
    tierTensorOk cx p (tensorOf (slice s.content (32 * i) 32))

/-! ### Transfer commands (R253 to R256, R276 to R279) -/

/-- Whether fields hold 0xFFFF. -/
def unnamed (c : Bytes) (offs : List Nat) : Bool := offs.all fun o => !named c o

/-- Whether a MOVE is an atomic operation. -/
def isAtomic (c : Bytes) : Bool := cmdOpcode c == 0x05 && within 0x10 0x19 (moveOp c)

/-- The tensors of an atomic operation (Table 10.9, R253). -/
def atomicOk (v : State) (c : Bytes) : Bool :=
  let src := v.tensor (le c 16 2)
  let dst := v.tensor (le c 18 2)
  let like := fun off => (v.tensor (le c off 2)).dims == src.dims && (v.tensor (le c off 2)).fmt == .int32
    && (v.tensor (le c off 2)).inSpaces [1, 2]
  byteAt c 21 < 2 && zeroBytes c 26 5 && named c 16 && named c 18
    && src.fmt == .int32 && src.inSpaces [1, 2] && dst.fmt == .int32 && dst.inSpaces [1] && dst.dims == src.dims
    && (if moveOp c == 0x19 then named c 22 && like 22 else !named c 22)
    && (if 0x18 ≤ moveOp c then named c 24 && like 24 else !named c 24)
    && (!moveWide c || (src.dim 0 % 2 == 0 && dst.base % 8 == 0 && dst.strides.tail.all (· % 2 == 0)))

/-- The body of a MOVE (0x2105). -/
def moveOk (v : State) (c : Bytes) : Bool :=
  cmdOpcode c != 0x05 ||
    (let src := v.tensor (le c 16 2)
     let dst := v.tensor (le c 18 2)
     cmdAccSlots c == 0 && byteAt c 30 < 8 && zeroBytes c 31 33 && (if isAtomic c then atomicOk v c else match moveOp c with
       | 0x00 => byteAt c 21 == 0 && zeroBytes c 26 5 && unnamed c [22, 24] && named c 16 && named c 18
           && src.inSpaces [0, 1, 2, 5, 6] && dst.inSpaces [0, 1, 2] && src.fmt == dst.fmt && src.dims == dst.dims
       | 0x01 => byteAt c 21 == 0 && zeroBytes c 26 5 && unnamed c [22, 24] && named c 16 && named c 18
           && src.inSpaces [0, 1, 2, 5, 6] && dst.inSpaces [0, 1, 2] && src.dims == dst.dims
       | 0x20 => byteAt c 21 == 0 && unnamed c [18, 22, 24] && named c 16 && moveContrib c < 64
           && src.fmt == .fp32 && src.inSpaces [1, 2] && within 1 512 src.count
       | 0x21 => byteAt c 21 == 0 && unnamed c [16, 22, 24] && named c 18 && byteAt c 28 == 0 && byteAt c 29 == 0
           && dst.fmt == .fp32 && dst.inSpaces [0, 1, 2] && within 1 512 dst.count
       | _ => false))

/-- No other command of the path's tick acts on a target of an EXCH or CAS (0x2106). -/
def exchangesOk (cx : LoadContext) (p : Plan) : Bool :=
  everyPath cx p fun v spots => spots.all fun a =>
    !(isAtomic a.cmd && 0x18 ≤ moveOp a.cmd) || spots.all fun b =>
      a == b || !isAtomic b.cmd || !(regionOf v a.core (le a.cmd 18 2)).meets (regionOf v b.core (le b.cmd 18 2))

/-- The body of a GATHER (0x2107). -/
def gatherBodyOk (v : State) (c : Bytes) : Bool :=
  cmdOpcode c != 0x06 ||
    (let src := v.tensor (le c 16 2)
     let idx := v.tensor (le c 18 2)
     let dst := v.tensor (le c 20 2)
     cmdAccSlots c == 0 && zeroBytes c 22 42 && src.inSpaces [0, 1, 6] && idx.fmt == .int32 && idx.inSpaces [1, 2]
       && dst.inSpaces [0, 1, 2] && dst.fmt == src.fmt && dst.dim 1 == idx.dim 0 && dst.dims.set 1 0 == src.dims.set 1 0)

/-- The body of a TIER_REQ (0x2108). -/
def tierReqOk (v : State) (c : Bytes) : Bool :=
  cmdOpcode c != 0x0C ||
    (let t := v.tensor (le c 26 2)
     cmdAccSlots c == 0 && within 1 4096 (treqCount c) && within 1 64 (treqAhead c) && treqHold c ≤ 64
       && byteAt c 24 < 2 && byteAt c 25 == 0 && zeroBytes c 28 36
       && (if treqIndirect c then named c 26 && t.fmt == .int32 && t.inSpaces [1, 2]
           else !named c 26 && tierRangeOk v.plan (treqFirst c) (treqCount c)))

/-- The resident entries that static descriptors of a command read; those of a GATHER's rows depend on data. -/
def staticEntries (v : State) (c : Bytes) : List Nat :=
  if cmdOpcode c == 0x06 then [] else (inputTensors v c).flatMap fun i => (v.tensor i).entriesRead

/-- The entries that the static requests of the primary lists cover. -/
def coveredEntries (spots : List Spot) : List Nat :=
  spots.flatMap fun x =>
    if cmdOpcode x.cmd == 0x0C && !treqIndirect x.cmd && cmdAltList x.cmd != 0 then
      (List.range (treqCount x.cmd)).map (treqFirst x.cmd + ·) else []

/-- Every resident block that a list reads is pinned, or, in the primary lists, requested with an alternate (0x2109). -/
def coverageOk (cx : LoadContext) (p : Plan) : Bool :=
  let pinned := pinnedEntries p
  everyPath cx p fun v spots =>
    let covered := if v.job.path == 0 then coveredEntries spots else []
    spots.all fun x => (staticEntries v x.cmd).all fun e => pinned.contains e || covered.contains e

/-- Slot numbers, modes and contributor counts of the ordered slots (0x210A). -/
def orderedSlotsOk (cx : LoadContext) (p : Plan) : Bool :=
  everyPath cx p fun v spots =>
    let uses := spots.flatMap (slotUses v)
    uses.all (fun u => u.slot < 1024 && u.index.all (· < u.parties))
      && uses.all fun a => uses.all fun b => !(a.cluster == b.cluster && a.slot == b.slot)
        || (a.fsum == b.fsum && (!a.fsum || a.index.isNone || b.index.isNone || a.parties == b.parties))

end Sys2Proof.Machine
end

