-- ==== Sys2Proof/Machine/PlanSystem.lean ====
section
/-! DEFINITION. Plan-load admission of media, collectives, regions, checkpoints and the energy profile (chapters 11 to 16),
the rest of Table 1.4, and every check of a plan in order (R33). -/

namespace Sys2Proof.Machine

/-! ### Media (R295 to R304) -/

/-- The media tables of a plan: one for each variant and position, with the variant. -/
def mediaTables (p : Plan) : List (Nat × Bytes) := (p.sections.filter (·.type == 0x0B)).map fun s => (s.variant, s.content)

/-- Entry n of a media table. -/
def mediaRow (t : Bytes) (n : Nat) : Bytes := slice t (64 * n) 64
/-- KIND. -/
def medKind (e : Bytes) : Nat := byteAt e 0
/-- FORMAT: 0 AV1, 1 HEVC. -/
def medFormat (e : Bytes) : Nat := byteAt e 1
/-- How many engines an entry has. -/
def medEngines (e : Bytes) : Nat := ((List.range 6).filter (bitAt (byteAt e 5))).length
/-- WIDTH. -/
def medWidth (e : Bytes) : Nat := le e 10 2
/-- HEIGHT. -/
def medHeight (e : Bytes) : Nat := le e 12 2

/-- The six entries of a table that are used. -/
def usedMedia (t : Bytes) : List (Nat × Bytes) :=
  ((List.range 6).map fun n => (n, mediaRow t n)).filter fun q => medKind q.2 != 0

/-- Whether profile and bit depth belong together (Table 11.2). -/
def profileOk (e : Bytes) : Bool :=
  let depth := byteAt e 3
  match medFormat e, byteAt e 2 with
  | 0, 0 => depth == 8 || depth == 10
  | 1, 1 => depth == 8
  | 1, 2 => depth == 8 || depth == 10
  | _, _ => false

/-- Whether an entry's kind, format, profile, depth, references, QP and reserved fields are in order (0x7101). -/
def mediaEntryOk (n : Nat) (e : Bytes) : Bool :=
  medKind e ≤ 2 && byteAt e 5 < 64 && byteAt e 7 == 0 && zeroBytes e 21 3 && zeroBytes e 32 32
    && (medKind e == 0 || (profileOk e && (medKind e == 1) == decide (n < 4)
      && (if medKind e == 1 then within 1 3 (byteAt e 6) else byteAt e 6 == 0)
      && byteAt e 18 ≤ 51 && byteAt e 19 ≤ byteAt e 20 && byteAt e 20 ≤ 51))

/-- Size, tile width and level (0x7102). -/
def mediaSizeOk (tp : Time) (e : Bytes) : Bool :=
  let w := medWidth e
  let h := medHeight e
  let level := byteAt e 4
  let most := if medKind e == 2 then 51 else if medFormat e == 0 then 61 else 62
  let (lw, lh, size, rate) := Config.levelLimits (medFormat e) level
  w % 8 == 0 && within 64 7680 w && h % 8 == 0 && within 64 4320 h
    && (medKind e != 1 || w ≤ 3840 * medEngines e)
    && level ≤ most && w ≤ lw && h ≤ lh && w * h ≤ size && w * h * sec 1 ≤ rate * tp

/-- Engines of the right kind, each used once, and the time of an engine's tile column (0x7103). -/
def mediaEnginesOk (tp : Time) (t : Bytes) : Bool :=
  let es := (usedMedia t).map (·.2)
  noRepeat (es.flatMap fun e => (List.range 6).filter (bitAt (byteAt e 5)))
    && es.all fun e =>
      let most := if medKind e == 1 then tp + ms 1 else tp * 94 / 100
      let samples := ceilDiv (medWidth e) (max 1 (medEngines e)) * medHeight e
      1 ≤ medEngines e && byteAt e 5 &&& (if medKind e == 1 then 0x30 else 0x0F) == 0
        && ms 1 * 497664000 + samples * sec 1 ≤ most * 497664000

/-- The buffers that an entry needs (R304). -/
def mediaBuffers (e : Bytes) : Nat :=
  let b := ceilDiv (medWidth e * medHeight e) 8294400
  if medKind e == 1 then (1 + byteAt e 6) * b else if medFormat e == 0 then 10 * b else 8 * b

/-- The pool holds every stream (0x7104). -/
def mediaPoolOk (t : Bytes) : Bool := ((usedMedia t).map fun q => mediaBuffers q.2).foldl (· + ·) 0 ≤ 32

/-- Target rate and buffer size of an encode entry (0x7105). -/
def mediaRateOk (tp : Time) (e : Bytes) : Bool :=
  medKind e != 1 ||
    (let kbps := le e 24 4
     let c := kbps * 1000 * tp / sec 1
     within 1 800000 kbps
       && 2 * c + 4096 + 64 * (ceilDiv (medWidth e) 64 * ceilDiv (medHeight e) 64) ≤ le e 28 4 * 1000)

/-- Whether a tensor is a plane of pixels in T2. -/
def planeOk (t : Tensor) (depth w h : Nat) : Bool :=
  t.inSpaces [0] && t.fmt == (if depth == 8 then .u8 else .u10p) && t.dims == [w, h, 1, 1, 1]

/-- The pixel and hint tensors of an entry (0x7106). -/
def mediaTensorsOk (p : Plan) (variant : Nat) (e : Bytes) : Bool :=
  let tensor := fun i => tensorOf (tensorEntry p variant i)
  let count := ((findSection p 0x02 variant 0xFF 0).getD []).length / 32
  let pix := le e 14 2
  let hint := le e 16 2
  let w := medWidth e
  let h := medHeight e
  pix + 6 ≤ count
    && ([0, 3].all fun s => planeOk (tensor (pix + s)) (byteAt e 3) w h
      && planeOk (tensor (pix + s + 1)) (byteAt e 3) (w / 2) (h / 2)
      && planeOk (tensor (pix + s + 2)) (byteAt e 3) (w / 2) (h / 2))
    && (hint == 0xFFFF || (hint + 2 ≤ count && [0, 1].all fun s =>
      let t := tensor (hint + s)
      t.fmt == .int32 && t.inSpaces [0] && t.dims == [4, ceilDiv w 16, ceilDiv h 16, 1, 1]))

/-- Whether every used entry of every media table passes a check. -/
def everyMedia (p : Plan) (ok : Nat → Nat → Bytes → Bool) : Bool :=
  (mediaTables p).all fun t => (usedMedia t.2).all fun q => ok t.1 q.1 q.2

/-- The regions of a pixel set of a media entry. -/
def pixelRegions (v : State) (e : Bytes) (set : Nat) : List Region :=
  (List.range 3).map fun i => regionOf v 0 (le e 14 2 + 3 * set + i)

/-- No path writes both pixel sets of an encode entry, or reads both of a decode entry: in each of its ticks Media reads, or writes,
one of the two (0x1704, R296). DEDUCED: a list runs in every tick and its descriptors do not follow the parity of the tick, so that
whether one that touches a single set meets Media there is not known at plan load (log 24). -/
def pixelSetsOk (cx : LoadContext) (p : Plan) : Bool :=
  everyPath cx p fun v spots =>
    (usedMedia ((findSection p 0x0B v.job.variant v.job.position 0).getD [])).all fun q =>
      let touches := fun set => spots.any fun x =>
        (if medKind q.2 == 1 then outputTensors x.cmd else inputTensors v x.cmd).any fun i =>
          (pixelRegions v q.2 set).any (regionOf v x.core i).meets
      !(touches 0 && touches 1)

/-- The encoded pixel rate is at most that of four engines (0x100D). -/
def pixelRateOk (p : Plan) : Bool :=
  (mediaTables p).all fun t =>
    (((usedMedia t.2).filter fun q => medKind q.2 == 1).map fun q => medWidth q.2 * medHeight q.2).foldl (· + ·) 0 * sec 1
      ≤ 4 * 3840 * 2160 * 60 * planTp p

/-! ### Groups and collectives (R324 to R330) -/

/-- Entry g of the group table of a variant. -/
def groupEntry (p : Plan) (variant g : Nat) : Bytes := slice ((findSection p 0x0C variant 0xFF 0).getD []) (32 * g) 32

/-- Whether a group entry is well formed in a ring of r members. -/
def groupEntryOk (r g : Nat) (e : Bytes) : Bool :=
  let n := byteAt e 0
  let ms := (List.range n).map fun j => byteAt e (4 + j)
  n ≤ r && zeroBytes e 1 3 && zeroBytes e 20 12 && zeroBytes e (4 + n) (16 - n) && ms.all (· < r) && noRepeat ms
    && (g != 0 || ms == List.range r)

/-- Every ring variant of two or more members has well-formed groups (0x100C). -/
def groupsOk (p : Plan) : Bool :=
  ((variantsOf p).filter (2 ≤ ·)).all fun v =>
    ((findSection p 0x0C v 0xFF 0).getD []).length == 8192 && (List.range 256).all fun g => groupEntryOk v g (groupEntry p v g)

/-- Whether a command is a collective. -/
def isCollective (c : Bytes) : Bool := cmdOpcode c == 0x07 || cmdOpcode c == 0x08

/-- The positions of a collective's group; position 0 in a variant of one. -/
def planMembers (v : State) (c : Bytes) : List Nat :=
  if v.job.variant == 1 then [0] else groupMembers v (collGroup c)

/-- The commands of a position with the CMD_INDEX of a collective, on the same path. -/
def partnersAt (v : State) (pos : Nat) (c : Bytes) : List Bytes :=
  ((List.range 64).flatMap (commandList v.plan v.job.variant pos v.job.path)).filter fun x => cmdIndex x == cmdIndex c

/-- What partners must agree on: everything but tensor indices, K_LO and K_HI (R325). -/
def commonFields (c : Bytes) : Bytes :=
  if isMm c then c.take 16 ++ slice c 24 8 ++ slice c 36 28 else c.take 24 ++ slice c 56 8

/-- Every collective has a partner at every member of its group, none elsewhere, and they agree (0x3103). -/
def partnersOk (v : State) (c : Bytes) : Bool :=
  !isCollective c ||
    (let ms := planMembers v c
     ms.contains v.job.position && (List.range v.job.variant).all fun pos =>
       let xs := (partnersAt v pos c).filter fun x => cmdOpcode x == cmdOpcode c
       if ms.contains pos then xs.any fun x => commonFields x == commonFields c
       else !xs.any fun x => collGroup x == collGroup c)

/-- Collectives of one group stand in ascending CMD_INDEX on every member: along each list, and none of a higher index must issue
before one of a lower on another core (0x3103, R325). -/
def collOrderOk (cx : LoadContext) (p : Plan) : Bool :=
  everyPath cx p fun v spots =>
    let w : PathView := ⟨v, spots⟩
    let cs := spots.filter fun x => isCollective x.cmd
    cs.all fun a => cs.all fun b =>
      collGroup a.cmd != collGroup b.cmd || cmdIndex b.cmd ≤ cmdIndex a.cmd
        || (!(w.past true (a.core, a.place, 0)).contains (b.core, b.place, 0) && (a.core != b.core || a.place < b.place))

/-- The body of a collective (0x3101). -/
def collBodyOk (v : State) (c : Bytes) : Bool :=
  let n := (planMembers v c).length
  match cmdOpcode c with
  | 0x07 =>
    byteAt c 24 ≤ 2 && (if byteAt c 24 == 2 then byteAt c 26 < max 1 n else byteAt c 26 == 0) && byteAt c 27 &&& 0xFB == 0
      && zeroBytes c 40 24
  | 0x08 =>
    let op := byteAt c 16
    let segs := byteAt c 20
    op ≤ 3 && (if op == 1 || op == 3 then byteAt c 18 < max 1 n else byteAt c 18 == 0)
      && (if op == 0 then byteAt c 19 < max 2 n && (n ≤ 1 || byteAt c 19 != 0) else byteAt c 19 == 0)
      && within 1 8 segs && zeroBytes c 21 3 && zeroBytes c (24 + 4 * segs) (32 - 4 * segs) && zeroBytes c 56 8
  | _ => true

/-- Whether a source fits the destination that receives it (Table 12.9). -/
def segmentOk (op n : Nat) (src dst : Tensor) : Bool :=
  src.fmt == dst.fmt && (if op ≤ 1 then src.dims == dst.dims
    else
      let h := ((List.range 5).filter fun i => 1 < dst.dim i).getLast?.getD 0
      dst.dim h == n * src.dim h && dst.dims.set h 1 == src.dims.set h 1)

/-- Tensors of a COLL_MOVE: spaces, and every segment that this member receives. -/
def moveTensorsOk (v : State) (c : Bytes) : Bool :=
  let ms := planMembers v c
  let n := ms.length
  let me := (ms.findIdx? (· == v.job.position)).getD 0
  (collTensors v c).all (fun i => (v.tensor i).inSpaces [0, 1, 2]) && (ms.zipIdx).all fun q =>
    !moveReceives c n me q.2 || (partnersAt v q.1 c).all fun x =>
      (List.range (byteAt c 20)).all fun s =>
        segmentOk (collOperation c) n (v.tensor (le x (24 + 4 * s) 2)) (v.tensor (le c (26 + 4 * s) 2))

/-- Tensors of a COLL_MM (Table 12.10). -/
def mmTensorsOk (v : State) (c : Bytes) : Bool :=
  let part := v.tensor (le c 16 2)
  let stage := v.tensor (le c 18 2)
  let d := v.tensor (le c 22 2)
  let ms := planMembers v c
  let me := (ms.findIdx? (· == v.job.position)).getD 0
  part.fmt == .fp32 && part.inSpaces [0, 1, 2] && part.flatFrom 2 && part.dim 0 % 128 == 0
    && stage.fmt == .fp32 && stage.inSpaces [0, 1] && ms.length * (sliceIndices c ms.length me part).length ≤ stage.count
    && d.dims == part.dims && d.inSpaces [0, 1, 2]
    && [Fmt.fp32, .bf16, .fp16, .f8, .f8s, .f4s, .int8].contains d.fmt
    && (optTensor v (le c 20 2)).all fun t =>
      [Fmt.fp32, .bf16, .fp16].contains t.fmt && t.inSpaces [0, 1, 2] && extentsOk d.dims t

/-- Tensors of a collective (0x3102). -/
def collTensorsOk (v : State) (c : Bytes) : Bool := match cmdOpcode c with
  | 0x07 => mmTensorsOk v c
  | 0x08 => moveTensorsOk v c
  | _ => true

/-- The parts of a COLL_MM partition its blocks into nodes in group order (0x1601). -/
def collPartsOk (v : State) (c : Bytes) : Bool :=
  cmdOpcode c != 0x07 ||
    partitions (le c 30 2) ((planMembers v c).map fun pos =>
      if pos == v.job.position then (le c 32 2, le c 34 2) else partnerRange v pos c)

/-- A collective is not Cirrus-eligible and has a DEADLINE (0x3104). -/
def collHeaderOk (c : Bytes) : Bool := !isCollective c || (!cmdEligible c && cmdDeadline c != 0)

/-- No COLL_MM epilogue contains STAT (0x3106). -/
def collEpilogueOk (v : State) (c : Bytes) : Bool := cmdOpcode c != 0x07 || (usesOf v c).all fun u => !u.has v 0x38

/-! ### Cirrus and checkpoints (R400, R406 to R408) -/

/-- CIRRUS_ELIGIBLE only where R400 permits it; a collective has a code of its own (0x4102). -/
def cirrusOk (c : Bytes) : Bool :=
  !cmdEligible c || isCollective c || [0x01, 0x02, 0x03, 0x04, 0x0D, 0x0E, 0x0F].contains (cmdOpcode c)

/-- The checkpoint declarations of the variants, with the variant. -/
def declarations (p : Plan) : List (Nat × Bytes) :=
  (variantsOf p).map fun v => (v, (findSection p 0x10 v 0xFF 0).getD [])

/-- The tensor of record i of a declaration. -/
def declTensor (p : Plan) (d : Nat × Bytes) (i : Nat) : Tensor := tensorOf (tensorEntry p d.1 (ckptTensor d.2 i))

/-- Whether one declaration keeps to Table 15.5. -/
def declarationOk (p : Plan) (d : Nat × Bytes) : Bool :=
  let n := ckptTensors d.2
  let bytes := le d.2 0 4
  bytes % 4096 == 0 && bytes ≤ 0x10000000 && within 1 1024 n && within 4 10 (ckptShift d.2) && ckptMax d.2 ≤ 64
    && zeroBytes d.2 8 8 && 16 + 8 * n ≤ d.2.length && noRepeat ((List.range n).map (ckptLogical d.2))
    && (List.range n).all fun i =>
      ckptClass d.2 i ≤ 3 && byteAt d.2 (23 + 8 * i) == 0 && (declTensor p d i).inSpaces [0, 1]

/-- The checkpoint declarations (0x4101). -/
def declarationsOk (p : Plan) : Bool :=
  let ds := declarations p
  ds.all (declarationOk p) && ds.all fun a => ds.all fun b =>
    (List.range (ckptTensors a.2)).all fun i => (List.range (ckptTensors b.2)).all fun j =>
      ckptLogical a.2 i != ckptLogical b.2 j ||
        ((declTensor p a i).fmt == (declTensor p b j).fmt && (declTensor p a i).dims == (declTensor p b j).dims)

/-- Bytes of a tensor's record with its header (R408). -/
def recordSize (t : Tensor) : Nat :=
  let scales := if t.fmt.blockScaled then ceilDiv (t.dim 0) 32 * (t.dims.drop 1).foldl (· * ·) 1 else 0
  32 + ceilDiv (packedBytes t.fmt t.count + scales) 64 * 64

/-- Every checkpoint fits its slot and its region (0x100B). -/
def checkpointFits (cx : LoadContext) (p : Plan) : Bool :=
  (declarations p).all fun d =>
    let bytes := le d.2 0 4
    4096 + 2 * bytes ≤ cx.layout.ckptSize
      && 4096 + ((List.range (ckptTensors d.2)).map fun i => recordSize (declTensor p d i)).foldl (· + ·) 0 ≤ bytes

/-! ### Regions (R344, R384) -/

/-- Whether no T2 descriptor meets any of some regions. -/
def clearOf (p : Plan) (regions : List (Nat × Nat)) : Bool :=
  p.sections.all fun s => s.type != 0x02 || (List.range (s.content.length / 32)).all fun i =>
    let t := tensorOf (slice s.content (32 * i) 32)
    t.space != 0 || regions.all fun r => !rangesOverlap (t.base, t.extent) r

/-- The plan, media and checkpoint regions (R384). -/
def reservedRegions (l : Layout) : List (Nat × Nat) :=
  [(l.planBase0, l.planSize), (l.planBase1, l.planSize), (l.mediaBase, 545259520), (l.ckptBase0, l.ckptSize),
   (l.ckptBase1, l.ckptSize)]

/-! ### Energy profile (R427, R428) -/

/-- A whole number as a ratio. -/
def Ratio.ofInt (i : Int) : Ratio := ⟨i, 1⟩
/-- A difference. -/
def Ratio.sub (x y : Ratio) : Ratio := x.add ⟨-y.i, y.d⟩
/-- A quotient by a ratio that is not zero. -/
def Ratio.div (x y : Ratio) : Ratio := if y.i < 0 then ⟨-(x.i * y.d), x.d * y.i.natAbs⟩ else ⟨x.i * y.d, x.d * y.i.natAbs⟩
/-- Order. -/
def Ratio.le (x y : Ratio) : Bool := x.i * y.d ≤ y.i * x.d
/-- The larger of two. -/
def Ratio.max (x y : Ratio) : Ratio := if x.le y then y else x
/-- The mean of two. -/
def Ratio.mid (x y : Ratio) : Ratio := (x.add y).over 2

/-- One joule in watts times the unit of Time. -/
def joule : Int := sec 1

/-- The input target at an instant of a periodic tick, in W. -/
def targetAt (e : Bytes) (tp x : Time) : Ratio :=
  let t := x % Max.max 1 tp
  let j := binOf e t
  let a : Int := epIn e j
  let b : Int := epIn e (j + 1)
  (Ratio.ofInt a).add ⟨(b - a) * ((t - j * us 500 : Nat) : Int), Max.max 1 (binLength e tp j)⟩

/-- The integral of the input target over the bins before bin j. -/
def binsIntegral (e : Bytes) (tp : Time) (j : Nat) : Ratio :=
  (List.range j).foldl (fun acc i =>
    acc.add ⟨((epIn e i + epIn e (i + 1)) * binLength e tp i : Nat), 2⟩) (Ratio.ofInt 0)

/-- The integral of the input target from 0 to an instant. -/
def targetIntegral (e : Bytes) (tp x : Time) : Ratio :=
  let t := x % Max.max 1 tp
  let j := binOf e t
  let whole := (Ratio.ofInt ((x / Max.max 1 tp : Nat) : Int)).mul (binsIntegral e tp (epBins e))
  let part := ((Ratio.ofInt (epIn e j)).mid (targetAt e tp t)).mul (Ratio.ofInt ((t - j * us 500 : Nat) : Int))
  (whole.add (binsIntegral e tp j)).add part

/-- Every tick average is at most 2,400 W. -/
def averageOk (e : Bytes) (tp : Time) : Bool :=
  (binsIntegral e tp (epBins e)).le (Ratio.ofInt (2400 * tp : Nat))

/-- The starts of the pieces on which a window of 10 ms moves along linear targets. -/
def windowStarts (e : Bytes) (tp : Time) : List Time :=
  let bs := (List.range (epBins e)).map (· * us 500)
  let back := bs.map fun b => (b + (ms 10 / Max.max 1 tp + 1) * tp - ms 10) % Max.max 1 tp
  sortBy (fun a b => decide (a ≤ b)) (distinct (bs ++ back))

/-- The greatest energy of a window that starts between two instants, the target linear at both of its ends. -/
def windowPeak (e : Bytes) (tp a b : Time) : Ratio :=
  let f0 := (targetIntegral e tp (a + ms 10)).sub (targetIntegral e tp a)
  let f1 := (targetIntegral e tp (b + ms 10)).sub (targetIntegral e tp b)
  let g0 := (targetAt e tp (a + ms 10)).sub (targetAt e tp a)
  let g1 := (targetAt e tp (b + ms 10)).sub (targetAt e tp b)
  let inner := if 0 < g0.i && g1.i < 0 then
      f0.add ((((g0.mul g0).mul (Ratio.ofInt ((b - a : Nat) : Int))).div (g0.sub g1)).over 2) else f0
  (f0.max f1).max inner

/-- Every 10 ms window is at most 2,640 W. -/
def windowsOk (e : Bytes) (tp : Time) : Bool :=
  let xs := windowStarts e tp
  (xs.zip (xs.drop 1 ++ [tp])).all fun q => (windowPeak e tp q.1 q.2).le (Ratio.ofInt (2640 * ms 10 : Nat))

/-- Every input step is at most 250 W/ms, across the boundary too. -/
def stepsOk (e : Bytes) (tp : Time) : Bool :=
  (List.range (epBins e)).all fun j =>
    ((epIn e (j + 1) : Int) - epIn e j).natAbs * ms 1 ≤ 250 * binLength e tp j

/-- The energy profile of every variant (0x1008). -/
def energyOk (p : Plan) : Bool :=
  (variantsOf p).all fun v =>
    let e := profileOf p v
    averageOk e (planTp p) && windowsOk e (planTp p) && stepsOk e (planTp p)

/-- The fields of an energy profile (0x5101). -/
def profileFieldsOk (p : Plan) : Bool :=
  (variantsOf p).all fun v =>
    let e := profileOf p v
    let tp := planTp p
    let sum := binsIntegral e tp (epBins e)
    let mean : Int := le e 2 2
    epBins e == ceilDiv tp (us 500) && within 17 167 (epBins e) && 32 + 4 * epBins e ≤ e.length
      && sum.le (Ratio.ofInt (mean * tp)) && !(sum.le (Ratio.ofInt ((mean - 1) * tp)))
      && within 150 450 (le e 4 2) && 200 ≤ epFlowMin e && within 400 500 (epVinMin e) && zeroBytes e 10 22
      && (List.range (epBins e)).all fun j => epIn e j ≤ 2640

/-- A leg of the input: its length, the power at its ends and the load. -/
structure PowerLeg where
  len  : Ratio
  p0   : Ratio
  p1   : Ratio
  load : Nat
deriving DecidableEq, Repr

/-- 250 W/ms. -/
def rampRate : Ratio := ⟨250, ms 1⟩

/-- The legs of one bin for an input that has met the target, or moves to it at 250 W/ms; and the input after it. -/
def binLegs (h : Nat) (q0 q1 : Int) (load : Nat) (x : Option Ratio) : List PowerLeg × Option Ratio := match x with
  | none => ([⟨Ratio.ofInt h, Ratio.ofInt q0, Ratio.ofInt q1, load⟩], none)
  | some x =>
    let d0 := x.sub (Ratio.ofInt q0)
    let move := rampRate.mul (Ratio.ofInt h)
    let x1 := if 0 < d0.i then x.sub move else x.add move
    let d1 := x1.sub (Ratio.ofInt q1)
    if d0.i == 0 then ([⟨Ratio.ofInt h, x, Ratio.ofInt q1, load⟩], none)
    else if (0 < d0.i) == (0 < d1.i) && d1.i != 0 then ([⟨Ratio.ofInt h, x, x1, load⟩], some x1)
    else
      let f := d0.div (d0.sub d1)
      let t := f.mul (Ratio.ofInt h)
      let y := (Ratio.ofInt q0).add (f.mul (Ratio.ofInt (q1 - q0)))
      ([⟨t, x, y, load⟩, ⟨(Ratio.ofInt h).sub t, y, Ratio.ofInt q1, load⟩], none)

/-- The legs of two ticks from T(0), the input starting at 250 W (R426, R428). -/
def startLegs (e : Bytes) (tp : Time) : List PowerLeg :=
  ((List.range (2 * epBins e)).foldl (fun (acc : List PowerLeg × Option Ratio) i =>
    let j := i % Max.max 1 (epBins e)
    let r := binLegs (binLength e tp j) (epIn e j) (epIn e (j + 1)) (epLoad e j) acc.2
    (acc.1 ++ r.1, r.2)) ([], some (Ratio.ofInt 250))).1

/-- The store level at the extremes of a leg, from the level at its start. -/
def legLevels (a : Ratio) (l : PowerLeg) : List Ratio :=
  let n0 := l.p0.sub (Ratio.ofInt l.load)
  let n1 := l.p1.sub (Ratio.ofInt l.load)
  let stop := a.add ((n0.mid n1).mul l.len)
  if (0 < n0.i && n1.i < 0) || (n0.i < 0 && 0 < n1.i) then
    [a.add (((n0.mul n0).mul l.len |>.div (n0.sub n1)).over 2), stop]
  else [stop]

/-- Whether the store stays at or above -10 J through some legs. Energy above +10 J goes to the ballast, so the level
without ballast may fall at most 20 J below the greater of +10 J and its peak so far. -/
def storeHolds (legs : List PowerLeg) : Bool :=
  (legs.foldl (fun (acc : Bool × Ratio × Ratio) l =>
    (legLevels acc.2.1 l).foldl (fun (acc : Bool × Ratio × Ratio) x =>
      let peak := acc.2.2.max x
      (acc.1 && (peak.sub x).le (Ratio.ofInt (20 * joule)), x, peak)) acc)
    (true, Ratio.ofInt 0, Ratio.ofInt (10 * joule))).1

/-- The store check (0x5102). -/
def storeOk (p : Plan) : Bool :=
  (variantsOf p).all fun v =>
    let e := profileOf p v
    let tp := planTp p
    let load : Nat := ((List.range (epBins e)).map fun j => epLoad e j * binLength e tp j).foldl (· + ·) 0
    storeHolds (startLegs e tp) && (Ratio.ofInt (load : Int)).le (binsIntegral e tp (epBins e))

/-! ### Every check in order (R33) -/

/-- The checks of a plan whose format, header and section table are in order, by code, in ascending order. -/
def planChecks (cx : LoadContext) (others : List Plan) (p : Plan) : List (Nat × Bool) :=
  let every := everyCommand cx p
  let each := fun ok => every fun _ c => ok c
  let spots := fun ok => everyPath cx p fun v xs => xs.all fun x => ok v x.core x.cmd
  [(0x1002, tickOk p), (0x1003, depthOk p),
   (0x1004, ns (planCs p + planCr p) * 100 ≤ 94 * planTp p),
   (0x1005, 2 * planCmax p ≤ planCr p),
   (0x1006, ns (planCommit p) * 100 ≤ 4 * planTp p),
   (0x1007, sharesOk p), (0x1008, energyOk p), (0x1009, coresOk p), (0x100A, altListsOk cx p),
   (0x100B, checkpointFits cx p), (0x100C, groupsOk p), (0x100D, pixelRateOk p),
   (0x100E, planHostLink p ≤ 121000), (0x100F, hasSection p 0x0E),
   (0x1101, every mmFormatsOk && every convFormatsOk), (0x1102, every mmShapeOk),
   (0x1103, every needOk), (0x1104, slotsOk cx p), (0x1105, spots mmSpacesOk), (0x1106, each (eligibleOk p)),
   (0x1107, every modeOk && every attnPartOk), (0x1108, every gatherOk),
   (0x1181, each attnBodyOk), (0x1182, every attnFormatsOk), (0x1183, every attnLayoutOk),
   (0x1184, every lengthTableOk), (0x1185, every attnBufferOk), (0x1186, mergesOk cx p),
   (0x1187, every attnBackwardOk),
   (0x1201, programsOk cx p), (0x1202, every vecStreamsOk), (0x1203, every prologuesOk), (0x1204, statisticsOk cx p),
   (0x1205, slotRoundsOk cx p), (0x1206, every scansOk), (0x1209, each vecModeOk),
   (0x1301, tableSetOk p), (0x1303, banksOk p), (0x1304, epsilonOk p),
   (0x1401, streamTableOk p), (0x1402, every anchorsOk), (0x1403, every fillOk), (0x1404, streamsNamedOk cx p),
   (0x1405, each drawsOk),
   (0x1501, every geometryOk), (0x1502, every convLayoutOk), (0x1503, every stripesOk), (0x1504, every edgeFormatsOk),
   (0x1505, every edgeChannelsOk), (0x1506, every edgeBodyOk), (0x1507, every postBodyOk), (0x1508, every postShapeOk),
   (0x1509, each convModeOk),
   (0x1601, partsOk cx p && every collPartsOk), (0x1602, every conversionsOk && rndsOk p),
   (0x1701, indexOk cx p), (0x1703, eventNumbersOk cx p), (0x1704, regionsOk cx p && pixelSetsOk cx p), (0x1705, stagedOk cx p),
   (0x1706, each headOk), (0x1708, signalsOk cx p), (0x1709, listLengthOk cx p), (0x170A, descriptorsOk cx p),
   (0x170B, each (deadlineOk p)), (0x170C, waitsOk cx p), (0x170D, commitsOk cx p),
   (0x2101, regulatorsOk p), (0x2102, directoryOk others p), (0x2104, tierTensorsOk cx p), (0x2105, every moveOk),
   (0x2106, exchangesOk cx p), (0x2107, every gatherBodyOk), (0x2108, every tierReqOk), (0x2109, coverageOk cx p),
   (0x210A, orderedSlotsOk cx p),
   (0x3101, every collBodyOk), (0x3102, every collTensorsOk), (0x3103, every partnersOk && collOrderOk cx p), (0x3104, each collHeaderOk),
   (0x3106, every collEpilogueOk),
   (0x4101, declarationsOk p), (0x4102, each cirrusOk),
   (0x5101, profileFieldsOk p), (0x5102, storeOk p),
   (0x6101, clearOf p [(exchangeBase, exchangeSize)]),
   (0x7101, (mediaTables p).all fun t =>
     t.2.length == 384 && (List.range 6).all fun n => mediaEntryOk n (mediaRow t.2 n)),
   (0x7102, everyMedia p fun _ _ e => mediaSizeOk (planTp p) e),
   (0x7103, (mediaTables p).all fun t => mediaEnginesOk (planTp p) t.2),
   (0x7104, (mediaTables p).all fun t => mediaPoolOk t.2),
   (0x7105, everyMedia p fun _ _ e => mediaRateOk (planTp p) e),
   (0x7106, everyMedia p fun v _ e => mediaTensorsOk p v e),
   (0x8206, clearOf p (reservedRegions cx.layout))]

/-- The codes that a plan fails, in ascending order (R33): the format revision first and alone, then the header and the
section table alone, then everything. The pinned blocks of the image's plans are counted in order afterwards (R273). -/
def planFailures (cx : LoadContext) (others : List Plan) (raw : Bytes) : List Nat :=
  let p := parsePlan raw
  if planFormat p < 1 || fwPlanFormat cx.firmware < planFormat p then [0x1001]
  else if !planFormOk raw then [0x8205]
  else ((planChecks cx others p).filter fun q => !q.2).map (·.1)

end Sys2Proof.Machine
end

