-- ==== Sys2Proof/Machine/Dawn.lean ====
section
/-! DEFINITION. Dawn: the cold Dawn step by step (R370 to R376, R388 to R391, R419, R441), a step that overruns its bound
(R372), and the warm Dawn (R376, R40). Each is one command: its steps run in order at the instant of the command. -/

namespace Sys2Proof.Machine

/-! ### Codes of a Dawn -/

/-- A code of a Dawn: its event, and DAWN_CODE as the first class 0x8 code (R394). -/
def dawnRaise (code arg : Nat) (s : State) : State :=
  raise code arg { s with dawn := { s.dawn with
    code := if code / 4096 == 8 && s.dawn.code == 0 then code else s.dawn.code } }

/-- A Dawn that ends in Eclipse with a code (Table 14.3): enumeration opens, READY is low, FAULT_N asserted (R374). -/
def dawnEclipse (code arg : Nat) (s : State) : State :=
  let s := eclipseState (dawnRaise code arg s)
  { s with host := { s.host with enumOpen := true } }

/-- Whether the Dawn is still in progress. -/
def dawning (s : State) : Bool := s.dawn.phase == .cold

/-- A step of a Dawn, unless an earlier one ended it. -/
def dawnStep (f : State → State) (s : State) : State := if dawning s then f s else s

/-! ### Step 3 and 4: images (R381, R383, R390) -/

/-- The pending and trial marks of a kind. -/
def BootRecord.marks (r : BootRecord) (kind : Nat) : Bool × Bool :=
  if kind == 0 then (r.pending.1, r.tries.1) else (r.pending.2, r.tries.2)

/-- The active slot of a kind. -/
def BootRecord.slot (r : BootRecord) (kind : Nat) : Nat := if kind == 0 then r.active.1 else r.active.2

/-- A boot record with the marks of a kind replaced. -/
def BootRecord.withMarks (r : BootRecord) (kind : Nat) (pending tries : Bool) : BootRecord :=
  if kind == 0 then { r with pending := (pending, r.pending.2), tries := (tries, r.tries.2) }
  else { r with pending := (r.pending.1, pending), tries := (r.tries.1, tries) }

/-- A boot record with the active slot of a kind replaced. -/
def BootRecord.withSlot (r : BootRecord) (kind slot : Nat) : BootRecord :=
  if kind == 0 then { r with active := (slot, r.active.2) } else { r with active := (r.active.1, slot) }

/-- The marks of a kind written to the boot record. -/
def writeMarks (kind : Nat) (pending tries : Bool) (s : State) : State :=
  writeBoot ((bootRecord s.flash).withMarks kind pending tries) s

/-- Step 3 for a kind: a pending image's trial begins, or one that never reached READY is dropped with 0x8102 or 0x8202
(R390). -/
def beginTrial (kind : Nat) (s : State) : State := match (bootRecord s.flash).marks kind with
  | (true, false) => writeMarks kind true true s
  | (true, true) => dawnRaise (if kind == 0 then 0x8102 else 0x8202) 0 (writeMarks kind false false s)
  | _ => s

/-- Whether the image in a slot verifies. A plan image whose body header is invalid fails with 0x8204 (R383). -/
def slotVerifies (kind slot : Nat) (s : State) : Bool × State :=
  let img := slotImage s.flash kind slot
  let tr := if kind == 0 then trustOf img else runningTrust s
  if !verifyImage img kind s.flash tr then (false, s)
  else if kind == 1 && !bodyOk (imgBody img) then (false, dawnRaise 0x8204 0 s)
  else (true, s)

/-- The active slot, else, where `other` allows it, the other one, with 0x8101 or 0x8201 (R390); none if neither verifies. -/
def activeSlot (kind : Nat) (other : Bool) (s : State) : Option Nat × State :=
  let a := (bootRecord s.flash).slot kind
  let first := slotVerifies kind a s
  if first.1 then (some a, first.2)
  else if other then
    let second := slotVerifies kind (1 - a) first.2
    if second.1 then (some (1 - a), dawnRaise (if kind == 0 then 0x8101 else 0x8201) a second.2) else (none, second.2)
  else (none, first.2)

/-- The slot of a kind that the Dawn uses (R381, R390): `trial` says that step 3 began the trial of the pending slot. -/
def chooseSlot (kind : Nat) (trial : Bool) (s : State) : Option Nat × State :=
  if trial then
    let o := 1 - (bootRecord s.flash).slot kind
    match slotVerifies kind o s with
    | (true, s) => (some o, s)
    | (false, s) =>
      activeSlot kind false (dawnRaise (if kind == 0 then 0x8102 else 0x8202) 0 (writeMarks kind false false s))
  else activeSlot kind true s

/-- Recovery boot (R375): no firmware slot verifies, 0x8103. The mask ROM serves the identity; with no root keys at hand
the device certificate is held to match when its subject keys do (log 18). -/
def recoveryBoot (puf : Bytes) (s : State) : State :=
  let s := dawnRaise 0x8103 0 s
  let known := idCheck puf == s.flash.helper
  { s with
    dawn := { s.dawn with
      phase := .recoveryBoot, code := 0x8103, due := false, secret := if known then puf else [],
      certOk := known && s.flash.cert.take 4 == ascii "A7CT" && slice s.flash.cert 32 1984 == idPublic puf },
    job := { s.job with phase := .maintenance },
    host := { s.host with enumOpen := true },
    sideband := { s.sideband with ready := false, faultN := true } }

/-- Step 4 for the firmware: the slot that runs, or recovery boot. -/
def pickFirmware (trial : Bool) (puf : Bytes) (s : State) : State := match chooseSlot 0 trial s with
  | (none, s) => recoveryBoot puf s
  | (some n, s) =>
    let img := slotImage s.flash 0 n
    { s with dawn := { s.dawn with firmware := img, fwSlot := n, fwMeasure := measurement img } }

/-- Step 4 for the plan image: the slot in use, or no plans with 0x8203. -/
def pickPlanImage (trial : Bool) (s : State) : State := match chooseSlot 1 trial s with
  | (none, s) => dawnRaise 0x8203 0 s
  | (some n, s) =>
    let img := slotImage s.flash 1 n
    { s with dawn := { s.dawn with
        planImage := img, planSlot := n, planMeasure := measurement img, layout := bodyLayout (imgBody img) } }

/-- Step 4 for the safety parameter block: it verifies, or Eclipse with 0x8403. -/
def checkSafety (s : State) : State :=
  if verifyImage s.flash.safety 2 s.flash (runningTrust s) then
    { s with dawn := { s.dawn with safetyMeasure := measurement s.flash.safety } }
  else dawnEclipse 0x8403 0 s

/-! ### Steps 5 to 8 -/

/-- Step 5: the identity, or Eclipse with 0x8301; 0x8303 where the device certificate does not endorse it (R386, R387). -/
def deriveIdentity (puf : Bytes) (s : State) : State :=
  if idCheck puf == s.flash.helper then
    let ok := deviceCertOk s.flash (runningTrust s) puf
    let s := { s with dawn := { s.dawn with secret := puf, certOk := ok } }
    if ok then s else dawnRaise 0x8303 0 s
  else dawnEclipse 0x8301 0 s

/-- Step 6: the counters authenticate under the root key that K gives, or Eclipse with 0x8302 (R386, R388). `ok` is false where
a command fails for another reason. -/
def checkCounters (ok : Bool) (s : State) : State :=
  if ok && idCounterKey s.dawn.secret == s.flash.counterKey then s else dawnEclipse 0x8302 0 s

/-- A step that is retried once: 0x8406 reports a retry that succeeds, a second failure ends in Eclipse (R372). -/
def retried (step failures code arg : Nat) (s : State) : State := match failures with
  | 0 => s
  | 1 => dawnRaise 0x8406 step s
  | _ => dawnEclipse code arg s

/-- Step 7: HBM is trained and the Kenum ports begin training. -/
def trainMemory (failures : Nat) (s : State) : State :=
  dawnStep (fun s => { s with link := { s.link with ports := s.link.ports.map (·.withPhase .training) } })
    (retried 7 failures 0x8401 0 s)

/-! ### Step 9: plans, tables and pinned blocks -/

/-- The plan bytes of a body, in index order. -/
def bodyPlans (b : Bytes) : List Bytes := (List.range (bodyPlanCount b)).map (bodyPlan b)

/-- The codes of a plan with that of its pinned blocks, which would bring the total of the admissible plans before it over
24,576 entries or F - 1 frames (R273), in ascending order. -/
def codesWithPins (cx : LoadContext) (others : List Plan) (pinned : Nat) (raw : Bytes) : List Nat :=
  let codes := planFailures cx others raw
  let full := min 24576 (cx.layout.poolFrames - 1) < pinned + (pinnedEntries (parsePlan raw)).length
  if full && !codes.contains 0x1001 && !codes.contains 0x8205 then insertBy (fun a b => decide (a ≤ b)) 0x2103 codes
  else codes

/-- Plan i is admitted or not, each check that it fails reported with its index (R33). -/
def admitPlan (cx : LoadContext) (raws : List Bytes) (s : State) (i : Nat) : State :=
  let raw := raws.getD i []
  let others := ((raws.zipIdx).filter (·.2 != i)).map fun r => parsePlan r.1
  let codes := codesWithPins cx others s.tier.pinned raw
  let p := parsePlan raw
  let s := codes.foldl (fun s c => dawnRaise c i s) s
  { s with
    dawn := { s.dawn with plans := s.dawn.plans ++ [⟨p, codes.isEmpty, (bodyPlanRange (imgBody s.dawn.planImage) i).1⟩] },
    tier := { s.tier with
      pinned := if codes.isEmpty then s.tier.pinned + (pinnedEntries p).length else s.tier.pinned } }

/-- Plan-load admission of every plan of the image (R33). -/
def admitPlans (s : State) : State :=
  let raws := bodyPlans (imgBody s.dawn.planImage)
  let cx : LoadContext := ⟨s.dawn.firmware, s.dawn.layout⟩
  (List.range raws.length).foldl (admitPlan cx raws) s

/-- The body copied to both plan regions, and its digest recorded for a warm Dawn (R376, Table 14.9). -/
def copyBody (s : State) : State :=
  let b := imgBody s.dawn.planImage
  let s := s.writeMem .hbm s.dawn.layout.planBase0 b
  let s := s.writeMem .hbm s.dawn.layout.planBase1 b
  { s with dawn := { s.dawn with regionDigest := Config.sha384 b } }

/-- The admissible plans. -/
def admissiblePlans (s : State) : List Plan := (s.dawn.plans.filter (·.admissible)).map (·.plan)

/-- The initial contents of HBM that the admissible plans give (Table 14.12, type 0x11). -/
def copyContents (s : State) : State :=
  (admissiblePlans s).foldl (fun s p =>
    (p.sections.filter (·.type == 0x11)).foldl (fun s x =>
      s.writeMem .hbm (le x.content 0 8) (x.content.drop 8)) s) s

/-- The initial directory entries of a plan (R271). -/
def planEntries (p : Plan) : List (Nat × DirEntry) :=
  (List.range (planDirCount p)).map fun i =>
    let e := initialEntry p i
    (planDirFirst p + i, { fromWindow := bitAt (byteAt e 0) 2, pinned := bitAt (byteAt e 0) 1, segLen := le e 2 2,
                           src := le e 8 4, status := .absent, frame := 0, lastUse := 0 })

/-- A pinned entry is filled, with the one retry of R281. How long the fill takes is not part of the command: the time that
the estimator keeps is free (log 19). -/
def pinFill (s : State) (entry : Nat) : State :=
  let s := beginFill { s with tier := { s.tier with queue := [⟨0, 0, entry⟩] } }
  let s := endFill true [] s
  let s := if s.tier.fill.isSome then endFill true [] s else s
  let (v, s) := s.free
  { s with tier := { s.tier with
      queue := [], storeTimes := match s.tier.storeTimes with | _ :: r => v.toNat % 4294967296 :: r | [] => [] } }

/-- The pool, the directory and the pinned fills, in plan index order (R273). -/
def fillPinned (s : State) : State :=
  let plans := admissiblePlans s
  let s := fillBuckets { s with tier := { s.tier with
      frames := s.dawn.layout.poolFrames, entries := plans.flatMap planEntries } }
  (plans.flatMap pinnedEntries).foldl (fun s e => dawnStep (fun s => pinFill s e) s) s

/-- A bank as Dawn writes it: the A5 tables that the firmware carries, then the set of the lowest-numbered admissible plan
(Table 6.6). -/
def dawnBank (s : State) (b : FunctionBank) : FunctionBank :=
  { b with a5 := (List.range 9).map (Config.fwA5Table s.dawn.firmware) }.withSet
    (((admissiblePlans s).head?.map fun p => sectionOf p 0x08).getD [])

/-- The table step of Dawn: the inactive bank is written, read back and swapped in, and then the other is written alike, so
that both hold the A5 tables (R164, R165, R177). A read-back mismatch is reported with 0x4209 and no swap takes place. -/
def loadTables (ok : Bool) (s : State) : State :=
  let f := dawnBank s
  if ok then writeInactive f (swapBanks (writeInactive f s)) else dawnRaise 0x4209 0 (writeInactive f s)

/-- A frame-pulse tracker for every plan's period (R18). -/
def newTrackers (s : State) : State :=
  { s with tick := { s.tick with trackers := s.dawn.plans.map fun e => ⟨planTp e.plan, none, 0, false⟩ } }

/-- Step 9 with a plan image: copies, admission, tables, trackers, pinned fills. -/
def loadPlans (tablesOk : Bool) (s : State) : State :=
  if s.dawn.planImage.isEmpty then loadTables tablesOk s
  else fillPinned (newTrackers (loadTables tablesOk (copyContents (admitPlans (copyBody s)))))

/-! ### Step 10: the fault history (R415, R417, R419) -/

/-- Whether page sequence a is newer than b, modulo 2^32. -/
def newerPage (a b : Nat) : Bool := a != b && ptrDiff a b < 2147483648

/-- The newest valid page, with its number. -/
def newestPage (pages : List (Nat × Bytes)) : Option (Nat × Bytes) :=
  (pages.filter fun p => pageValid p.2).foldl (fun best p => match best with
    | none => some p
    | some b => if newerPage (le p.2 4 4) (le b.2 4 4) then some p else some b) none

/-- The history as the newest valid page gives it; a blank one without such a page. -/
def readHistory (bad : Bool) (s : State) : State := match (if bad then none else newestPage s.flash.pages) with
  | none => s
  | some (n, b) =>
    { s with integrity := { s.integrity with
        entries := (List.range (le b 12 2)).map fun i => histEntryOf (slice b (64 + 32 * i) 32),
        total := le b 20 4, permanent := bitAt (byteAt b 14) 0, permUnit := BitVec.ofNat 32 (le b 16 4),
        rule := byteAt b 15, pageSeq := le b 4 4, lastPage := some n, baseHours := le b 8 4 } }

/-- What the history leads to: 0x8404 where pages are present and none is valid, Eclipse with 0x4C02 for a permanent mark,
and the watch period below 24,000 millihours with 0x4402. -/
def judgeHistory (bad : Bool) (s : State) : State :=
  let none_ := bad || (newestPage s.flash.pages).isNone
  let s := if none_ && !s.flash.pages.isEmpty then dawnRaise 0x8404 0 s else s
  if s.integrity.permanent then dawnEclipse 0x4C02 0 s
  else if s.integrity.baseHours < 24000 then
    dawnRaise 0x4402 0 { s with integrity := { s.integrity with watch := true } }
  else s

/-! ### Steps 12 and 13 -/

/-- Stage 1 of R391: the slots in use are active, and nothing is pending. -/
def advanceBoot (s : State) : State :=
  let r := (bootRecord s.flash).withSlot 0 s.dawn.fwSlot
  let r := if s.dawn.planImage.isEmpty then r else r.withSlot 1 s.dawn.planSlot
  writeBoot ((r.withMarks 0 false false).withMarks 1 false false) s

/-- Stage 2 of R391: counters only rise (R388). -/
def raiseCounters (s : State) : State :=
  let f := s.flash
  { s with flash := { f with
      fwSvn := max f.fwSvn (imgSvn s.dawn.firmware),
      planSvn := if s.dawn.planImage.isEmpty then f.planSvn else max f.planSvn (imgSvn s.dawn.planImage),
      rootFloor := max f.rootFloor (imgFloor s.dawn.firmware) } }

/-- Step 11: the ports whose training completes come up, and the flits that arrive form the ring (R322, R371). A ring that is
not formed at the end goes on forming in IDLE. -/
def formRing (i : DawnInput) (s : State) : State :=
  i.linkFlits.foldl (fun s f => trainingFlit f.1 f.2.1 f.2.2.1 f.2.2.2 s)
    (i.portsUp.foldl (fun s n => bringUpPort n s) s)

/-- READY: the Dawn passes (R370). -/
def passDawn (s : State) : State :=
  let s := raiseCounters (advanceBoot s)
  { s with
    dawn := { s.dawn with phase := .passed, code := 0, due := false, overruns := 0 },
    host := { s.host with enumOpen := true },
    stratus := { s.stratus with driveCut := s.nimbus.valveLatch },
    integrity := { s.integrity with since := some s.now, lastWrite := s.now },
    sideband := { s.sideband with ready := true, faultN := false } }

/-! ### The cold Dawn (Table 14.1) -/

/-- Step 1: Stratus has tested both paths and sequences the rails (R438). Step 2: GA is sampled. -/
def powerRails (ga : BitVec 4) (s : State) : State :=
  { s with
    stratus := { s.stratus with phase := .on, stage := true, switch := true, pathsOk := true },
    dawn := { s.dawn with ga := ga } }

/-- The Cirrus key is drawn anew (R401). -/
def drawKey (s : State) : State :=
  let (k, s) := s.free
  { s with dawn := { s.dawn with cirrusKey := k } }

/-- Whether the boot record marks a pending image whose trial has not begun. -/
def trialDue (kind : Nat) (s : State) : Bool := (bootRecord s.flash).marks kind == (true, false)

/-- Steps 3 and 4: the boot record and every image. -/
def bootImages (puf : Bytes) (s : State) : State :=
  let fw := trialDue 0 s
  let pl := trialDue 1 s
  let s := beginTrial 1 (beginTrial 0 s)
  let s := pickFirmware fw puf s
  dawnStep checkSafety (dawnStep (pickPlanImage pl) s)

/-- The steps of a cold Dawn in order, each only while no earlier one has ended it (R371, R374). The history is read first,
so that an error counted by a pinned fill joins it. -/
def bringUp (i : DawnInput) (s : State) : State :=
  let s := readHistory i.historyBad (drawKey (powerRails i.ga s))
  let s := bootImages i.puf s
  let s := dawnStep (deriveIdentity i.puf) s
  let s := dawnStep (checkCounters i.countersOk) s
  let s := dawnStep (trainMemory i.trainFailures) s
  let s := dawnStep (retried 8 i.testFailures 0x8402 i.testUnit.toNat) s
  let s := dawnStep (loadPlans i.tablesOk) s
  let s := dawnStep (judgeHistory i.historyBad) s
  let s := dawnStep (formRing i) s
  dawnStep passDawn s

/-- One event for every trip not yet reported, oldest first, with SOURCE Stratus (R441). -/
def reportTrips (s : State) : State :=
  let s := s.stratus.trips.reverse.foldl (fun s e => if e.reported then s else raise e.code 0 s) s
  { s with stratus := { s.stratus with trips := s.stratus.trips.map fun e => { e with reported := true } } }

/-- COLD_DAWN: only a Dawn that passes reports the trips, before any event of its own (R441). A removal path that fails
its test leaves the rails off, with 0x5A0C (R438). -/
def coldDawn (i : DawnInput) (s : State) : State :=
  if !(s.dawn.phase == .cold && s.stratus.mpEnable) then s
  else if !i.pathsOk then trip 0x5A0C true s
  else
    let r := bringUp i s
    if r.dawn.phase == .passed then bringUp i (reportTrips s)
    else { r with dawn := { r.dawn with overruns := 0 }, host := { r.host with enumOpen := true } }

/-- The meaning of COLD_DAWN (R371). -/
def execColdDawn (t : Nat) (input : DawnInput) (s : State) : Host.Outcome State Fault Refusal :=
  .next (coldDawn input (s.arrive t))

/-! ### Overruns (R372) -/

/-- The flash as the steps before an overrun left it: the trials of step 3 and the drops of step 4 stay (R390). -/
def flashBefore (step : Nat) (s : State) : Flash :=
  let begun := beginTrial 1 (beginTrial 0 s)
  if step ≤ 3 then s.flash
  else if step == 4 then begun.flash
  else (bootImages [] s).flash

/-- DAWN_STEP_OVERRUN: FAULT_N and one further cold Dawn; a second overrun ends in Eclipse with 0x8405 (R372). An overrun
of a warm Dawn is a second forced reset (R376). -/
def dawnOverrun (step : Nat) (s : State) : State := match s.dawn.phase with
  | .cold =>
    let s := { s with flash := flashBefore step s }
    if s.dawn.overruns == 0 then
      let s := coldReset { s with dawn := { s.dawn with overruns := 1 } }
      { s with sideband := { s.sideband with faultN := true } }
    else dawnEclipse 0x8405 0 { s with dawn := { s.dawn with overruns := 0 } }
  | .warm =>
    let s := coldReset s
    { s with sideband := { s.sideband with faultN := true } }
  | _ => s

/-- The meaning of DAWN_STEP_OVERRUN (R372). -/
def execDawnStepOverrun (t step : Nat) (s : State) : Host.Outcome State Fault Refusal :=
  .next (dawnOverrun step (s.arrive t))

/-! ### The warm Dawn (R376) -/

/-- The checks of a warm Dawn: the firmware's measurement, both plan region copies, the self-test of the management
processor, the tables. -/
def warmChecks (selfTestOk tablesOk : Bool) (s : State) : Bool :=
  let img := slotImage s.flash 0 ((bootRecord s.flash).slot 0)
  let n := (imgBody s.dawn.planImage).length
  let same := fun a => Config.sha384 (s.readMem .hbm a n) == s.dawn.regionDigest
  measurement img == s.dawn.fwMeasure && same s.dawn.layout.planBase0 && same s.dawn.layout.planBase1
    && selfTestOk && tablesOk

/-- The records of the slots that passed during the reset (R40). -/
def missedRecords : Nat → State → State
  | 0, s => s
  | fuel + 1, s =>
    let m := s.job.nextSlot
    if m < s.tick.index || (m == s.tick.index && s.tick.boundary + ms 2 ≤ s.now) then missedRecords fuel (deliver s) else s

/-- The warm Dawn completes: tables reloaded, valve drive returned, a new Cirrus key, the Compute partition and a reset of
the Host partition complete, in-band interrupts raised again, and the missed records written (R40, R401, R413, R439). -/
def passWarm (s : State) : State :=
  let s := drawKey (loadBank true (·.withSet (storedSet s)) s)
  let s := { s with
    dawn := { s.dawn with phase := .passed, due := false, warmSince := true },
    stratus := { s.stratus with driveCut := s.nimbus.valveLatch },
    sideband := { s.sideband with refusedAt := none },
    link := { s.link with ports := s.link.ports.map (·.withPhase .training) } }
  let s := endReset 4 s
  endComputeReset (missedRecords (s.tick.index + 1 - s.job.nextSlot) s)

/-- WARM_DAWN: a check that fails makes the Dawn cold, and the job is lost (R376). -/
def warmDawn (selfTestOk tablesOk : Bool) (s : State) : State :=
  if s.dawn.phase != .warm then s
  else if warmChecks selfTestOk tablesOk s then passWarm s
  else coldReset s

/-- The meaning of WARM_DAWN (R376). -/
def execWarmDawn (t : Nat) (selfTestOk tablesOk : Bool) (s : State) : Host.Outcome State Fault Refusal :=
  .next (warmDawn selfTestOk tablesOk (s.arrive t))

end Sys2Proof.Machine
end

