-- ==== Sys2Proof/Machine/Sideband.lean ====
section
/-! DEFINITION. The I3C sideband (R454 to R456): dynamic addresses, the commands of the two targets, and the in-band
interrupts of the management target. What a read returns is left in State.host.readData. -/

namespace Sys2Proof.Machine

/-! ### The targets (R454) -/

/-- Whether a target is powered and answers: Stratus with its supply, the management target after a Dawn has passed and not
during a cold or a warm one (R454, R376). -/
def targetAnswers (s : State) : Target → Bool
  | .stratus => s.stratus.supply
  | .management => s.stratus.supply && s.integrity.since.isSome
      && (s.dawn.phase == .passed || s.dawn.phase == .eclipse)

/-- The static address of a target, from the GA of Dawn step 2 (R454). -/
def staticAddress (s : State) : Target → Nat
  | .management => 0x40 + s.dawn.ga.toNat
  | .stratus => 0x20 + s.dawn.ga.toNat

/-- A target keeps a dynamic address. -/
def setDynamic (target : Target) (address : BitVec 7) (s : State) : State :=
  if targetAnswers s target then match target with
    | .management => { s with sideband := { s.sideband with dynManagement := some address } }
    | .stratus => { s with sideband := { s.sideband with dynStratus := some address } }
  else s

/-- The meaning of I3C_SETDASA (R454). -/
def execI3cSetdasa (t : Nat) (target : Target) (address : BitVec 7) (s : State) : Host.Outcome State Fault Refusal :=
  .next (setDynamic target address (s.arrive t))

/-- The meaning of I3C_ENTDAA (R454). -/
def execI3cEntdaa (t : Nat) (target : Target) (address : BitVec 7) (s : State) : Host.Outcome State Fault Refusal :=
  .next (setDynamic target address (s.arrive t))

/-! ### Commands (Table 17.6) -/

/-- A target that answers returns bytes; one that does not acknowledges nothing, and nothing is read. -/
def answer (target : Target) (b : Bytes) (s : State) : State :=
  { s with host := { s.host with readData := if targetAnswers s target then b else [] } }

/-- The meaning of I3C_STATUS (R455): ID_STATUS, then JOB_STATE. -/
def execI3cStatus (t : Nat) (s : State) : Host.Outcome State Fault Refusal :=
  let s := s.arrive t
  .next (answer .management (toLe 4 (regIdStatus s) ++ toLe 4 (regJobState s)) s)

/-- The oldest unread out-of-band record is read (R456). -/
def dropRecord (s : State) : State :=
  { s with sideband := { s.sideband with queue := s.sideband.queue.drop 1, refusedAt := none } }

/-- The meaning of I3C_EVENT (R455): the oldest unread out-of-band record, which the read removes; zeros if none. -/
def execI3cEvent (t : Nat) (s : State) : Host.Outcome State Fault Refusal :=
  let s := s.arrive t
  .next (match s.sideband.queue with
    | [] => answer .management (zeros 32) s
    | e :: _ =>
      if targetAnswers s .management then answer .management e.bytes (dropRecord s)
      else answer .management [] s)

/-- The meaning of I3C_TELEMETRY (R455): PWR_INPUT, PWR_POWER, THM_COOLANT, THM_JUNCTION. -/
def execI3cTelemetry (t : Nat) (s : State) : Host.Outcome State Fault Refusal :=
  let s := s.arrive t
  .next (answer .management (toLe 4 (regPwrInput s) ++ toLe 4 (regPwrPower s) ++ toLe 4 (regThmCoolant s)
    ++ toLe 4 (regThmJunction s)) s)

/-- The code of SAFETY: 0x5D01 while R440 holds Dawn, else the newest trip code, or 0. -/
def safetyCode (s : State) : Nat :=
  if s.stratus.holdCode != 0 then s.stratus.holdCode else (s.stratus.trips.head?.map (·.code)).getD 0

/-- The state byte of SAFETY. -/
def StratusPhase.code : StratusPhase → Nat
  | .standby => 0 | .on => 1 | .safe => 2

/-- The meaning of I3C_SAFETY (R455): SAF_STATUS, the code, the state, a reserved byte. -/
def execI3cSafety (t : Nat) (s : State) : Host.Outcome State Fault Refusal :=
  let s := s.arrive t
  .next (answer .stratus (toLe 4 (safStatus s) ++ toLe 2 (safetyCode s) ++ toLe 1 s.stratus.phase.code ++ zeros 1) s)

/-- A trip entry as bytes (Table 17.7). -/
def tripBytes (s : State) (e : TripEntry) : Bytes :=
  let r := e.readings
  let b := toLe 2 e.code ++ zeros 2 ++ toLe 4 (min 4294967295 ((s.now - e.moment) / sec 1))
    ++ toLe 2 (max r.current.1 r.current.2) ++ toLe 2 (severeVoltage r.voltage) ++ toLe 2 (half (hottest r))
    ++ toLe 2 (half (hotter r.outlet)) ++ toLe 2 (half (hotter r.inlet)) ++ toLe 2 (half (hotter r.connector))
    ++ toLe 1 (severeValve r.valve e.command) ++ zeros 7
  b ++ toLe 4 (crc32c b)

/-- An empty trip entry: CODE 0 and the other fields 0 with their CRC. -/
def emptyTrip : Bytes := zeros 28 ++ toLe 4 (crc32c (zeros 28))

/-- The meaning of I3C_TRIP (R455): the stored entry, 0 the newest; an argument above 15 is no command of the table. -/
def execI3cTrip (t arg : Nat) (s : State) : Host.Outcome State Fault Refusal :=
  let s := s.arrive t
  .next (answer .stratus (if 15 < arg then List.replicate 32 0xFF else match s.stratus.trips[arg]? with
    | some e => tripBytes s e
    | none => emptyTrip) s)

/-- The meaning of I3C_UNKNOWN_COMMAND (R455): 0xFF bytes, 32 of them here. -/
def execI3cUnknownCommand (t : Nat) (target : Target) (s : State) : Host.Outcome State Fault Refusal :=
  .next (answer target (List.replicate 32 0xFF) (s.arrive t))

/-! ### In-band interrupts (R456) -/

/-- What an in-band interrupt carries: 0xA7, then the record, up to the maximum read length once it is set. -/
def interruptBytes (s : State) (e : EventRec) : Bytes :=
  let b : Bytes := 0xA7 :: e.bytes
  if s.sideband.maxRead == 0 then b else b.take s.sideband.maxRead

/-- The meaning of IN_BAND_INTERRUPT_RETRY (R456): the oldest waiting record is raised, at once or 10 ms after a refusal; an
accepted one counts as read. -/
def execInBandInterruptRetry (t : Nat) (accepted : Bool) (s : State) : Host.Outcome State Fault Refusal :=
  let s := s.arrive t
  let due := match s.sideband.refusedAt with | some a => a + ms 10 ≤ s.now | none => true
  .next (match s.sideband.queue with
    | [] => s
    | e :: _ =>
      if targetAnswers s .management && due then
        if accepted then answer .management (interruptBytes s e) (dropRecord s)
        else { s with sideband := { s.sideband with refusedAt := some s.now } }
      else s)

/-- The meaning of I3C_SETMRL (R456). -/
def execI3cSetmrl (t : Nat) (value : BitVec 16) (s : State) : Host.Outcome State Fault Refusal :=
  let s := s.arrive t
  .next (if targetAnswers s .management then { s with sideband := { s.sideband with maxRead := value.toNat } } else s)

end Sys2Proof.Machine
end

