-- ==== Sys2Proof/Machine/Dispatch.lean ====
section
/-! DEFINITION. The dispatch: one arm per command, each one direct call of its meaning. -/

namespace Sys2Proof.Machine

/-- The effect of a command on everything but the queue. -/
def exec (i : Instr) (s : State) : Host.Outcome State Fault Refusal :=
  match i with
  | .framePulseEdge t => Sys2Proof.Machine.execFramePulseEdge t s
  | .wordClockEdge t inTolerance => Sys2Proof.Machine.execWordClockEdge t inTolerance s
  | .internalBoundary t => Sys2Proof.Machine.execInternalBoundary t s
  | .flywheelBoundary t => Sys2Proof.Machine.execFlywheelBoundary t s
  | .boundaryForwardTimeout t => Sys2Proof.Machine.execBoundaryForwardTimeout t s
  | .lockLossTimeout t => Sys2Proof.Machine.execLockLossTimeout t s
  | .wordClockLock rate => Sys2Proof.Machine.execWordClockLock rate s
  | .wordClockUnlock rate => Sys2Proof.Machine.execWordClockUnlock rate s
  | .computeCutoff t => Sys2Proof.Machine.execComputeCutoff t s
  | .tickCommitDeadline t => Sys2Proof.Machine.execTickCommitDeadline t s
  | .tickCommit t => Sys2Proof.Machine.execTickCommit t s
  | .deliverySlot t => Sys2Proof.Machine.execDeliverySlot t s
  | .drainEnd t => Sys2Proof.Machine.execDrainEnd t s
  | .recoveryComplete t selfTestOk tablesOk => Sys2Proof.Machine.execRecoveryComplete t selfTestOk tablesOk s
  | .recoveryTimeout t => Sys2Proof.Machine.execRecoveryTimeout t s
  | .tileMm t core => Sys2Proof.Machine.execTileMm t core s
  | .tileConv t core => Sys2Proof.Machine.execTileConv t core s
  | .forward t core => Sys2Proof.Machine.execForward t core s
  | .attnPart t core => Sys2Proof.Machine.execAttnPart t core s
  | .merge t core => Sys2Proof.Machine.execMerge t core s
  | .bwdDq t core => Sys2Proof.Machine.execBwdDq t core s
  | .bwdDk t core => Sys2Proof.Machine.execBwdDk t core s
  | .bwdDv t core => Sys2Proof.Machine.execBwdDv t core s
  | .map t core => Sys2Proof.Machine.execMap t core s
  | .scan t core => Sys2Proof.Machine.execScan t core s
  | .reduce t core => Sys2Proof.Machine.execReduce t core s
  | .copy t core host => Sys2Proof.Machine.execCopy t core host s
  | .convert t core host => Sys2Proof.Machine.execConvert t core host s
  | .atomicIadd t core => Sys2Proof.Machine.execAtomicIadd t core s
  | .atomicSmin t core => Sys2Proof.Machine.execAtomicSmin t core s
  | .atomicSmax t core => Sys2Proof.Machine.execAtomicSmax t core s
  | .atomicUmin t core => Sys2Proof.Machine.execAtomicUmin t core s
  | .atomicUmax t core => Sys2Proof.Machine.execAtomicUmax t core s
  | .atomicAnd t core => Sys2Proof.Machine.execAtomicAnd t core s
  | .atomicOr t core => Sys2Proof.Machine.execAtomicOr t core s
  | .atomicXor t core => Sys2Proof.Machine.execAtomicXor t core s
  | .exch t core => Sys2Proof.Machine.execExch t core s
  | .cas t core => Sys2Proof.Machine.execCas t core s
  | .fsumAdd t core => Sys2Proof.Machine.execFsumAdd t core s
  | .fsumRead t core => Sys2Proof.Machine.execFsumRead t core s
  | .gather t core => Sys2Proof.Machine.execGather t core s
  | .allreduce t core => Sys2Proof.Machine.execAllreduce t core s
  | .reduceScatter t core => Sys2Proof.Machine.execReduceScatter t core s
  | .collReduce t core => Sys2Proof.Machine.execCollReduce t core s
  | .shift t core => Sys2Proof.Machine.execShift t core s
  | .broadcast t core => Sys2Proof.Machine.execBroadcast t core s
  | .allgather t core => Sys2Proof.Machine.execAllgather t core s
  | .collGather t core => Sys2Proof.Machine.execCollGather t core s
  | .wait t core => Sys2Proof.Machine.execWait t core s
  | .signal t core => Sys2Proof.Machine.execSignal t core s
  | .commit t core => Sys2Proof.Machine.execCommit t core s
  | .tierReq t core => Sys2Proof.Machine.execTierReq t core s
  | .convolution t core => Sys2Proof.Machine.execConvolution t core s
  | .maximumPool t core => Sys2Proof.Machine.execMaximumPool t core s
  | .averagePool t core => Sys2Proof.Machine.execAveragePool t core s
  | .bilinearResampling t core => Sys2Proof.Machine.execBilinearResampling t core s
  | .argmax t core => Sys2Proof.Machine.execArgmax t core s
  | .topK t core => Sys2Proof.Machine.execTopK t core s
  | .rngFill t core => Sys2Proof.Machine.execRngFill t core s
  | .commandFinish t core idx err => Sys2Proof.Machine.execCommandFinish t core idx err s
  | .commandDeadline t core idx => Sys2Proof.Machine.execCommandDeadline t core idx s
  | .cirrusCompare t core idx err => Sys2Proof.Machine.execCirrusCompare t core idx err s
  | .cirrusArbitration t core idx err => Sys2Proof.Machine.execCirrusArbitration t core idx err s
  | .parityFault t core idx duplicate => Sys2Proof.Machine.execParityFault t core idx duplicate s
  | .eccCorrected t kind partition => Sys2Proof.Machine.execEccCorrected t kind partition s
  | .uncorrectableError t kind unit site => Sys2Proof.Machine.execUncorrectableError t kind unit site s
  | .mpLockstepFault t => Sys2Proof.Machine.execMpLockstepFault t s
  | .clockLockLoss t loop => Sys2Proof.Machine.execClockLockLoss t loop s
  | .partitionFault t partition unit site => Sys2Proof.Machine.execPartitionFault t partition unit site s
  | .historyWrite t ok => Sys2Proof.Machine.execHistoryWrite t ok s
  | .watchPeriodEnd t => Sys2Proof.Machine.execWatchPeriodEnd t s
  | .fillStart t => Sys2Proof.Machine.execFillStart t s
  | .fillComplete t ok host => Sys2Proof.Machine.execFillComplete t ok host s
  | .accessUnitStaged t entry frame tick => Sys2Proof.Machine.execAccessUnitStaged t entry frame tick s
  | .decodedPictureStaged t entry frame tick set => Sys2Proof.Machine.execDecodedPictureStaged t entry frame tick set s
  | .data t port flit errors => Sys2Proof.Machine.execData t port flit errors s
  | .part t port flit errors => Sys2Proof.Machine.execPart t port flit errors s
  | .clear t port flit errors => Sys2Proof.Machine.execClear t port flit errors s
  | .done t port flit errors => Sys2Proof.Machine.execDone t port flit errors s
  | .tick t port flit errors => Sys2Proof.Machine.execTick t port flit errors s
  | .ready t port flit errors => Sys2Proof.Machine.execReady t port flit errors s
  | .abort t port flit errors => Sys2Proof.Machine.execAbort t port flit errors s
  | .resume t port flit errors => Sys2Proof.Machine.execResume t port flit errors s
  | .request t port flit errors => Sys2Proof.Machine.execRequest t port flit errors s
  | .ident t port flit errors delayNs => Sys2Proof.Machine.execIdent t port flit errors delayNs s
  | .probe t port flit errors => Sys2Proof.Machine.execProbe t port flit errors s
  | .idleFlit t port flit errors => Sys2Proof.Machine.execIdleFlit t port flit errors s
  | .nak t port flit errors => Sys2Proof.Machine.execNak t port flit errors s
  | .replayStallTimeout t port => Sys2Proof.Machine.execReplayStallTimeout t port s
  | .fecLockLoss t port lane => Sys2Proof.Machine.execFecLockLoss t port lane s
  | .portUp t port => Sys2Proof.Machine.execPortUp t port s
  | .portTrainingTimeout t port => Sys2Proof.Machine.execPortTrainingTimeout t port s
  | .readyTimeout t => Sys2Proof.Machine.execReadyTimeout t s
  | .ringRestored t => Sys2Proof.Machine.execRingRestored t s
  | .ringRecoveryTimeout t => Sys2Proof.Machine.execRingRecoveryTimeout t s
  | .ringT0Decision digests => Sys2Proof.Machine.execRingT0Decision digests s
  | .jobStart t req input => Sys2Proof.Machine.execJobStart t req input s
  | .jobEnd t req => Sys2Proof.Machine.execJobEnd t req s
  | .jobPreempt t req => Sys2Proof.Machine.execJobPreempt t req s
  | .jobAbort t req => Sys2Proof.Machine.execJobAbort t req s
  | .keyframe t req => Sys2Proof.Machine.execKeyframe t req s
  | .splitExact t req => Sys2Proof.Machine.execSplitExact t req s
  | .maintEnter t req => Sys2Proof.Machine.execMaintEnter t req s
  | .maintExit t req => Sys2Proof.Machine.execMaintExit t req s
  | .storeWrite t req => Sys2Proof.Machine.execStoreWrite t req s
  | .tableLoad t req window => Sys2Proof.Machine.execTableLoad t req window s
  | .selftest t req window => Sys2Proof.Machine.execSelftest t req window s
  | .attest t req => Sys2Proof.Machine.execAttest t req s
  | .stageImage t req flashOk authOk => Sys2Proof.Machine.execStageImage t req flashOk authOk s
  | .telemetry t req => Sys2Proof.Machine.execTelemetry t req s
  | .historyRead t req => Sys2Proof.Machine.execHistoryRead t req s
  | .moduleReset t req => Sys2Proof.Machine.execModuleReset t req s
  | .mailboxUnknownOpcode t req => Sys2Proof.Machine.execMailboxUnknownOpcode t req s
  | .inputRecord t record payloads => Sys2Proof.Machine.execInputRecord t record payloads s
  | .hqInTail t value => Sys2Proof.Machine.execHqInTail t value s
  | .hqOutHead t value => Sys2Proof.Machine.execHqOutHead t value s
  | .hqDataHead t value => Sys2Proof.Machine.execHqDataHead t value s
  | .mbxReqTail t value => Sys2Proof.Machine.execMbxReqTail t value s
  | .mbxRspHead t value => Sys2Proof.Machine.execMbxRspHead t value s
  | .evtHead t value => Sys2Proof.Machine.execEvtHead t value s
  | .hqBase t ring value => Sys2Proof.Machine.execHqBase t ring value s
  | .hqSize t ring value => Sys2Proof.Machine.execHqSize t ring value s
  | .hqStatusBase t value => Sys2Proof.Machine.execHqStatusBase t value s
  | .ringEnable t ring => Sys2Proof.Machine.execRingEnable t ring s
  | .ringDisable t ring => Sys2Proof.Machine.execRingDisable t ring s
  | .registerWrite t addr data => Sys2Proof.Machine.execRegisterWrite t addr data s
  | .unsupportedBar0Access t offset size write => Sys2Proof.Machine.execUnsupportedBar0Access t offset size write s
  | .register64LowRead t read => Sys2Proof.Machine.execRegister64LowRead t read s
  | .errEntryRead t n => Sys2Proof.Machine.execErrEntryRead t n s
  | .msixSignal t vector => Sys2Proof.Machine.execMsixSignal t vector s
  | .dmaCompletionError t ring => Sys2Proof.Machine.execDmaCompletionError t ring s
  | .configurationRequest offset => Sys2Proof.Machine.execConfigurationRequest offset s
  | .functionLevelReset t => Sys2Proof.Machine.execFunctionLevelReset t s
  | .flrComplete t => Sys2Proof.Machine.execFlrComplete t s
  | .conventionalReset t => Sys2Proof.Machine.execConventionalReset t s
  | .pcieLinkLoss t => Sys2Proof.Machine.execPcieLinkLoss t s
  | .pwrEnAssert vinOk => Sys2Proof.Machine.execPwrEnAssert vinOk s
  | .pwrEnDeassert t => Sys2Proof.Machine.execPwrEnDeassert t s
  | .senseNOpen t => Sys2Proof.Machine.execSenseNOpen t s
  | .senseNClosed t => Sys2Proof.Machine.execSenseNClosed t s
  | .coldDawn t input => Sys2Proof.Machine.execColdDawn t input s
  | .dawnStepOverrun t step => Sys2Proof.Machine.execDawnStepOverrun t step s
  | .warmDawn t selfTestOk tablesOk => Sys2Proof.Machine.execWarmDawn t selfTestOk tablesOk s
  | .stratusTrip t input => Sys2Proof.Machine.execStratusTrip t input s
  | .hwOvercurrentTrip t => Sys2Proof.Machine.execHwOvercurrentTrip t s
  | .powerStageConducting t => Sys2Proof.Machine.execPowerStageConducting t s
  | .safeStateExit readings => Sys2Proof.Machine.execSafeStateExit readings s
  | .sensorImplausible t pair => Sys2Proof.Machine.execSensorImplausible t pair s
  | .nimbusSample t readings => Sys2Proof.Machine.execNimbusSample t readings s
  | .valveCommandUpdate t => Sys2Proof.Machine.execValveCommandUpdate t s
  | .nimbusDuskRequest t code => Sys2Proof.Machine.execNimbusDuskRequest t code s
  | .watchdogService t seq crcOk => Sys2Proof.Machine.execWatchdogService t seq crcOk s
  | .watchdogMiss t => Sys2Proof.Machine.execWatchdogMiss t s
  | .stratusAnswerMissing t => Sys2Proof.Machine.execStratusAnswerMissing t s
  | .i3cSetdasa t target address => Sys2Proof.Machine.execI3cSetdasa t target address s
  | .i3cEntdaa t target address => Sys2Proof.Machine.execI3cEntdaa t target address s
  | .i3cStatus t => Sys2Proof.Machine.execI3cStatus t s
  | .i3cEvent t => Sys2Proof.Machine.execI3cEvent t s
  | .i3cTelemetry t => Sys2Proof.Machine.execI3cTelemetry t s
  | .i3cSafety t => Sys2Proof.Machine.execI3cSafety t s
  | .i3cTrip t arg => Sys2Proof.Machine.execI3cTrip t arg s
  | .i3cUnknownCommand t target => Sys2Proof.Machine.execI3cUnknownCommand t target s
  | .inBandInterruptRetry t accepted => Sys2Proof.Machine.execInBandInterruptRetry t accepted s
  | .partitionResetComplete t partition => Sys2Proof.Machine.execPartitionResetComplete t partition s
  | .memberDuskCause t position code => Sys2Proof.Machine.execMemberDuskCause t position code s
  | .newestCommittedTickReport t position tick restored => Sys2Proof.Machine.execNewestCommittedTickReport t position tick restored s
  | .stratusSupplyLoss t => Sys2Proof.Machine.execStratusSupplyLoss t s
  | .stratusSupplyReturn t pins vinOk => Sys2Proof.Machine.execStratusSupplyReturn t pins vinOk s
  | .perstNDeassert t => Sys2Proof.Machine.execPerstNDeassert t s
  | .pcieLinkTrained t mbps => Sys2Proof.Machine.execPcieLinkTrained t mbps s
  | .register64HighRead t offset => Sys2Proof.Machine.execRegister64HighRead t offset s
  | .errEntryLastRead t n => Sys2Proof.Machine.execErrEntryLastRead t n s
  | .i3cSetmrl t value => Sys2Proof.Machine.execI3cSetmrl t value s

end Sys2Proof.Machine
end

