-- ==== Sys2Proof/Safety.lean ====
section
/-! DEFINITION. The terms the statements use: what a state of the block must satisfy to be a state of the hardware, and
when a command reaches it. -/

namespace Sys2Proof

/-- The instant at which a command reaches the block or its event occurs. -/
def Instr.time : Instr → Time
  | .framePulseEdge t => t
  | .wordClockEdge t _ => t
  | .internalBoundary t => t
  | .flywheelBoundary t => t
  | .boundaryForwardTimeout t => t
  | .lockLossTimeout t => t
  | .wordClockLock r => r.time
  | .wordClockUnlock r => r.time
  | .computeCutoff t => t
  | .tickCommitDeadline t => t
  | .tickCommit t => t
  | .deliverySlot t => t
  | .drainEnd t => t
  | .recoveryComplete t _ _ => t
  | .recoveryTimeout t => t
  | .tileMm t _ => t
  | .tileConv t _ => t
  | .forward t _ => t
  | .attnPart t _ => t
  | .merge t _ => t
  | .bwdDq t _ => t
  | .bwdDk t _ => t
  | .bwdDv t _ => t
  | .map t _ => t
  | .scan t _ => t
  | .reduce t _ => t
  | .copy t _ _ => t
  | .convert t _ _ => t
  | .atomicIadd t _ => t
  | .atomicSmin t _ => t
  | .atomicSmax t _ => t
  | .atomicUmin t _ => t
  | .atomicUmax t _ => t
  | .atomicAnd t _ => t
  | .atomicOr t _ => t
  | .atomicXor t _ => t
  | .exch t _ => t
  | .cas t _ => t
  | .fsumAdd t _ => t
  | .fsumRead t _ => t
  | .gather t _ => t
  | .allreduce t _ => t
  | .reduceScatter t _ => t
  | .collReduce t _ => t
  | .shift t _ => t
  | .broadcast t _ => t
  | .allgather t _ => t
  | .collGather t _ => t
  | .wait t _ => t
  | .signal t _ => t
  | .commit t _ => t
  | .tierReq t _ => t
  | .convolution t _ => t
  | .maximumPool t _ => t
  | .averagePool t _ => t
  | .bilinearResampling t _ => t
  | .argmax t _ => t
  | .topK t _ => t
  | .rngFill t _ => t
  | .commandFinish t _ _ _ => t
  | .commandDeadline t _ _ => t
  | .cirrusCompare t _ _ _ => t
  | .cirrusArbitration t _ _ _ => t
  | .parityFault t _ _ _ => t
  | .eccCorrected t _ _ => t
  | .uncorrectableError t _ _ _ => t
  | .mpLockstepFault t => t
  | .clockLockLoss t _ => t
  | .partitionFault t _ _ _ => t
  | .historyWrite t _ => t
  | .watchPeriodEnd t => t
  | .fillStart t => t
  | .fillComplete t _ _ => t
  | .accessUnitStaged t _ _ _ => t
  | .decodedPictureStaged t _ _ _ _ => t
  | .data t _ _ _ => t
  | .part t _ _ _ => t
  | .clear t _ _ _ => t
  | .done t _ _ _ => t
  | .tick t _ _ _ => t
  | .ready t _ _ _ => t
  | .abort t _ _ _ => t
  | .resume t _ _ _ => t
  | .request t _ _ _ => t
  | .ident t _ _ _ _ => t
  | .probe t _ _ _ => t
  | .idleFlit t _ _ _ => t
  | .nak t _ _ _ => t
  | .replayStallTimeout t _ => t
  | .fecLockLoss t _ _ => t
  | .portUp t _ => t
  | .portTrainingTimeout t _ => t
  | .readyTimeout t => t
  | .ringRestored t => t
  | .ringRecoveryTimeout t => t
  | .ringT0Decision d => d.time
  | .jobStart t _ _ => t
  | .jobEnd t _ => t
  | .jobPreempt t _ => t
  | .jobAbort t _ => t
  | .keyframe t _ => t
  | .splitExact t _ => t
  | .maintEnter t _ => t
  | .maintExit t _ => t
  | .storeWrite t _ => t
  | .tableLoad t _ _ => t
  | .selftest t _ _ => t
  | .attest t _ => t
  | .stageImage t _ _ _ => t
  | .telemetry t _ => t
  | .historyRead t _ => t
  | .moduleReset t _ => t
  | .mailboxUnknownOpcode t _ => t
  | .inputRecord t _ _ => t
  | .hqInTail t _ => t
  | .hqOutHead t _ => t
  | .hqDataHead t _ => t
  | .mbxReqTail t _ => t
  | .mbxRspHead t _ => t
  | .evtHead t _ => t
  | .hqBase t _ _ => t
  | .hqSize t _ _ => t
  | .hqStatusBase t _ => t
  | .ringEnable t _ => t
  | .ringDisable t _ => t
  | .registerWrite t _ _ => t
  | .unsupportedBar0Access t _ _ _ => t
  | .register64LowRead t _ => t
  | .errEntryRead t _ => t
  | .msixSignal t _ => t
  | .dmaCompletionError t _ => t
  | .configurationRequest o => o.time
  | .functionLevelReset t => t
  | .flrComplete t => t
  | .conventionalReset t => t
  | .pcieLinkLoss t => t
  | .pwrEnAssert v => v.time
  | .pwrEnDeassert t => t
  | .senseNOpen t => t
  | .senseNClosed t => t
  | .coldDawn t _ => t
  | .dawnStepOverrun t _ => t
  | .warmDawn t _ _ => t
  | .stratusTrip t _ => t
  | .hwOvercurrentTrip t => t
  | .powerStageConducting t => t
  | .safeStateExit r => r.time
  | .sensorImplausible t _ => t
  | .nimbusSample t _ => t
  | .valveCommandUpdate t => t
  | .nimbusDuskRequest t _ => t
  | .watchdogService t _ _ => t
  | .watchdogMiss t => t
  | .stratusAnswerMissing t => t
  | .i3cSetdasa t _ _ => t
  | .i3cEntdaa t _ _ => t
  | .i3cStatus t => t
  | .i3cEvent t => t
  | .i3cTelemetry t => t
  | .i3cSafety t => t
  | .i3cTrip t _ => t
  | .i3cUnknownCommand t _ => t
  | .inBandInterruptRetry t _ => t
  | .partitionResetComplete t _ => t
  | .memberDuskCause t _ _ => t
  | .newestCommittedTickReport t _ _ _ => t
  | .stratusSupplyLoss t => t
  | .stratusSupplyReturn t _ _ => t
  | .perstNDeassert t => t
  | .pcieLinkTrained t _ => t
  | .register64HighRead t _ => t
  | .errEntryLastRead t _ => t
  | .i3cSetmrl t _ => t

/-- The commands that can act on the power of the module or begin or end a Dawn. -/
def Instr.restarts : Instr → Bool
  | .mpLockstepFault .. | .clockLockLoss .. | .moduleReset .. | .pwrEnAssert .. | .pwrEnDeassert ..
  | .senseNOpen .. | .senseNClosed .. | .coldDawn .. | .dawnStepOverrun .. | .warmDawn .. | .stratusTrip ..
  | .hwOvercurrentTrip .. | .powerStageConducting .. | .safeStateExit .. | .watchdogMiss ..
  | .stratusAnswerMissing .. | .stratusSupplyLoss .. | .stratusSupplyReturn .. => true
  | _ => false

/-- The commands that can place a boundary, run, commit or kill commands of the engines, act on the links between members, or
stop a job, besides those that restart the module. -/
def Instr.drives : Instr → Bool
  | .framePulseEdge .. | .wordClockEdge .. | .internalBoundary .. | .flywheelBoundary ..
  | .boundaryForwardTimeout .. | .computeCutoff .. | .tickCommitDeadline .. | .recoveryComplete ..
  | .recoveryTimeout .. | .tileMm .. | .tileConv .. | .forward .. | .attnPart .. | .merge .. | .bwdDq ..
  | .bwdDk .. | .bwdDv .. | .map .. | .scan .. | .reduce .. | .copy .. | .convert .. | .atomicIadd ..
  | .atomicSmin .. | .atomicSmax .. | .atomicUmin .. | .atomicUmax .. | .atomicAnd .. | .atomicOr ..
  | .atomicXor .. | .exch .. | .cas .. | .fsumAdd .. | .fsumRead .. | .gather .. | .allreduce ..
  | .reduceScatter .. | .collReduce .. | .shift .. | .broadcast .. | .allgather .. | .collGather .. | .wait ..
  | .signal .. | .commit .. | .tierReq .. | .convolution .. | .maximumPool .. | .averagePool ..
  | .bilinearResampling .. | .argmax .. | .topK .. | .rngFill .. | .commandFinish .. | .commandDeadline ..
  | .cirrusCompare .. | .cirrusArbitration .. | .parityFault .. | .uncorrectableError .. | .fillComplete ..
  | .data .. | .part .. | .clear .. | .done .. | .tick .. | .ready .. | .abort .. | .resume .. | .request ..
  | .idleFlit .. | .nak .. | .replayStallTimeout .. | .fecLockLoss .. | .readyTimeout .. | .ringRestored ..
  | .ringRecoveryTimeout .. | .jobPreempt .. | .jobAbort .. | .functionLevelReset .. | .conventionalReset ..
  | .partitionResetComplete .. => true
  | _ => false

end Sys2Proof

namespace Sys2Proof.Machine

/-- Every memory of the module, and the host memory it reaches, is in its canonical form: addresses rising, no entry equal
to what an unlisted address reads as (log 5). -/
def Mems.wf (m : Mems) : Bool :=
  m.hbm.wf && m.cache.wf && m.scratch.wf && m.acc.wf && m.halo.wf && m.store.wf && m.host.wf

/-- The code of the newest event in the log. -/
def State.newest (s : State) : Option Nat := s.host.log.head?.map (·.code)

/-- Boundary k stands at an instant. -/
def State.hasBoundary (s : State) (k : Nat) (instant : Time) : Prop :=
  s.tick.index = k ∧ s.tick.boundary = instant ∧ s.tick.placed = true

/-- Where a stop has brought the job: it has ended, or only output records are still to be written (R38). -/
def State.stopped (s : State) : Prop := s.job.phase = .stopping ∨ s.job.phase = .idle

/-- A mailbox request of an opcode, which the state of the module lets through, is picked up. -/
def State.serves (s : State) (op : Nat) (req : Bytes) : Prop :=
  mailboxOpen s = true ∧ reqOpcode req = op ∧ stateRefusal s op req = none

/-- A self-test window in which both writes read back, and no unit fails (R164, R167). -/
def windowPasses (s : State) (w : WindowInput) : Bool :=
  w.firstOk && w.secondOk && (failedUnit (loadBank true (fun b => { b with tables := referenceTables s }) s) w).isNone

/-- The files of fixed size have their sizes: the host rings and MSI-X vectors (Table 13.3), the ports (R313), the streams
and frame buffers of the media region (R292, R305), the cores with their command buffers and the edge engines (R49, R51,
R215), and the rates of a word clock (R13). -/
def State.shaped (s : State) : Prop :=
  s.host.rings.length = 6 ∧ s.host.msixDue.length = 4 ∧ s.host.msixLast.length = 4 ∧ s.link.ports.length = 4
    ∧ s.media.streams.length = 6 ∧ s.media.buffers.length = 32 ∧ s.compute.issued.length = 64
    ∧ s.compute.edge.length = 8 ∧ s.compute.buffers.length = 64 ∧ s.compute.totals.length = 64
    ∧ s.tick.clockLock.length = 3 ∧ s.compute.bank ≤ 1

/-! ### Commands of the engines -/

/-- What a command that issues to an engine does with the command at the head of its core's list: the core, the bytes of
host memory that its source holds, which descriptors it issues, the tensors that these name, and the engine's work. -/
structure Issue where
  core    : Nat
  host    : Bytes
  asked   : Bytes → Bool
  tensors : State → Bytes → List Nat
  work    : Access → Bytes → State → Work

/-- The engine commands, collectives and control commands apart. -/
def issueOf : Instr → Option Issue
  | .tileMm _ core => some ⟨core, [], fun c => cmdOpcode c == 0x01, mmTensors, mmWork⟩
  | .tileConv _ core => some ⟨core, [], fun c => cmdOpcode c == 0x02, convTensors, convWork⟩
  | .forward _ core => some ⟨core, [], isAttn 0, attnTensors, forwardWork⟩
  | .attnPart _ core => some ⟨core, [], isAttn 1, attnTensors, partWork⟩
  | .merge _ core => some ⟨core, [], isAttn 2, attnTensors, mergeWork⟩
  | .bwdDq _ core => some ⟨core, [], isAttn 3, attnTensors, bwdDqWork⟩
  | .bwdDk _ core => some ⟨core, [], isAttn 4, attnTensors, bwdKeyWork false⟩
  | .bwdDv _ core => some ⟨core, [], isAttn 5, attnTensors, bwdKeyWork true⟩
  | .map _ core => some ⟨core, [], isVec 0, vecTensors, vecWork⟩
  | .scan _ core => some ⟨core, [], isVec 1, vecTensors, vecWork⟩
  | .reduce _ core => some ⟨core, [], isVec 2, vecTensors, vecWork⟩
  | .copy _ core host => some ⟨core, host.getD [], isMove 0x00, moveTensors, copyWork host.isSome⟩
  | .convert _ core host => some ⟨core, host.getD [], isMove 0x01, moveTensors, convertWork host.isSome⟩
  | .atomicIadd _ core => some ⟨core, [], isMove 0x10, moveTensors, atomicWork .iadd⟩
  | .atomicSmin _ core => some ⟨core, [], isMove 0x11, moveTensors, atomicWork .smin⟩
  | .atomicSmax _ core => some ⟨core, [], isMove 0x12, moveTensors, atomicWork .smax⟩
  | .atomicUmin _ core => some ⟨core, [], isMove 0x13, moveTensors, atomicWork .umin⟩
  | .atomicUmax _ core => some ⟨core, [], isMove 0x14, moveTensors, atomicWork .umax⟩
  | .atomicAnd _ core => some ⟨core, [], isMove 0x15, moveTensors, atomicWork .and⟩
  | .atomicOr _ core => some ⟨core, [], isMove 0x16, moveTensors, atomicWork .or⟩
  | .atomicXor _ core => some ⟨core, [], isMove 0x17, moveTensors, atomicWork .xor⟩
  | .exch _ core => some ⟨core, [], isMove 0x18, moveTensors, atomicWork .exch⟩
  | .cas _ core => some ⟨core, [], isMove 0x19, moveTensors, atomicWork .cas⟩
  | .fsumAdd _ core => some ⟨core, [], isMove 0x20, moveTensors, fsumAddWork⟩
  | .fsumRead _ core => some ⟨core, [], isMove 0x21, moveTensors, fsumReadWork⟩
  | .gather _ core =>
    some ⟨core, [], fun c => cmdOpcode c == 0x06, fun _ c => tensorFields [16, 18, 20] c, gatherWork⟩
  | .tierReq _ core =>
    some ⟨core, [], fun c => cmdOpcode c == 0x0C, fun _ c => if treqIndirect c then tensorFields [26] c else [], tierReqWork⟩
  | .convolution _ core => some ⟨core, [], isEdge 0, convTensors, convWork⟩
  | .maximumPool _ core => some ⟨core, [], isEdge 1, poolTensors, poolWork maximumAt⟩
  | .averagePool _ core => some ⟨core, [], isEdge 2, poolTensors, poolWork averageAt⟩
  | .bilinearResampling _ core => some ⟨core, [], isEdge 3, poolTensors, poolWork bilinearAt⟩
  | .argmax _ core =>
    some ⟨core, [], fun c => cmdOpcode c == 0x0E && byteAt c 22 == 0, fun _ c => tensorFields [16, 18] c, postWork 1⟩
  | .topK _ core =>
    some ⟨core, [], fun c => cmdOpcode c == 0x0E && byteAt c 22 == 1, fun _ c => tensorFields [16, 18, 20] c, fun cx c s => postWork (le c 24 2 + 1) cx c s⟩
  | .rngFill _ core => some ⟨core, [], fun c => cmdOpcode c == 0x0F, fun _ c => tensorFields [16] c, rngWork⟩
  | _ => none

/-- The collectives: the core and which descriptors are asked for. -/
def collectiveOf : Instr → Option (Nat × (Bytes → Bool))
  | .allreduce _ core => some ⟨core, isCollMm 0⟩
  | .reduceScatter _ core => some ⟨core, isCollMm 1⟩
  | .collReduce _ core => some ⟨core, isCollMm 2⟩
  | .shift _ core => some ⟨core, isCollMove 0⟩
  | .broadcast _ core => some ⟨core, isCollMove 1⟩
  | .allgather _ core => some ⟨core, isCollMove 2⟩
  | .collGather _ core => some ⟨core, isCollMove 3⟩
  | _ => none

/-- A byte that an output stores to: one of an element's or a block scale's, at its place of the memory that holds the
tensor. -/
def Out.stores (o : Out) (cx : Access) (s : State) (sp : Space) (a : Nat) : Prop :=
  (∃ e ∈ o.codes, ∃ i, i < placeBytes o.tensor.fmt (elementPlace o.tensor.fmt o.tensor.base (o.tensor.offset e.1))
      ∧ locate s cx o.tensor.space ((elementPlace o.tensor.fmt o.tensor.base (o.tensor.offset e.1)).1 + i) = some (sp, a))
    ∨ ∃ e ∈ o.scales, locate s cx o.tensor.space (o.tensor.scaleAddr e.1) = some (sp, a)

/-- An issued command in flight. -/
def launched (core place : Nat) (c : Bytes) (cx : Access) (w : Work) (cirrus : CirrusPhase) (channel : Option Nat) : Run :=
  { core := core, place := place, cmd := c, phase := .running, slots := cx.slots, staged := w.staged,
    outBytes := w.outs.flatMap Out.bytes, values := w.values, cirrus := cirrus, work := true,
    channel := channel }

/-! ### Flits -/

/-- A transaction flit as it arrives: its port, the OP of its row, its 256 bytes, the symbol errors of the codeword that begins
in it, whether one for every member goes on, and what it does where it is for this member. -/
structure Arrival where
  port       : Nat
  op         : Nat
  flit       : Bytes
  errors     : Nat
  fwd        : State → Bool
  act        : State → State

/-- The transaction flits (Table 12.4). -/
def arrivalOf : Instr → Option Arrival
  | .data _ port f n => some ⟨port, 0x01, f, n, always, takeColl (fun x => { x with data := x.data ++ [flitPiece f] }) f⟩
  | .part _ port f n => some ⟨port, 0x02, f, n, always, takeColl (fun x => { x with part := x.part ++ [flitPiece f] }) f⟩
  | .clear _ port f n => some ⟨port, 0x10, f, n, always, takeClear f⟩
  | .done _ port f n => some ⟨port, 0x11, f, n, always, takeColl (fun x => { x with done := true }) f⟩
  | .tick _ port f n => some ⟨port, 0x20, f, n, always, takeTick port f⟩
  | .ready _ port f n => some ⟨port, 0x21, f, n, always, takeReady f⟩
  | .abort _ port f n => some ⟨port, 0x22, f, n, fun s => abortActs f s || abortEndsArmed f s, takeAbortFlit f⟩
  | .resume _ port f n => some ⟨port, 0x23, f, n, always, takeResume f⟩
  | .request _ port f n => some ⟨port, 0x24, f, n, always, takeRequest f⟩
  | _ => none

/-- A flit of the row's OP arrives on a port that is up, with its CRC good and every codeword that it touches decoded. -/
def State.hears (s : State) (a : Arrival) : Prop :=
  s.shaped ∧ portUp s a.port = true ∧ (hear a.port a.errors a.flit s).1 = true ∧ flitKind a.flit = 1 ∧ flitOp a.flit = a.op

/-- A flit that is heard is the next one in order, carries no NAK and is for this member; the port has resent no flit eight
times. -/
def State.accepts (s : State) (a : Arrival) : Prop :=
  s.hears a ∧ flitSeq a.flit = ((s.port a.port).lastSeq + 1) % 4096 ∧ flitNak a.flit = false
    ∧ (∀ r ∈ (s.port a.port).retrans, r < 8) ∧ forMe s a.flit = true

/-! ### Power -/

/-- Power is off at an instant: nothing runs, the rails are off, and valve drive is cut for 60 s. -/
def State.offAt (s : State) (now : Time) : Prop :=
  s.dawn.phase = .unpowered ∧ s.job = {} ∧ s.mem.hbm = .empty ∧ s.stratus.stage = false
    ∧ s.stratus.driveCutUntil = some (now + sec 60) ∧ s.sideband.ready = false

/-- A trip stands: the safe state, its code the newest of the trip memory, power off, FAULT_N asserted. -/
def State.tripped (s : State) (code : Nat) (now : Time) : Prop :=
  s.stratus.phase = .safe ∧ (∃ e, s.stratus.trips.head? = some e ∧ e.code = code ∧ e.moment = now)
    ∧ s.stratus.tripAt = some now ∧ s.stratus.cycled = false ∧ s.sideband.faultN = true ∧ s.offAt now

end Sys2Proof.Machine
end

