-- ==== Sys2Proof/Certificates/Slice0/Obligations.lean ====
section
/-! DEFINITION. The statements about the block: each formalises what rules of the specification say of a command or of the
whole block. -/

open Sys2Proof Sys2Proof.Machine

/-! ### The whole machine -/

/-- A step takes the command at the front of the queue and runs it on the state with the rest of the queue; with an empty
queue the block idles (log 1). -/
def Obligations.StepRunsFrontCommand : Prop :=
  (∀ (s : State) (c : Instr) (rest : List Instr), s.pending = c :: rest → step s = exec c (s.withQueue rest))
    ∧ (∀ s : State, s.pending = [] → step s = .next s)

/-- Every step that answers a next state has consumed exactly the front command, and module time has moved on to that
command's instant, never back (R47). -/
def Obligations.StepConsumesOneCommand : Prop :=
  ∀ s t : State, step s = .next t →
    (s.pending = [] ∧ t = s)
      ∨ ∃ c rest, s.pending = c :: rest ∧ t.pending = rest ∧ t.now = max s.now c.time

/-- Every step keeps every memory in its canonical form. -/
def Obligations.StepKeepsMemoriesCanonical : Prop :=
  ∀ s t : State, s.mem.wf = true → step s = .next t → t.mem.wf = true

/-- Reset: nothing waits, no byte of any memory is listed, which is canonical, and the files of the block have their
sizes; the module is at standby and unpowered, in no job, with FAULT_N and READY deasserted, every ring disabled, every
port down and no unit charged (Tables 1.7, 12.13, 13.9, 15.17, 17.5, 17.6). -/
def Obligations.ResetStandsEmpty : Prop :=
  State.reset.pending = [] ∧ State.reset.mem = {} ∧ State.reset.mem.wf = true ∧ State.reset.shaped
    ∧ State.reset.dawn.phase = .unpowered ∧ State.reset.stratus.phase = .standby ∧ State.reset.job.phase = .idle
    ∧ State.reset.sideband.faultN = false ∧ State.reset.sideband.ready = false
    ∧ (∀ n, (State.reset.ring n).enable = false) ∧ (∀ n, (State.reset.port n).phase = .down)
    ∧ State.reset.integrity.lastUnit = 0xFFFFFFFF ∧ State.reset.integrity.counts = List.replicate 12 0

/-- Every step keeps the shape of the block: six host rings, four MSI-X vectors, four ports, six media streams, 32 frame
buffers, 64 cores, eight edge engines. -/
def Obligations.StepKeepsShape : Prop :=
  ∀ s t : State, s.shaped → step s = .next t → t.shaped

/-- The configuration flash (R388, R389, R415): the anti-rollback counters only rise, and four commands alone change the
flash: the staging of an image, a history page, and the two ways in which a cold Dawn uses its boot record. -/
def Obligations.FlashIsKeptAndItsCountersRise : Prop :=
  ∀ (c : Instr) (s t : State), exec c s = .next t →
    s.flash.fwSvn ≤ t.flash.fwSvn ∧ s.flash.planSvn ≤ t.flash.planSvn ∧ s.flash.rootFloor ≤ t.flash.rootFloor
      ∧ (t.flash ≠ s.flash → match c with
        | .stageImage .. | .historyWrite .. | .coldDawn .. | .dawnStepOverrun .. => True
        | _ => False)

/-- No command is refused, and one stops only with the fault of R61. Every command but those that issue to an engine
COMPLETES in every state and with every operand: it answers a next state, with the queue as it was and module time moved on
to its instant. So do the rows that stand for a fault, a missed deadline, a trip or a loss, whose own effect that next state
is, as the statements of their families say in full. -/
def Obligations.CommandsAnswerOrLeaveTheirSpace : Prop :=
  (∀ (c : Instr) (s : State), (∃ t, exec c s = .next t) ∨ exec c s = .fault .addressOutsideSpace)
  ∧ ∀ (c : Instr) (s : State), issueOf c = none → collectiveOf c = none
    → ∃ t, exec c s = .next t ∧ t.pending = s.pending ∧ t.now = max s.now c.time

/-! ### The tick contract -/

/-- Edges place boundaries (R15, R16). A frame-pulse edge within E(k) - W to E(k) + W, a counted word-clock edge within
E_wc(k) - W_wc to E_wc(k) + W_wc of a clock in tolerance, and the instant of the internal reference each place boundary
k there; a frame-pulse edge earlier than its window is ignored with 0x1902. In ARMED the internal reference places T(0) at
its instant (R15), where the job runs. -/
def Obligations.EdgesPlaceBoundaries : Prop :=
  (∀ (t : Time) (s : State), s.dawn.phase = .passed → s.tick.source = 1 → s.followsRing = false
    → (s.job.phase = .running ∨ s.job.phase = .draining) → s.tick.placed = true
    → s.tick.boundary + s.tick.tp ≤ max s.now t + windowHalf s.tick.tp
    → max s.now t ≤ s.tick.boundary + s.tick.tp + windowHalf s.tick.tp
    → ∃ u, exec (.framePulseEdge t) s = .next u ∧ u.hasBoundary (s.tick.index + 1) (max s.now t)
        ∧ u.tick.edgeIndex = s.tick.index + 1 ∧ u.tick.edgeTime = max s.now t)
  ∧ (∀ (t : Time) (s : State), s.dawn.phase = .passed → s.tick.source = 1 → s.followsRing = false
    → (s.job.phase = .running ∨ s.job.phase = .draining) → s.tick.boundary < max s.now t
    → max s.now t + windowHalf s.tick.tp < s.tick.boundary + s.tick.tp
    → ∃ u, exec (.framePulseEdge t) s = .next u ∧ u.newest = some 0x1902 ∧ u.tick.index = s.tick.index
        ∧ u.tick.boundary = s.tick.boundary ∧ u.compute = s.compute)
  ∧ (∀ (t : Time) (s : State) (n : Nat), s.dawn.phase = .passed → s.tick.source = 2 → s.followsRing = false
    → (s.job.phase = .running ∨ s.job.phase = .draining) → s.tick.placed = true
    → n = s.tick.index + 1 - s.tick.edgeIndex
    → s.tick.edgeTime + n * s.tick.tp ≤ max s.now t + (n * s.tick.tp / 10000 + us 1)
    → max s.now t ≤ s.tick.edgeTime + n * s.tick.tp + (n * s.tick.tp / 10000 + us 1)
    → ∃ u, exec (.wordClockEdge t true) s = .next u ∧ u.hasBoundary (s.tick.index + 1) (max s.now t)
        ∧ u.tick.edgeIndex = s.tick.index + 1 ∧ u.tick.edgeTime = max s.now t)
  ∧ (∀ (t : Time) (s : State), s.tick.source = 0 → s.followsRing = false
    → (s.job.phase = .running ∨ s.job.phase = .draining) → s.tick.placed = true
    → max s.now t = s.tick.boundary + s.tick.tp
    → ∃ u, exec (.internalBoundary t) s = .next u
        ∧ u.hasBoundary (s.tick.index + 1) (s.tick.boundary + s.tick.tp))
  ∧ (∀ (t : Time) (s : State), s.job.phase = .armed → s.tick.source = 0 → s.inRing = false → s.job.resume = false
    → s.tick.placed = false → s.tick.start = some (max s.now t) → linkShort s = false
    → ∃ u, exec (.internalBoundary t) s = .next u ∧ u.hasBoundary s.job.first (max s.now t)
        ∧ u.job.phase = .running)

/-- FLYWHEEL_BOUNDARY and BOUNDARY_FORWARD_TIMEOUT complete with the boundary that no edge places (R17, R19): at E(k) + W the
reference places it, the newest edge stays where it was and the count of flywheel boundaries rises by one; at the third the
source is unlocked and the job stops. A ring member that hears nothing by E(k) + W + 4 µs places it there and starts
the common abort. -/
def Obligations.ReferencePlacesFlywheelBoundaries : Prop :=
  (∀ (t : Time) (s : State), s.tick.source ≠ 0 → s.followsRing = false
    → (s.job.phase = .running ∨ s.job.phase = .draining) → s.tick.placed = true
    → max s.now t = s.tick.boundary + s.tick.tp + windowHalf s.tick.tp
    → ∃ u, exec (.flywheelBoundary t) s = .next u
        ∧ u.hasBoundary (s.tick.index + 1) (s.tick.boundary + s.tick.tp + windowHalf s.tick.tp)
        ∧ u.tick.edgeIndex = s.tick.edgeIndex ∧ u.tick.edgeTime = s.tick.edgeTime
        ∧ (s.tick.flywheel < 2 → u.tick.flywheel = s.tick.flywheel + 1 ∨ u.stopped)
        ∧ (s.tick.flywheel = 2 → u.tick.locked = false ∧ u.stopped))
  ∧ (∀ (t : Time) (s : State), s.followsRing = true
    → (s.job.phase = .running ∨ s.job.phase = .draining) → s.tick.placed = true
    → s.tick.boundary + s.tick.tp + windowHalf s.tick.tp + us 4 ≤ max s.now t
    → ∃ u, exec (.boundaryForwardTimeout t) s = .next u ∧ u.hasBoundary (s.tick.index + 1) (max s.now t)
        ∧ u.tick.edgeIndex = s.tick.edgeIndex
        ∧ (s.link.abortTick ≠ some (s.tick.index + 1)
          → u.link.aborts = s.link.aborts + 1 ∧ (u.job.phase = .squall ∨ u.stopped)))

/-- Lock (R18): outside RUNNING and DRAINING a frame-pulse source whose newest tracked edge is Tp + W old is unlocked and
tracked anew, and a word clock is locked to a rate and unlocked from it; in RUNNING and DRAINING neither unlocks the source
of the job. -/
def Obligations.LockFollowsTheSource : Prop :=
  (∀ (t : Time) (s : State) (i : Nat) (tr : Tracker) (p : Time), s.job.phase ≠ .running → s.job.phase ≠ .draining
    → s.tick.trackers[i]? = some tr → tr.newest = some p → p + tr.tp + windowHalf tr.tp ≤ max s.now t
    → ∃ u, exec (.lockLossTimeout t) s = .next u
        ∧ u.tick.trackers[i]? = some { tr with newest := none, run := 0, locked := false })
  ∧ (∀ (t : Time) (rate : Nat) (s : State), s.dawn.phase = .passed
    → ∃ u, exec (.wordClockLock ⟨t, rate⟩) s = .next u ∧ u.tick.clockLock = s.tick.clockLock.set rate true
        ∧ u.job = s.job ∧ u.tick.index = s.tick.index ∧ u.tick.boundary = s.tick.boundary)
  ∧ (∀ (t : Time) (rate : Nat) (s : State), s.dawn.phase = .passed → s.job.phase ≠ .running → s.job.phase ≠ .draining
    → ∃ u, exec (.wordClockUnlock ⟨t, rate⟩) s = .next u ∧ u.tick.clockLock = s.tick.clockLock.set rate false)
  ∧ (∀ (t : Time) (rate : Nat) (s : State), (s.job.phase = .running ∨ s.job.phase = .draining)
    → exec (.lockLossTimeout t) s = .next (s.arrive t)
      ∧ (ownClock rate s = true → exec (.wordClockUnlock ⟨t, rate⟩) s = .next (s.arrive t)))

/-- COMPUTE_CUTOFF and TICK_COMMIT_DEADLINE complete by abandoning the tick: with a command uncommitted at T(k) + 0.94 Tp,
or the tick not committed at T(k) + 0.98 Tp, everything in flight is killed, the Compute partition is in reset, FAULT_N is
asserted and the job is in SQUALL (R23). On a single module 0x1905 or 0x1906 is the newest event. Recovery (R39, R411,
R414): with the reset done and the checkpoint restored it is complete, 0x4302 carrying its duration in microseconds; 3 s
after the first detection RECOVERY_TIMEOUT completes with the stop of the job, unless recovery is complete and the source
locked, where the job only awaits T(r). -/
def Obligations.SquallBeginsAndEnds : Prop :=
  (∀ (t : Time) (s : State), (s.job.phase = .running ∨ s.job.phase = .draining) → s.dawn.phase ≠ .eclipse
    → s.job.dusk = none → s.tickCommitted = false →
    (s.tick.boundary + s.tick.tp * 94 / 100 ≤ max s.now t → allCommitted s = false
      → ∃ u, exec (.computeCutoff t) s = .next u ∧ u.job.phase = .squall ∧ u.compute.runs = []
          ∧ u.compute.inReset = true ∧ u.sideband.faultN = true ∧ u.job.committed = s.job.committed
          ∧ (s.inRing = false → u.newest = some 0x1905))
    ∧ (s.tick.boundary + s.tick.tp * 98 / 100 ≤ max s.now t
      → ∃ u, exec (.tickCommitDeadline t) s = .next u ∧ u.job.phase = .squall ∧ u.compute.runs = []
          ∧ u.compute.inReset = true ∧ u.sideband.faultN = true ∧ u.job.committed = s.job.committed
          ∧ (s.inRing = false → u.newest = some 0x1906)))
  ∧ ((∀ (t : Time) (s : State) (q : Squall), s.job.phase = .squall → s.job.squall = some q → q.resetDone = true
    → q.complete = none → s.dawn.phase ≠ .warm
    → (q.c = none ∨ ∃ ck v, s.job.ckptTick = some ck ∧ restoreCheckpoint q.die ck
        (loadBank true (·.withSet (storedSet (checkPlanRegions (s.arrive t)))) (checkPlanRegions (s.arrive t))) = some v)
    → ∃ u, exec (.recoveryComplete t true true) s = .next u
        ∧ u.job.squall = some { q with complete := some (max s.now t) } ∧ u.newest = some 0x4302)
  ∧ (∀ (t : Time) (s : State) (q : Squall), s.job.phase = .squall → s.job.squall = some q → q.ring = false
    → q.detected + sec 3 ≤ max s.now t →
    ((q.complete = none ∨ s.tick.locked = false)
      → ∃ u, exec (.recoveryTimeout t) s = .next u ∧ u.stopped ∧ u.job.squall = none ∧ u.compute.runs = [])
    ∧ (q.complete ≠ none → s.tick.locked = true → exec (.recoveryTimeout t) s = .next (s.arrive t))))

/-- Tick k commits once every command has committed and, in a ring, READY(k) is held from every other position (R24,
R332): it is then the newest committed tick, and its checkpoint the newest one. -/
def Obligations.TickCommitsWhenComplete : Prop :=
  ∀ (t : Time) (s : State), (s.job.phase = .running ∨ s.job.phase = .draining) → s.tickCommitted = false
    → s.compute.inReset = false → s.compute.abandoned = false → allCommitted s = true
    → (s.inRing = true → s.link.readySent ≠ some s.tick.index
        ∧ ∀ p, p < s.job.variant → p ≠ s.job.position → (p, s.tick.index) ∈ s.link.ready)
    → ∃ u, exec (.tickCommit t) s = .next u ∧ u.job.committed = some s.tick.index
        ∧ u.job.ckptTick = some s.tick.index ∧ u.job.akCommitted = s.job.ak ∧ u.tick = s.tick

/-- Each slot of a running job gets one record (R31): it passes on to the next slot, and a frame that it delivers has left
the job. Draining ends at T(e + L - 1) + 2.0 ms in IDLE, with nothing of the job in flight (R37). -/
def Obligations.DeliveryAndDrainingEndTheJob : Prop :=
  (∀ (t : Time) (s : State), (s.job.phase = .running ∨ s.job.phase = .draining ∨ s.job.phase = .squall)
    → s.dawn.phase ≠ .warm → s.job.nextSlot ≤ s.tick.index → s.latency ≤ s.job.nextSlot
    → (∀ e, s.job.endTick = some e → s.job.nextSlot < e + s.latency)
    → (∀ f ∈ s.job.frames, f.accepted + s.latency = s.job.nextSlot → unitsCommitted s f = true)
    → ∃ u, exec (.deliverySlot t) s = .next u ∧ u.job.nextSlot = s.job.nextSlot + 1
        ∧ ∀ f, s.job.frames.find? (fun f => f.accepted + s.latency == s.job.nextSlot) = some f
            → ∀ g ∈ u.job.frames, g.number ≠ f.number)
  ∧ (∀ (t : Time) (s : State) (e : Nat), s.job.phase = .draining → s.job.endTick = some e
    → (e + s.latency - 1 < s.tick.index
        ∨ (s.tick.index = e + s.latency - 1 ∧ s.tick.boundary + ms 2 ≤ max s.now t))
    → ∃ u, exec (.drainEnd t) s = .next u ∧ u.job.phase = .idle ∧ u.job.frames = [] ∧ u.compute.runs = []
        ∧ u.tier.requests = [])

/-! ### The mailbox and the job -/

/-- A response goes out (R352, R365): with ring 5 served, with room in it and none waiting, its 256 bytes stand at the
slot of the module's pointer, which advances by one, and no other byte of the host's memory but the status page changes;
with ring 5 not served it waits behind the others. A request with an opcode in no row gets STATUS 0x6201, one that fails
its checks the code of the first that fails, and the job, the tick, the engines and every memory of the module stay as
they are, but that LAST_CODE shows the code of Table 1.5 of a refused job request (log 26). -/
def Obligations.RequestsAreAnswered : Prop :=
  (∀ (req : Bytes) (status : Nat) (body : Bytes) (s : State), s.mem.wf = true →
    (s.served 5 = false
      → (respond req status body s).host.responses
          = s.host.responses ++ [responseBytes req status (toNs s.now) body]
        ∧ (respond req status body s).mem = s.mem)
    ∧ (s.served 5 = true → 0 < s.room 5 → s.host.responses = [] →
        let u := respond req status body s
        let a := (s.ring 5).base + (s.ring 5).mine % max 1 (s.ring 5).size * 256
        u.host.responses = [] ∧ (u.ring 5).mine = ptrAdd (s.ring 5).mine 1
        ∧ ∀ x, (x < a ∨ a + (responseBytes req status (toNs s.now) body).length ≤ x)
          → (x < s.host.statusBase ∨ s.host.statusBase + 64 ≤ x) → u.mem.host.read x = s.mem.host.read x))
  ∧ ((∀ (t : Time) (req : Bytes) (s : State), mailboxOpen s = true → knownOpcodes.contains (reqOpcode req) = false
    → exec (.mailboxUnknownOpcode t req) s = .next (respond req 0x6201 [] (pickup (s.arrive t))))
  ∧ (∀ (op : Nat) (req : Bytes) (checks : List (Bool × Nat)) (work : State → State) (s : State) (c : Nat),
    mailboxOpen s = true → reqOpcode req = op → (stateRefusal s op req).or (firstFailure checks) = some c →
    serve op req checks work s = respond req c [] (noteRefusal op c (pickup s)))
  ∧ (∀ (op : Nat) (req : Bytes) (c : Nat) (s : State),
    let u := respond req c [] (noteRefusal op c (pickup s))
    { u.job with lastCode := s.job.lastCode } = s.job
      ∧ u.job.lastCode = (if isJobRequest op && 0x1801 ≤ c && c ≤ 0x180A then c else s.job.lastCode)
      ∧ u.tick = s.tick ∧ u.compute = s.compute ∧ u.tier = s.tier ∧ u.media = s.media ∧ u.link = s.link
      ∧ u.flash = s.flash ∧ u.mem.hbm = s.mem.hbm ∧ u.mem.store = s.mem.store
      ∧ u.mem.cache = s.mem.cache ∧ u.mem.scratch = s.mem.scratch ∧ u.mem.acc = s.mem.acc ∧ u.mem.halo = s.mem.halo))

/-- JOB_START (R35, R38, R164, R338): a request that passes every check of Table 1.5, with its plan's set active or loaded
in a self-test window that passes, leaves the job of a single module ARMED on its plan, with the plan's source, period and
ring variant, the seed given or the plan's default, nothing in flight, and T(0) 1.0 ms after the response, or for a frame
pulse as R35 gives it. A resume keeps its checkpoint until T(0); one whose checkpoint is lost leaves nothing to resume
(R409, log 12). In a ring the request waits until position 0 has decided T(0). RING_T0_DECISION (R181, R338): with the job
digests of all other members equal to its own, position 0 of the ring answers the admitted request with T(0), from which
on its job waits for its first boundary; with one that differs it refuses the request with 0x1805 and stays as it was. -/
def Obligations.JobStartArmsTheJob : Prop :=
  (∀ (t : Time) (req : Bytes) (w : WindowInput) (carried : Bytes) (s s' : State) (p : Plan),
    s' = formationDue (s.arrive t) → s'.serves 0x0001 req
    → (∀ c ∈ startChecks req carried s', c.1 = true) → (s.planAt (byteAt req 8)).map (·.plan) = some p
    → (s'.activeBank.holdsSet (planTables s (byteAt req 8)) = true ∨ windowPasses s' w = true) →
    (ringNow s' < 2 → reqResume req = false
      → ∃ u, exec (.jobStart t req ⟨w, carried⟩) s = .next u ∧ u.job.phase = .armed ∧ u.job.planIndex = byteAt req 8
        ∧ u.job.variant = ringNow s' ∧ u.tick.source = planSource p ∧ u.tick.tp = planTp p ∧ u.tick.placed = false
        ∧ u.activeBank.holdsSet (planTables s (byteAt req 8)) = true ∧ u.compute.runs = [] ∧ u.job.frames = []
        ∧ u.job.seed = (if reqSeedGiven req then reqSeed req else planSeed p)
        ∧ (planSource p ≠ 1 → u.tick.start = some (max s.now t + ms 1)))
    ∧ (ringNow s' < 2 → reqResume req = true → s'.activeBank.holdsSet (planTables s (byteAt req 8)) = true
      → ∃ u, exec (.jobStart t req ⟨w, carried⟩) s = .next u ∧ u.compute.runs = [] ∧
        match restoreRetained req (armJob req (pickup s')) with
        | some _ => u.job.phase = .armed ∧ u.job.resume = true ∧ u.job.retained = s.job.retained
        | none => u.job.phase = .idle ∧ u.job.retained = none ∧ u.newest = some 0x4305)
    ∧ (2 ≤ ringNow s' → reqResume req = false
      → ∃ u, exec (.jobStart t req ⟨w, carried⟩) s = .next u ∧ u.job.startReq = some req ∧ u.job.phase = .idle
        ∧ u.tick = s.tick))
  ∧ (∀ (t : Time) (digests : List Bytes) (s : State) (req : Bytes) (p : Plan), s.job.startReq = some req
    → s.job.phase = .idle → s.link.position = 0 → s.ringUp = true → digests.length + 1 = s.link.ringSize
    → reqResume req = false → (s.planAt (byteAt req 8)).map (·.plan) = some p →
    ((∀ d ∈ digests, d = jobDigest req s)
      → ∃ u, exec (.ringT0Decision ⟨t, digests⟩) s = .next u ∧ u.job.phase = .armed ∧ u.job.startReq = none
        ∧ u.tick.start = some (startTime (s.arrive t) (byteAt req 8) p) ∧ u.job.planIndex = byteAt req 8)
    ∧ ((∃ d ∈ digests, d ≠ jobDigest req s)
      → ∃ v, exec (.ringT0Decision ⟨t, digests⟩) s = .next (respond req 0x1805 [] v)
        ∧ v.job = { s.job with startReq := none } ∧ v.tick = s.tick ∧ v.compute = s.compute))

/-- JOB_END, KEYFRAME and SPLIT_EXACT are noted when they are picked up and take effect at a boundary (R37, R148, R300):
nothing of the tick in progress changes, and the response of JOB_END carries e. -/
def Obligations.SwitchesAreNotedForTheBoundary : Prop :=
  ∀ (t : Time) (req : Bytes) (s : State), atHead s = true →
    (s.serves 0x0002 req → s.job.phase = .running → bodyClear req [] = true
      → ∃ v, exec (.jobEnd t req) s = .next (respond req 0 (toLe 8 (endTickFor (s.arrive t))) v)
        ∧ v.job = { s.job with endPending := s.job.endPending.or (some (max s.now t)) } ∧ v.compute = s.compute)
    ∧ (s.serves 0x0005 req → (s.job.phase = .running ∨ s.job.phase = .squall)
      → bodyClear req [(8, 1)] = true → byteAt req 8 < 16
      → ∃ v, exec (.keyframe t req) s = .next (respond req 0 [] v)
        ∧ v.job = { s.job with keyMask := s.job.keyMask ||| byteAt req 8 } ∧ v.compute = s.compute)
    ∧ (s.serves 0x0006 req → (s.job.phase = .armed ∨ s.job.phase = .running)
      → bodyClear req [(8, 1)] = true → byteAt req 8 < 2 → planSwitchable s.plan = true
      → ∃ v, exec (.splitExact t req) s = .next (respond req 0 [] v)
        ∧ v.job = { s.job with splitWanted := byteAt req 8 == 1 } ∧ v.compute = s.compute)

/-- JOB_PREEMPT and JOB_ABORT (R38, Table 1.8): a running job stops with nothing in flight, and only a pre-emption keeps
its checkpoint for a resume; in SQUALL, while the Compute partition is in reset, the stop is deferred; an ARMED job
returns to IDLE. -/
def Obligations.StopRequestsStopTheJob : Prop :=
  ∀ (t : Time) (req : Bytes) (s : State), atHead s = true → bodyClear req [] = true →
    (s.serves 0x0003 req → (s.job.phase = .running ∨ s.job.phase = .draining)
      → ∃ u, exec (.jobPreempt t req) s = .next u ∧ u.stopped ∧ u.compute.runs = []
        ∧ u.job.resumable = (s.job.committed.isSome && s.job.ckptTick.isSome))
    ∧ (s.serves 0x0003 req → s.job.phase = .squall → s.compute.inReset = true
      → ∃ u, exec (.jobPreempt t req) s = .next u ∧ u.job.phase = .squall ∧ u.job.squall = s.job.squall
        ∧ u.job.deferred = s.job.deferred.or (some ⟨.preemption, 0, s.tick.index⟩))
    ∧ (s.serves 0x0004 req → (s.job.phase = .running ∨ s.job.phase = .draining)
      → ∃ u, exec (.jobAbort t req) s = .next u ∧ u.stopped ∧ u.compute.runs = []
        ∧ u.job.resumable = false ∧ u.job.retained = none)
    ∧ (s.serves 0x0004 req → s.job.phase = .armed
      → ∃ u, exec (.jobAbort t req) s = .next u ∧ u.job.phase = .idle ∧ u.job.retained = none ∧ u.tick.start = none)

/-- MAINT_ENTER and MAINT_EXIT (R37, R38): IDLE passes to MAINTENANCE, which drops a retained checkpoint, and back.
STORE_WRITE (R264, R350): in MAINTENANCE the bytes of the host-exchange area, which no write through BAR2 has touched
while the request was pending, stand in the weight store from the address on, and every other byte of the weight store and
of the HBM is as before. -/
def Obligations.MaintenanceWritesTheStore : Prop :=
  (∀ (t : Time) (req : Bytes) (s : State), bodyClear req [] = true →
    (s.serves 0x0010 req → s.job.phase = .idle → s.job.startReq = none
      → ∃ v, exec (.maintEnter t req) s = .next (respond req 0 [] v)
        ∧ v.job = { s.job with phase := .maintenance, retained := none, resumable := false })
    ∧ (s.serves 0x0011 req → s.job.phase = .maintenance
      → ∃ v, exec (.maintExit t req) s = .next (respond req 0 [] v) ∧ v.job = { s.job with phase := .idle }))
  ∧ (∀ (t : Time) (req : Bytes) (s : State), s.mem.wf = true → s.serves 0x0012 req → s.job.phase = .maintenance
    → bodyClear req [(16, 24)] = true → le req 32 8 % 16384 = 0 → le req 24 8 + le req 32 8 ≤ 0x40000000000
    → exchangeOk (le req 16 8) (le req 32 8) = true
    → (∀ w ∈ s.host.windowWrites, w.1 + w.2.1 ≤ le req 16 8 ∨ le req 16 8 + le req 32 8 ≤ w.1)
    → ∃ u, exec (.storeWrite t req) s = .next u ∧ u.mem.hbm = s.mem.hbm
      ∧ (∀ i, i < le req 32 8 →
          u.mem.store.read (le req 24 8 + i) = s.mem.hbm.read (exchangeBase + le req 16 8 + i))
      ∧ (∀ a, a < le req 24 8 ∨ le req 24 8 + le req 32 8 ≤ a → u.mem.store.read a = s.mem.store.read a))

/-- TABLE_LOAD and SELFTEST (R164 to R167, R418): in a self-test window that passes the plan's set is loaded and becomes the
active one, and a self-test leaves the active set as it was; a read-back mismatch of the first write leaves the active set as it
was, with 0x4209; a unit that fails the test is classified permanent, which is Eclipse. -/
def Obligations.TablesLoadAndSelfTestJudges : Prop :=
  ∀ (t : Time) (req : Bytes) (w : WindowInput) (s : State), (s.job.phase = .idle ∨ s.job.phase = .maintenance) →
    (s.serves 0x0013 req → s.job.startReq = none → bodyClear req [(8, 1)] = true → planReady s (byteAt req 8) = true →
      (windowPasses s w = true → ∃ v, exec (.tableLoad t req w) s = .next (respond req 0 [] v)
          ∧ v.activeBank.holdsSet (planTables s (byteAt req 8)) = true ∧ v.job = s.job)
      ∧ (w.firstOk = false → w.failed = none
        → ∃ v, exec (.tableLoad t req w) s = .next (respond req 0x4209 [] v) ∧ v.activeBank = s.activeBank)
      ∧ (∀ unit, s.dawn.phase ≠ .eclipse → w.firstOk = true → w.failed = some unit
        → ∃ u, exec (.tableLoad t req w) s = .next u ∧ u.dawn.phase = .eclipse ∧ u.integrity.permUnit = unit))
    ∧ (s.serves 0x0014 req → bodyClear req [] = true → s.dawn.phase ≠ .eclipse →
      (windowPasses s w = true → ∃ v, exec (.selftest t req w) s = .next (respond req 0 (toLe 4 0xFFFFFFFF) v)
          ∧ v.activeBank = s.activeBank ∧ v.integrity = s.integrity)
      ∧ (∀ unit, w.firstOk = true → w.failed = some unit → ∃ u, exec (.selftest t req w) s = .next u
          ∧ u.dawn.phase = .eclipse ∧ u.integrity.permanent = true ∧ u.integrity.permUnit = unit))

/-- ATTEST, TELEMETRY and HISTORY_READ write their report into the host-exchange area that the request names, and no
other byte of the HBM (R366, R392, R415). -/
def Obligations.ReportsAreWrittenToTheExchangeArea : Prop :=
  ∀ (t : Time) (req : Bytes) (s : State), s.mem.wf = true →
    (s.serves 0x0022 req → bodyClear req [(16, 8)] = true
      → exchangeOk (le req 16 8) (telemetryBytes (s.arrive t)).length = true
      → ∃ u, exec (.telemetry t req) s = .next u
        ∧ u.readExchange (le req 16 8) (telemetryBytes (pickup (s.arrive t))).length
            = telemetryBytes (pickup (s.arrive t))
        ∧ ∀ a, a < exchangeBase + le req 16 8
            ∨ exchangeBase + le req 16 8 + (telemetryBytes (pickup (s.arrive t))).length ≤ a
          → u.mem.hbm.read a = s.mem.hbm.read a)
    ∧ (s.serves 0x0023 req → bodyClear req [(16, 8)] = true → exchangeOk (le req 16 8) 0x400000 = true
      → ∃ u, exec (.historyRead t req) s = .next u
        ∧ u.readExchange (le req 16 8) (historyRegion s).length = historyRegion s
        ∧ ∀ a, a < exchangeBase + le req 16 8 ∨ exchangeBase + le req 16 8 + (historyRegion s).length ≤ a
          → u.mem.hbm.read a = s.mem.hbm.read a)
    ∧ (s.serves 0x0020 req → bodyClear req [(16, 40)] = true → exchangeOk (le req 48 8) 12288 = true
      → s.dawn.secret ≠ [] → s.dawn.certOk = true
      → ∃ (u : State) (h : BitVec 64), exec (.attest t req) s = .next u
        ∧ u.readExchange (le req 48 8) (attestReport (slice req 16 32) h (pickup (s.arrive t))).length
            = attestReport (slice req 16 32) h (pickup (s.arrive t))
        ∧ ∀ a, a < exchangeBase + le req 48 8
            ∨ exchangeBase + le req 48 8 + (attestReport (slice req 16 32) h (pickup (s.arrive t))).length ≤ a
          → u.mem.hbm.read a = s.mem.hbm.read a)

/-- STAGE_IMAGE (R389): an image that verifies and is not older than the anti-rollback counter of its kind stands in the
inactive slot, which is marked pending, the active slot as before; one that does not verify is refused with 0x8501 and
the flash stays. What the signatures verify is a matter of Config, so the statement speaks of both outcomes. -/
def Obligations.StageImageProgramsTheInactiveSlot : Prop :=
  ∀ (t : Time) (req img : Bytes) (s : State) (kind : Nat), s.serves 0x0021 req
    → (s.job.phase = .idle ∨ s.job.phase = .maintenance ∨ s.dawn.phase = .recoveryBoot)
    → bodyClear req [(8, 1), (16, 16)] = true → byteAt req 8 = kind → kind ≤ 1
    → exchangeOk (le req 16 8) (le req 24 8) = true → le req 24 8 ≤ slotSize kind
    → (∀ w ∈ s.host.windowWrites, w.1 + w.2.1 ≤ le req 16 8 ∨ le req 16 8 + le req 24 8 ≤ w.1)
    → (bootRecord s.flash).seq + 2 < 4294967296 → img = s.readExchange (le req 16 8) (le req 24 8)
    → ∃ u, exec (.stageImage t req true true) s = .next u
      ∧ (verifyForm img kind s.flash (runningTrust s) = false → u.flash = s.flash)
      ∧ (verifyForm img kind s.flash (runningTrust s) = true → svnCounter s.flash kind ≤ imgSvn img →
          let old := (bootRecord s.flash).slot kind
          slotImage u.flash kind (1 - old) = img ∧ slotImage u.flash kind old = slotImage s.flash kind old
          ∧ (bootRecord u.flash).marks kind = (true, false) ∧ (bootRecord u.flash).slot kind = old)

/-- MODULE_RESET (R346, R370): the module answers and is then in a cold Dawn with every register at its reset value; the
flash, the weight store and the host's memory are not touched by the reset. -/
def Obligations.ModuleResetRestartsDawn : Prop :=
  ∀ (t : Time) (req : Bytes) (s : State), s.serves 0x0024 req
    → (s.job.phase = .idle ∨ s.job.phase = .maintenance ∨ s.job.phase = .eclipse ∨ s.dawn.phase = .recoveryBoot)
    → bodyClear req [] = true
    → ∃ u, exec (.moduleReset t req) s = .next u ∧ u.dawn.phase = .cold ∧ u.dawn.due = true ∧ u.job = {}
      ∧ u.tick = {} ∧ u.compute = {} ∧ u.link = {} ∧ u.mem.hbm = .empty ∧ u.mem.store = s.mem.store
      ∧ u.flash = s.flash

/-! ### The host interface -/

/-- A host pointer register (R352): a write to the pointer of an enabled ring that leaves at most SIZE entries takes
effect; on a disabled ring it is ignored with 0x6301, and one that would exceed SIZE with 0x6905. -/
def Obligations.PointerWritesTakeEffect : Prop :=
  ∀ (t : Time) (v : BitVec 32) (s : State) (n : Nat) (c : Instr),
    (n, c) ∈ [(0, Instr.hqInTail t v), (1, .hqOutHead t v), (2, .hqDataHead t v), (3, .evtHead t v),
      (4, .mbxReqTail t v), (5, .mbxRspHead t v)]
    → barOpen s = true → ringExists s n = true →
    ((s.ring n).enable = true → ({ s.ring n with host := v.toNat } : Ring).count n ≤ (s.ring n).size
      → ∃ u, exec c s = .next u ∧ (u.ring n).host = v.toNat ∧ (u.ring n).enable = true ∧ u.tick = s.tick
          ∧ u.compute = s.compute ∧ u.mem.hbm = s.mem.hbm)
    ∧ ((s.ring n).enable = true → (s.ring n).size < ({ s.ring n with host := v.toNat } : Ring).count n
      → ∃ u, exec c s = .next u ∧ (u.ring n).host = (s.ring n).host ∧ u.newest = some 0x6905)
    ∧ ((s.ring n).enable = false
      → ∃ u, exec c s = .next u ∧ (u.ring n).host = (s.ring n).host ∧ u.newest = some 0x6301)

/-- The setup of rings (R353): BASE, SIZE and the status page are written while the ring, or every ring, is disabled;
ENABLE starts a valid ring with its pointers at 0 and clears no other ring; DISABLE stops it. -/
def Obligations.RingSetupFollowsTheRules : Prop :=
  ∀ (t : Time) (s : State) (n : Nat), barOpen s = true → ringExists s n = true → s.shaped →
    (∀ v : BitVec 64, (s.ring n).enable = false → v.toNat % 4096 = 0
      → ∃ u, exec (.hqBase t n v) s = .next u ∧ u.ring n = { s.ring n with base := v.toNat })
    ∧ (∀ v : BitVec 32, (s.ring n).enable = false → sizeValid n v.toNat = true
      → ∃ u, exec (.hqSize t n v) s = .next u ∧ u.ring n = { s.ring n with size := v.toNat })
    ∧ (∀ v : BitVec 64, (∀ m, (s.ring m).enable = false)
      → ∃ u, exec (.hqStatusBase t v) s = .next u ∧ u.host.statusBase = v.toNat / 64 * 64)
    ∧ ((s.ring n).enable = false → (s.ring n).error = false → enableMayChange s = true
      → sizeValid n (s.ring n).size = true → baseValid n (s.ring n) = true → s.host.statusBase ≠ 0
      → ∃ u, exec (.ringEnable t n) s = .next u ∧ (u.ring n).enable = true ∧ (u.ring n).host = 0
          ∧ ∀ m, m ≠ n → (u.ring m).enable = (s.ring m).enable ∧ (u.ring m).host = (s.ring m).host)
    ∧ ((s.ring n).enable = true → ((s.ring n).error = true ∨ enableMayChange s = true)
      → ∃ u, exec (.ringDisable t n) s = .next u ∧ u.ring n = { s.ring n with enable := false }
          ∧ ∀ m, m ≠ n → u.ring m = s.ring m)

/-- A 64-bit register is read consistently (R44, R349): one read of 8 bytes returns its value, and of two reads of a word
the second returns the high word of the value at the first, whatever has happened to the register since. An event-log
entry is read consistently (R422): the read of the first word latches the whole entry, and the read of the last word
returns that entry's, whatever has been logged since, and releases it. Every other access to BAR0 and BAR2 (R344, R346,
R349, R350): a write of BAR0 that no row of the table takes is ignored, the MSI-X table keeps what is written, and BAR2
reads and writes the host-exchange region; an access of another size or alignment is reported with 0x6303 and reads zero,
and a read during a Function Level Reset is an unsupported request. -/
def Obligations.RegistersAreReadConsistently : Prop :=
  (∀ (t1 t2 : Time) (s v : State) (off value : Nat), barOpen s = true → off % 8 = 0
    → readRegister (s.arrive t1) off = some (8, value) →
    (∃ u, exec (.register64LowRead t1 ⟨.bar0, off, 8⟩) s = .next u ∧ u.host.readData = toLe 8 value
      ∧ u.host.completion = .success)
    ∧ ∃ u, exec (.register64LowRead t1 ⟨.bar0, off, 4⟩) s = .next u ∧ u.host.readData = toLe 4 value
      ∧ u.host.completion = .success
      ∧ (barOpen v = true → v.host.latch = u.host.latch → (∃ w, readRegister (v.arrive t2) off = some (8, w))
        → readRegister (v.arrive t2) (off + 4) = none
        → ∃ w, exec (.register64HighRead t2 (off + 4)) v = .next w ∧ w.host.completion = .success
          ∧ w.host.readData = toLe 4 (value / 4294967296) ∧ w.host.latch = v.host.latch.filter (·.1 != off + 4)))
  ∧ (∀ (t1 t2 : Time) (s v : State) (n : Nat), barOpen s = true → n < 256 → s.dawn.phase ≠ .recoveryBoot →
    ∃ u, exec (.errEntryRead t1 n) s = .next u ∧ u.host.readData = (errEntry (s.arrive t1) n).take 4
      ∧ (barOpen v = true → v.dawn.phase ≠ .recoveryBoot → v.host.errLatch = u.host.errLatch
        → ∃ w, exec (.errEntryLastRead t2 n) v = .next w
          ∧ w.host.readData = slice (errEntry (s.arrive t1) n) 28 4
          ∧ w.host.errLatch = v.host.errLatch.filter (·.1 != n)))
  ∧ (∀ (t : Time) (s : State),
    (barOpen s = true →
      (∀ (off : Nat) (b : Bytes), accessOk off b.length = true → off + b.length ≤ 0xF0000
        → exec (.registerWrite t ⟨.bar0, off⟩ b) s = .next (s.arrive t))
      ∧ (∀ (off : Nat) (b : Bytes), accessOk off b.length = true → 0xF0000 ≤ off → off + b.length ≤ 0xF0400
        → s.host.msixTable.length = 256
        → ∃ u, exec (.registerWrite t ⟨.bar0, off⟩ b) s = .next u
          ∧ u = { s.arrive t with host := { s.host with msixTable := u.host.msixTable } }
          ∧ ∀ i, i < b.length / 4 → u.host.msixTable[(off - 0xF0000) / 4 + i]? = some (le b (4 * i) 4))
      ∧ (∀ (off : Nat) (b : Bytes), accessOk off b.length = false
        → ∃ u, exec (.registerWrite t ⟨.bar0, off⟩ b) s = .next u ∧ u.newest = some 0x6303 ∧ u.mem.hbm = s.mem.hbm)
      ∧ (∀ (off : Nat) (b : Bytes), s.mem.wf = true → off + b.length ≤ exchangeSize
        → ∃ u, exec (.registerWrite t ⟨.bar2, off⟩ b) s = .next u ∧ u.readExchange off b.length = b
          ∧ (∀ a, a < exchangeBase + off ∨ exchangeBase + off + b.length ≤ a → u.mem.hbm.read a = s.mem.hbm.read a)
          ∧ u.job = s.job ∧ u.compute = s.compute)
      ∧ (∀ off size : Nat, off + size ≤ exchangeSize
        → ∃ u, exec (.register64LowRead t ⟨.bar2, off, size⟩) s = .next u ∧ u.host.readData = s.readExchange off size
          ∧ u.host.completion = .success ∧ u.mem = s.mem)
      ∧ (∀ off size : Nat, ∃ u, exec (.unsupportedBar0Access t off size false) s = .next u
        ∧ u.host.readData = zeros size ∧ u.newest = some 0x6303 ∧ u.job = s.job ∧ u.tick = s.tick)
      ∧ (∀ off size : Nat, ∃ u, exec (.unsupportedBar0Access t off size true) s = .next u
        ∧ u.newest = some 0x6303 ∧ u.job = s.job ∧ u.tick = s.tick ∧ u.compute = s.compute))
    ∧ (s.host.flr = true → s.host.linkUp = true → ∀ off size : Nat, accessOk off size = true
      → ∃ u, exec (.register64LowRead t ⟨.bar0, off, size⟩) s = .next u ∧ u.host.completion = .unsupported
        ∧ u.host.readData = []))

/-- An MSI-X vector that is due is signalled once, and not again within 50 µs of its newest message (R363).
DMA_COMPLETION_ERROR completes by stopping its ring with ERROR and 0x6906, and no other; one of the status page stops none;
Advanced Error Reporting records both (R355). -/
def Obligations.InterruptsAndDmaErrorsConcernTheirRing : Prop :=
  (∀ (t : Time) (n : Nat) (s : State), n < 4 → s.shaped
    → s.host.msixDue[n]? = some true → s.host.linkUp = true →
    ((∀ a, s.host.msixLast[n]? = some (some a) → a + us 50 ≤ max s.now t)
      → ∃ u, exec (.msixSignal t n) s = .next u ∧ u.host.msixDue[n]? = some false
          ∧ u.host.msixLast[n]? = some (some (max s.now t)))
    ∧ (∀ a, s.host.msixLast[n]? = some (some a) → max s.now t < a + us 50
      → exec (.msixSignal t n) s = .next (s.arrive t)))
  ∧ (∀ (t : Time) (s : State),
    (∀ n, n < 6 → (s.ring n).enable = true → (s.ring n).error = false
      → ∃ u, exec (.dmaCompletionError t (some n)) s = .next u ∧ (u.ring n).error = true ∧ u.newest = some 0x6906
          ∧ u.served n = false ∧ u.host.aer = true)
    ∧ ((∃ r ∈ s.host.rings, r.enable = true)
      → ∃ u, exec (.dmaCompletionError t none) s = .next u ∧ u.newest = some 0x6906 ∧ u.host.aer = true
          ∧ ∀ m, (u.ring m).error = (s.ring m).error))

/-- A configuration request completes with Configuration Request Retry Status until enumeration opens and during a
Function Level Reset, and normally afterwards, showing device 0xA7C0 and class 0x12_0000 (R343, R345); with the endpoint
in reset it does not complete. It changes nothing else. The link (R343, R345, R347): PCIE_LINK_LOSS completes with no
bandwidth left and the job going on, the deassertion of PERST_N starts the retry period, and training gives the bandwidth
of the plan's check. -/
def Obligations.TheLinkComesAndGoes : Prop :=
  (∀ (t : Time) (offset : Nat) (s : State),
    (s.host.perstN = true → s.host.linkUp = true → s.dawn.phase ≠ .unpowered →
      ∃ u, exec (.configurationRequest ⟨t, offset⟩) s = .next u
        ∧ (u.host.completion = .retry ↔ (s.host.enumOpen = false ∨ s.host.flr = true))
        ∧ (u.host.completion = .success ↔ (s.host.enumOpen = true ∧ s.host.flr = false))
        ∧ (s.host.enumOpen = true → s.host.flr = false →
          (offset = 0 → u.host.readData = toLe 4 (0xA7C0 * 65536 + Config.vendorId.toNat))
          ∧ (offset = 8 → ∃ r, r < 256 ∧ u.host.readData = toLe 4 (0x120000 * 256 + r)))
        ∧ u.job = s.job ∧ u.dawn = s.dawn ∧ u.mem = s.mem)
    ∧ (s.host.perstN = false → ∃ u, exec (.configurationRequest ⟨t, offset⟩) s = .next u ∧ u.host.completion = .none
      ∧ u.host.readData = [] ∧ u.job = s.job))
  ∧ (∀ (t : Time) (s : State),
    (∃ u, exec (.pcieLinkLoss t) s = .next u ∧ u.host.linkUp = false ∧ u.host.mbps = 0 ∧ u.job = s.job
      ∧ u.tick = s.tick)
    ∧ (∃ u, exec (.perstNDeassert t) s = .next u ∧ u.host.perstN = true ∧ u.host.retryFrom = some (max s.now t)
      ∧ u.job = s.job)
    ∧ (∀ mbps, s.host.perstN = true → s.dawn.phase ≠ .unpowered
      → ∃ u, exec (.pcieLinkTrained t mbps) s = .next u ∧ u.host.linkUp = true ∧ u.host.mbps = mbps
        ∧ u.tick = s.tick))

/-- FUNCTION_LEVEL_RESET and CONVENTIONAL_RESET complete: they stop a running job without keeping its checkpoint, disable every
ring with its pointers at 0, and discard input, waiting records and responses; Dawn does not restart (R346). The reset
ends with 0x6401. -/
def Obligations.FunctionResetsDisableTheRings : Prop :=
  ∀ (t : Time) (s : State), s.dawn.phase = .passed →
    (s.host.linkUp = true
      → ∃ u, exec (.functionLevelReset t) s = .next u ∧ u.host.flr = true ∧ u.host.linkUp = true
          ∧ (∀ n, (u.ring n).enable = false ∧ (u.ring n).host = 0 ∧ (u.ring n).mine = 0)
          ∧ u.host.conds = [] ∧ u.host.waiting = [] ∧ u.host.responses = [] ∧ u.dawn.phase = .passed
          ∧ ((s.job.phase = .running ∨ s.job.phase = .draining) → u.stopped ∧ u.job.retained = none))
    ∧ (∃ u, exec (.conventionalReset t) s = .next u ∧ u.host.flr = true ∧ u.host.linkUp = false ∧ u.host.mbps = 0
          ∧ (∀ n, (u.ring n).enable = false ∧ (u.ring n).host = 0 ∧ (u.ring n).mine = 0) ∧ u.dawn.phase = .passed)
    ∧ (s.host.flr = true → s.job.deferred = none
      → ∃ u, exec (.flrComplete t) s = .next u ∧ u.host.flr = false ∧ u.newest = some 0x6401 ∧ u.job = s.job)

/-- An input record (R27, R28, R357, R358): one in range frees its entry, and, if it is valid and its
payloads were read, joins the conditioning of its frame; one too far ahead waits at the head of its ring; an invalid
one is discarded with 0x6902 and one past with 0x6904. Which records a plan declares valid is a matter of Config. -/
def Obligations.InputRecordsArePairedWithFrames : Prop :=
  ∀ (t : Time) (r : Bytes) (ps : List (Option Bytes)) (s : State), takesInput s = true →
    (ptrDiff (recFrame r) s.job.nextFrame < 16
      → ∃ u, exec (.inputRecord t r ps) s = .next u ∧ (u.ring 0).mine = ptrAdd (s.ring 0).mine 1 ∧ u.job = s.job
          ∧ ((recordValid s.plan r && payloadsRead r ps) = true → u.host.conds = s.host.conds
              ++ [⟨recFrame r, s.host.arrivals.headD (max s.now t), recordSegments r ps⟩])
          ∧ ((recordValid s.plan r && payloadsRead r ps) = false
              → u.host.conds = s.host.conds ∧ u.newest = some 0x6902))
    ∧ (16 ≤ ptrDiff (recFrame r) s.job.nextFrame → ptrDiff (recFrame r) s.job.nextFrame < 0x80000000
      → ∃ u, exec (.inputRecord t r ps) s = .next u ∧ u.host.heldFrame = some (recFrame r)
          ∧ u.ring 0 = s.ring 0 ∧ u.host.conds = s.host.conds)
    ∧ (0x80000000 ≤ ptrDiff (recFrame r) s.job.nextFrame
      → ∃ u, exec (.inputRecord t r ps) s = .next u ∧ u.host.conds = s.host.conds
          ∧ (u.ring 0).mine = ptrAdd (s.ring 0).mine 1
          ∧ u.newest = some (if recordValid s.plan r && payloadsRead r ps then 0x6904 else 0x6902))

/-! ### Commands of the engines -/

/-- An engine command issues (R53, R61, R67): where it is the next of its core's list, may issue, and neither leaves its
spaces nor kills itself, it is in flight with its staging queue, its outputs stand in the memories, and every byte of the
module's memories outside its outputs is as before; nothing has committed and no event has been counted. -/
def Obligations.EngineCommandsIssue : Prop :=
  ∀ (i : Instr) (e : Issue) (s s' : State) (place : Nat) (c : Bytes) (cx : Access) (w : Work), issueOf i = some e
    → s' = s.arrive i.time → s.mem.wf = true → nextCommand s' e.core = some (place, c) → e.asked c = true
    → canIssue s' e.core c = true → (∀ x ∈ e.tensors s' c, (s'.tensor x).inside = true)
    → cx = accessFor s' e.core c e.host → w = e.work cx c s' → w.kill = none
    → ∃ (u : State) (cirrus : CirrusPhase), exec i s = .next u
      ∧ u.compute.runs = s.compute.runs ++ [launched e.core place c cx w cirrus (freeChannel s' e.core c)]
      ∧ u.compute.done = s.compute.done ∧ u.compute.counts = s.compute.counts ∧ u.compute.ordered = s.compute.ordered
      ∧ u.tick = s.tick ∧ u.job.phase = s.job.phase ∧ u.job.committed = s.job.committed ∧ u.link = s.link
      ∧ u.media = s.media ∧ u.dawn = s.dawn ∧ u.nimbus = s.nimbus ∧ u.stratus = s.stratus
      ∧ (∀ sp, sp ≠ .host → u.mem.get sp = (w.outs.foldl (fun t o => writeOut cx o t) s').mem.get sp)
      ∧ ∀ sp a, sp ≠ .host → (∀ o ∈ w.outs, ¬ o.stores cx s' sp a) → (u.mem.get sp).read a = (s.mem.get sp).read a

/-- An engine command that is not the next of its core's list, or may not issue yet (R53), waits: nothing changes but
module time; one that lacks the edge engine alone stands in the queue of requests for it (R215). An engine command or a
collective faults exactly where a descriptor that it names leaves its space (R61). -/
def Obligations.EngineCommandsWaitOrFault : Prop :=
  (∀ (i : Instr) (e : Issue) (s : State), issueOf i = some e →
    ((nextCommand (s.arrive i.time) e.core = none
      ∨ ∃ place c, nextCommand (s.arrive i.time) e.core = some (place, c)
          ∧ (e.asked c = false ∨ mayIssue (s.arrive i.time) e.core c = false))
      → exec i s = .next (s.arrive i.time))
    ∧ (∀ place c, nextCommand (s.arrive i.time) e.core = some (place, c) → e.asked c = true
      → mayIssue (s.arrive i.time) e.core c = true → edgeFree (s.arrive i.time) e.core c = false
      → ∃ u, exec i s = .next u
        ∧ u = { s.arrive i.time with compute := { s.compute with edgeQueue := u.compute.edgeQueue } }
        ∧ (∃ q ∈ u.compute.edgeQueue, q.1 = e.core) ∧ ∀ q ∈ s.compute.edgeQueue, q ∈ u.compute.edgeQueue))
  ∧ ((∀ (i : Instr) (e : Issue) (s : State) (place : Nat) (c : Bytes), issueOf i = some e
    → nextCommand (s.arrive i.time) e.core = some (place, c) → e.asked c = true
    → canIssue (s.arrive i.time) e.core c = true
    → (exec i s = .fault .addressOutsideSpace
        ↔ ∃ x ∈ e.tensors (s.arrive i.time) c, ((s.arrive i.time).tensor x).inside = false))
  ∧ (∀ (i : Instr) (core : Nat) (asked : Bytes → Bool) (s : State) (place : Nat) (c : Bytes),
    collectiveOf i = some (core, asked)
    → nextCommand (s.arrive i.time) core = some (place, c) → asked c = true
    → canIssue (s.arrive i.time) core c = true
    → (exec i s = .fault .addressOutsideSpace
        ↔ ∃ x ∈ collTensors (s.arrive i.time) c, ((s.arrive i.time).tensor x).inside = false)))

/-- An engine command that kills itself (an index of the plan that is wrong, a broken partition of an attention, a slot
that is not final) is reported with its code, and the tick enters Squall with nothing in flight. COMMAND_DEADLINE (R59,
R334) completes by killing a command that has not committed by its deadline: 0x1702, and the tick enters Squall; a
collective of a ring starts the common abort with 0x3A02. -/
def Obligations.CommandsThatFailBeginSquall : Prop :=
  (∀ (i : Instr) (e : Issue) (s s' : State) (place : Nat) (c : Bytes) (code : Nat), issueOf i = some e
    → s' = s.arrive i.time → nextCommand s' e.core = some (place, c) → e.asked c = true
    → canIssue s' e.core c = true → (∀ x ∈ e.tensors s' c, (s'.tensor x).inside = true)
    → (e.work (accessFor s' e.core c e.host) c s').kill = some code
    → s.job.dusk = none → s.dawn.phase ≠ .eclipse
    → ∃ u, exec i s = .next u ∧ u.job.phase = .squall ∧ u.compute.runs = [] ∧ u.compute.inReset = true
      ∧ u.sideband.faultN = true ∧ (s.inRing = false → u.newest = some code))
  ∧ (∀ (t : Time) (s : State) (core idx : Nat) (c : Bytes), overdue (s.arrive t) core idx = some c
    → s.job.dusk = none → s.dawn.phase ≠ .eclipse →
    ((cmdOpcode c = 0x07 ∨ cmdOpcode c = 0x08) → s.inRing = true → s.aborted = false
      → ∃ u, exec (.commandDeadline t core idx) s = .next u ∧ u.job.phase = .squall ∧ u.compute.runs = []
        ∧ u.link.abortTick = some s.tick.index)
    ∧ ((s.inRing = false ∨ (cmdOpcode c ≠ 0x07 ∧ cmdOpcode c ≠ 0x08))
      → ∃ u, exec (.commandDeadline t core idx) s = .next u ∧ u.job.phase = .squall ∧ u.compute.runs = []
        ∧ (s.inRing = false → u.newest = some 0x1702)))

/-- A collective issues (R326, R328, R330): it is in flight on its core and goes as far as the parts that have arrived
allow. A COLL_MM that still awaits parts, and every COLL_MOVE, stays in flight; a COLL_MM does so too unless the work on
its own slice kills it. -/
def Obligations.CollectivesIssue : Prop :=
  ∀ (i : Instr) (core : Nat) (asked : Bytes → Bool) (s s' : State) (place : Nat) (c : Bytes),
    collectiveOf i = some (core, asked) → s' = s.arrive i.time → nextCommand s' core = some (place, c)
    → asked c = true → canIssue s' core c = true → (∀ x ∈ collTensors s' c, (s'.tensor x).inside = true)
    → s'.run core (cmdIndex c) = none →
    (cmdOpcode c = 0x08 ∨ (∃ q ∈ collPeers s' c, arrived s' c q false = false)
      → ∃ u, exec i s = .next u ∧ u.job = s.job ∧ u.tick = s.tick ∧ u.dawn = s.dawn ∧ u.flash = s.flash
        ∧ u.mem.store = s.mem.store
        ∧ ∃ r ∈ u.compute.runs, r.core = core ∧ r.place = place ∧ r.cmd = c ∧ r.phase = .running)
    ∧ (∃ u, exec i s = .next u ∧ (u.compute.abandoned = false
        → ∃ r ∈ u.compute.runs, r.core = core ∧ r.place = place ∧ r.cmd = c ∧ r.phase = .running))

/-- WAIT and SIGNAL (R62, R66): a WAIT whose events are all set, and a SIGNAL before which every command of its list has
committed, commits at once, and each event that it signals counts once more for each time that it names it. A WAIT with an
event that is not set, and a SIGNAL with a command before it that has not committed, is in flight and has committed
nothing (R66). -/
def Obligations.WaitAndSignalFollowTheirEvents : Prop :=
  (∀ (t : Time) (s s' : State) (core place : Nat) (c : Bytes), s' = s.arrive t
    → nextCommand s' core = some (place, c) → canIssue s' core c = true
    → (∀ r ∈ s.compute.runs, r.core = core → r.place ≠ place ∧ cmdIndex r.cmd ≠ cmdIndex c)
    → cmdCommitOnFinish c = true → cirrusSelects s' c = false → (∀ a ∈ s.compute.agreed, a.1 ≠ (core, place))
    → (∀ ev ∈ commitSignals c, ev ≠ 0 →
        eventCount s ev core + (commitSignals c).count ev ≤ eventTarget s.plan s.job.path ev (eventScope ev core)) →
    (cmdOpcode c = 0x09 → (∀ ev ∈ cmdEvents c, eventSet s' ev core = true)
      → ∃ u, exec (.wait t core) s = .next u ∧ u.compute.done = s.compute.done ++ [(core, place)]
        ∧ u.compute.runs = s.compute.runs
        ∧ (∀ ev, ev ≠ 0 → eventCount u ev core = eventCount s ev core + (commitSignals c).count ev)
        ∧ u.mem = s.mem ∧ u.tick = s.tick)
    ∧ (cmdOpcode c = 0x0A → (∀ j, j < place → (core, j) ∈ s.compute.done)
      → ∃ u, exec (.signal t core) s = .next u ∧ u.compute.done = s.compute.done ++ [(core, place)]
        ∧ u.compute.runs = s.compute.runs
        ∧ (∀ ev, ev ≠ 0 → eventCount u ev core = eventCount s ev core + (commitSignals c).count ev)
        ∧ u.mem = s.mem ∧ u.tick = s.tick))
  ∧ (∀ (t : Time) (s s' : State) (core place : Nat) (c : Bytes), s' = s.arrive t
    → nextCommand s' core = some (place, c) → canIssue s' core c = true → s'.run core (cmdIndex c) = none →
    (cmdOpcode c = 0x09 → (∃ ev ∈ cmdEvents c, eventSet s' ev core = false)
      → ∃ u, exec (.wait t core) s = .next u ∧ u.compute.done = s.compute.done ∧ u.compute.counts = s.compute.counts
        ∧ ∃ r ∈ u.compute.runs, r.core = core ∧ r.place = place ∧ r.cmd = c ∧ r.phase = .running)
    ∧ (cmdOpcode c = 0x0A → (∃ j, j < place ∧ (core, j) ∉ s.compute.done)
      → ∃ u, exec (.signal t core) s = .next u ∧ u.compute.done = s.compute.done ∧ u.compute.counts = s.compute.counts
        ∧ ∃ r ∈ u.compute.runs, r.core = core ∧ r.place = place ∧ r.cmd = c ∧ r.phase = .running))

/-- COMMIT (R66): where every command of its range has committed it commits at once; and wherever it commits, every
command of its range has. -/
def Obligations.CommitCoversItsRange : Prop :=
  ∀ (t : Time) (s s' : State) (core place : Nat) (c : Bytes), s' = s.arrive t
    → nextCommand s' core = some (place, c) → canIssue s' core c = true
    → (∀ r ∈ s.compute.runs, r.core = core → r.place ≠ place ∧ cmdIndex r.cmd ≠ cmdIndex c)
    → cmdOpcode c = 0x0B → cmdCommitOnFinish c = true → cirrusSelects s' c = false
    → (∀ a ∈ s.compute.agreed, a.1 ≠ (core, place)) → (core, place) ∉ s.compute.done →
    ((∀ p ∈ commitRange s' core c, (core, p.1) ∈ s.compute.done)
      → (∀ r ∈ s.compute.runs, r.core = core → ∀ p ∈ commitRange s' core c, r.place ≠ p.1)
      → cmdSignalEvent c = 0 → (∀ p ∈ commitRange s' core c, p.1 ≠ place)
      → ∃ u, exec (.commit t core) s = .next u ∧ u.compute.done = s.compute.done ++ [(core, place)])
    ∧ (∀ u, exec (.commit t core) s = .next u → (core, place) ∈ u.compute.done
      → ∀ p ∈ commitRange s' core c, (core, p.1) ∈ u.compute.done)

/-- COMMAND_FINISH (R67, R69): a command whose engine is done and that commits at its finish has committed, with its
slots free; one that does not stays in flight, staged; one that Cirrus selected awaits its comparison with its digest. -/
def Obligations.FinishedCommandsCommitOrStay : Prop :=
  ∀ (t : Time) (s : State) (core idx : Nat) (err : BitVec 64) (r : Run), s.run core idx = some r
    → r.phase = .running → workDone s r = true → cmdOpcode r.cmd ≠ 0x0B → s.compute.abandoned = false →
    (r.cirrus = .none → cmdCommitOnFinish r.cmd = true → r.staged = [] → commitSignals r.cmd = [0]
      → ∃ u, exec (.commandFinish t core idx err) s = .next u
        ∧ u.compute.done = s.compute.done ++ [(r.core, r.place)]
        ∧ u.compute.runs = s.compute.runs.filter (fun x => !(x.core == r.core && x.place == r.place))
        ∧ u.compute.counts = s.compute.counts ∧ u.mem = s.mem ∧ u.tick = s.tick)
    ∧ (r.cirrus = .none → cmdCommitOnFinish r.cmd = false
      → ∃ u, exec (.commandFinish t core idx err) s = .next u ∧ u.compute.done = s.compute.done
        ∧ { r with phase := .finished } ∈ u.compute.runs ∧ u.mem = s.mem ∧ u.tick = s.tick)
    ∧ (∀ o, r.cirrus = .selected o
      → ∃ u, exec (.commandFinish t core idx err) s = .next u ∧ u.compute.done = s.compute.done
        ∧ { r with phase := .finished, cirrus := .selected (some (withError (digestOf r) err)) } ∈ u.compute.runs)

/-- Atomics apply at commit (R253, R254, Table 10.3): the word holds the operation's result, RESULT the old value, and
every other byte of the module's memories is as before. The results of the atomics on one word of n bytes (Table 10.3). -/
def Obligations.AtomicsFollowTheTable : Prop :=
  (∀ (t : Time) (s : State) (core idx : Nat) (r : Run) (op : AtomicOp) (wide : Bool) (addr v cmp : Nat)
    (res : Option (Space × Nat)), s.mem.wf = true → s.run core idx = some r → r.phase = .running
    → workDone s r = true → (r.cmd.length = 64 ∧ cmdOpcode r.cmd = 0x05) → r.cirrus = .none
    → cmdCommitOnFinish r.cmd = true → s.compute.abandoned = false → commitSignals r.cmd = [0]
    → r.staged = [.atomic op wide addr v cmp res] → (∀ sp a, res = some (sp, a) → sp ≠ .cache ∧ sp ≠ .host)
    → ∃ u, exec (.commandFinish t core idx 0) s = .next u
      ∧ (let n := if wide then 8 else 4
        let old := leValue (s.readMem .cache addr n)
        u.readMem .cache addr n = toLe n (op.apply n old v cmp)
          ∧ (∀ sp a, res = some (sp, a) → u.readMem sp a n = toLe n old)
          ∧ (∀ a, a < addr ∨ addr + n ≤ a → u.mem.cache.read a = s.mem.cache.read a)
          ∧ ∀ sp a, sp ≠ .cache → sp ≠ .host → (∀ b, res = some (sp, b) → a < b ∨ b + n ≤ a)
            → (u.mem.get sp).read a = (s.mem.get sp).read a))
  ∧ (∀ n t v c : Nat, 0 < n → t < 2 ^ (8 * n) → v < 2 ^ (8 * n) →
    AtomicOp.iadd.apply n t v c = (t + v) % 2 ^ (8 * n)
    ∧ signed (8 * n) (AtomicOp.smin.apply n t v c) = min (signed (8 * n) t) (signed (8 * n) v)
    ∧ signed (8 * n) (AtomicOp.smax.apply n t v c) = max (signed (8 * n) t) (signed (8 * n) v)
    ∧ AtomicOp.umin.apply n t v c = min t v ∧ AtomicOp.umax.apply n t v c = max t v
    ∧ AtomicOp.and.apply n t v c = t &&& v ∧ AtomicOp.or.apply n t v c = t ||| v ∧ AtomicOp.xor.apply n t v c = t ^^^ v
    ∧ AtomicOp.exch.apply n t v c = v
    ∧ AtomicOp.cas.apply n t v c = (if t = c then v else t)
    ∧ ∀ op : AtomicOp, op.apply n t v c < 2 ^ (8 * n))

/-- Cirrus (R398, R401 to R404, Table 15.3). CIRRUS_COMPARE completes once the duplicate has run: equal digests clear the
original; the first difference of a tick starts an arbitration, a second one Squall with 0x4301. CIRRUS_ARBITRATION
completes once the arbiter has run: its digest clears an original that it confirms, and kills and re-issues one that the
duplicate outvotes. PARITY_FAULT (R397, R398, R327) completes by killing its command, which is issued again, once per tick
on a single module; a second one in the tick, and one of a collective, is Squall. One in a duplicate drops the duplicate
and lets the original go on unchecked. -/
def Obligations.RedundancyCatchesFaults : Prop :=
  (∀ (t : Time) (s : State) (core idx : Nat) (err : BitVec 64) (r : Run), s.run core idx = some r →
    (∀ d, r.phase = .finished → r.cirrus = .selected (some d) → guestRuns s core r.place false = true →
      (withError (digestOf r) err = d → cmdCommitOnFinish r.cmd = false
        → ∃ u, exec (.cirrusCompare t core idx err) s = .next u ∧ { r with cirrus := .cleared } ∈ u.compute.runs
          ∧ u.compute.done = s.compute.done)
      ∧ (withError (digestOf r) err ≠ d → s.job.level1Used = false
        → ∃ u, exec (.cirrusCompare t core idx err) s = .next u ∧ u.job.level1Used = true
          ∧ { r with cirrus := .arbitrating d (withError (digestOf r) err) } ∈ u.compute.runs)
      ∧ (withError (digestOf r) err ≠ d → s.job.level1Used = true
        → (s.job.phase = .running ∨ s.job.phase = .draining) → s.job.dusk = none → s.dawn.phase ≠ .eclipse
        → ∃ u, exec (.cirrusCompare t core idx err) s = .next u ∧ u.job.phase = .squall ∧ u.compute.runs = []))
    ∧ (∀ d0 d1, r.cirrus = .arbitrating d0 d1 → guestRuns s core r.place true = true →
      (withError (digestOf r) err = d0 → cmdCommitOnFinish r.cmd = false
        → ∃ u, exec (.cirrusArbitration t core idx err) s = .next u
          ∧ (u.dawn.phase ≠ .eclipse → { r with cirrus := .cleared } ∈ u.compute.runs))
      ∧ (withError (digestOf r) err = d1 → d1 ≠ d0 → s.inRing = false
        → ∃ u, exec (.cirrusArbitration t core idx err) s = .next u
          ∧ (u.dawn.phase ≠ .eclipse → (r.core, r.place, r.cmd) ∈ u.compute.reissue
              ∧ ∀ x ∈ u.compute.runs, ¬ (x.core = r.core ∧ x.place = r.place)))
      ∧ (withError (digestOf r) err ≠ d0 → withError (digestOf r) err ≠ d1
        → (s.job.phase = .running ∨ s.job.phase = .draining) → s.job.dusk = none → s.dawn.phase ≠ .eclipse
        → ∃ u, exec (.cirrusArbitration t core idx err) s = .next u ∧ u.compute.runs = []
          ∧ (u.dawn.phase ≠ .eclipse → u.job.phase = .squall))))
  ∧ (∀ (t : Time) (s : State) (core idx : Nat) (r : Run), s.run core idx = some r → s.dawn.phase ≠ .eclipse
    → s.inRing = false →
    (s.job.level1Used = false → classOf (cmdOpcode r.cmd) ≠ .link
      → ∃ u, exec (.parityFault t core idx false) s = .next u ∧ (u.dawn.phase ≠ .eclipse →
        (r.core, r.place, r.cmd) ∈ u.compute.reissue ∧ u.job.level1Used = true
          ∧ ∀ x ∈ u.compute.runs, ¬ (x.core = r.core ∧ x.place = r.place)))
    ∧ ((s.job.level1Used = true ∨ classOf (cmdOpcode r.cmd) = .link)
      → (s.job.phase = .running ∨ s.job.phase = .draining) → s.job.dusk = none
      → ∃ u, exec (.parityFault t core idx false) s = .next u ∧ u.compute.runs = []
        ∧ (u.dawn.phase ≠ .eclipse → u.job.phase = .squall))
    ∧ (∀ o, r.cirrus = .selected o → cmdCommitOnFinish r.cmd = false
      → ∃ u, exec (.parityFault t core idx true) s = .next u ∧ (u.dawn.phase ≠ .eclipse →
        { r with cirrus := .none } ∈ u.compute.runs)))

/-! ### Numbers, draws and reductions -/

/-- The codes of F8 and F4 (R74): the NaN codes, and the value of every other code, n × 2^e, here in units of the smallest
subnormal: 2^-9 for F8, so that M/8 × 2^-6 is M units and (1 + M/8) × 2^(E-7) is (8 + M) × 2^(E-1) units; 2^-1 for F4. -/
def Obligations.EightAndFourBitCodesHaveTheirValues : Prop :=
  (∀ c : Nat, c < 256 →
    let ex := c / 8 % 16
    let m := c % 8
    (gF8.decode c = .nan ↔ c = 0x80)
    ∧ (c ≠ 0x80 → ∃ n e, gF8.decode c = .fin (decide (128 ≤ c)) n e ∧ -9 ≤ e
        ∧ n * 2 ^ (e + 9).toNat = if ex = 0 then m else (8 + m) * 2 ^ (ex - 1)))
  ∧ (∀ c : Nat, c < 16 →
    let ex := c / 2 % 4
    let m := c % 2
    (gF4.decode c = .nan ↔ c = 0x8)
    ∧ (c ≠ 0x8 → ∃ n e, gF4.decode c = .fin (decide (8 ≤ c)) n e ∧ -1 ≤ e
        ∧ n * 2 ^ (e + 1).toNat = if ex = 0 then m else (2 + m) * 2 ^ (ex - 1)))

/-- An F8 operand takes part in arithmetic exactly as F8S with every scale equal to 0x7F (R81): its elements have the values of
F8S elements with that scale, and the pairs form the same blocks, summed in the same way. -/
def Obligations.EightBitOperandsCountAsScaledByOne : Prop :=
  (∀ (s : State) (cx : Access) (t : Tensor) (ix : List Nat), t.fmt = .f8 →
    readVal s cx t ix = elementVal .f8s (readCode s cx t ix) 0x7F)
  ∧ blockSize .f8 = blockSize .f8s ∧ sumsExactly .f8 = sumsExactly .f8s

/-- A uniform value is u = (w0 div 2^8) × 2^-24, exactly, below 1 and in steps of 2^-24, and a raw value is w0 (R188): RNG
MOD 0 returns u and MOD 3 the raw value. Values are in units of 2^-149. -/
def Obligations.UniformValuesAreExact : Prop :=
  ∀ d : Draw, d.w0 < 2 ^ 32 →
    (∃ m e, val32 (uniformOf d) = .fin false m e ∧ -149 ≤ e ∧ m * 2 ^ (e + 149).toNat = d.w0 / 2 ^ 8 * 2 ^ 125)
    ∧ d.w0 / 2 ^ 8 * 2 ^ 125 ≤ 2 ^ 149 - 2 ^ 125 ∧ rngValue 0 d = uniformOf d ∧ rngValue 3 d = BitVec.ofNat 32 d.w0

/-- The tree of R94, and R96: a division of a reduction among parts, each the blocks of one node and together every block
once, combined above those nodes, gives the same bits as one evaluation of the whole tree, whatever the leaves and the
combination are. -/
def Obligations.DividedReductionsGiveTheSameBits : Prop :=
  ∀ (f : Word → Word → Word) (leaf : Nat → Word),
    (∀ lo, tree f leaf lo (lo + 1) = leaf lo)
    ∧ (∀ lo hi, lo + 1 < hi → ∃ j, 2 ^ j < hi - lo ∧ hi - lo ≤ 2 * 2 ^ j
        ∧ tree f leaf lo hi = f (tree f leaf lo (lo + 2 ^ j)) (tree f leaf (lo + 2 ^ j) hi))
    ∧ ∀ (n : Nat) (parts : List (Nat × Nat)), 0 < n → (∀ p ∈ parts, isNode n p.1 p.2 = true)
      → (∀ i, i < n → ∃ p ∈ parts, p.1 ≤ i ∧ i < p.2)
      → (∀ p ∈ parts, ∀ q ∈ parts, ∀ i, p.1 ≤ i → i < p.2 → q.1 ≤ i → i < q.2 → p = q)
      → treeParts f (fun lo hi => if (lo, hi) ∈ parts then some (tree f leaf lo hi) else none) (ceilLog2 n + 1) 0 n
        = some (tree f leaf 0 n)

/-- The CRC of the memory tiers (R266): CRC-32C, bit by bit over the reflected polynomial from an initial value of all ones
with a final exclusive-or of all ones; of the ASCII bytes 123456789 it is 0xE306_9283. -/
def Obligations.ChecksumsAreCrc32c : Prop :=
  crc32c [] = 0
    ∧ (∀ (b : Bytes) (x : Byte),
      let shift := fun r : Nat => if r % 2 = 1 then (r / 2) ^^^ 0x82F63B78 else r / 2
      crc32c (b ++ [x])
        = ((List.range 8).foldl (fun r _ => shift r) ((crc32c b ^^^ 0xFFFFFFFF) ^^^ x.toNat)) ^^^ 0xFFFFFFFF)
    ∧ crc32c [0x31, 0x32, 0x33, 0x34, 0x35, 0x36, 0x37, 0x38, 0x39] = 0xE3069283

/-- For one seed and stream, distinct counters always give distinct 128-bit draws (R180). -/
def Obligations.DistinctCountersGiveDistinctDraws : Prop :=
  ∀ seed stream i e st d i' e' st' d' : Nat,
    i < 2 ^ 64 → e < 2 ^ 32 → st < 2 ^ 16 → d < 2 ^ 16 → i' < 2 ^ 64 → e' < 2 ^ 32 → st' < 2 ^ 16 → d' < 2 ^ 16 →
    mix seed stream i e st d = mix seed stream i' e' st' d' → i = i' ∧ e = e' ∧ st = st' ∧ d = d'

/-- Contributions to an ordered slot merge in ascending contributor index as a left fold, in whatever order they arrive
(R152, R256); FP32 values add by add_rne. Where a contribution has no element, those of the others stand. -/
def Obligations.ContributionsMergeInIndexOrder : Prop :=
  ∀ (kind : StatKind) (l : List (Nat × List StatRec × List Word)), (l.map (·.1)).Nodup →
    (∀ l', l'.Perm l → mergeContributions kind l' = mergeContributions kind l)
    ∧ ∀ c rest, (c :: rest).Perm l → (c :: rest).Pairwise (fun a b => a.1 < b.1) →
      mergeContributions kind l
        = (rest.foldl (fun acc x => zipLong (statCombine kind) acc x.2.1) c.2.1,
           rest.foldl (fun acc x => zipLong add32 acc x.2.2) c.2.2)

/-! ### Integrity -/

/-- Faults take their levels (R395 to R397). A corrected error is counted and reported and touches nothing else. An
uncorrectable one is entered in the history and Compute is in Squall, or the module in Eclipse; one of the bridge is
Eclipse at once. A fault of the management processor or of a clock loop forces a module reset, warm while a job runs.
A fault of the Media, Tier or Host partition resets that partition alone; where Media resets, only flags of frames change with
it. ECC_CORRECTED, UNCORRECTABLE_ERROR, MP_LOCKSTEP_FAULT, CLOCK_LOCK_LOSS, PARTITION_FAULT and PARTITION_RESET_COMPLETE each
complete with the effect that this states. -/
def Obligations.FaultsTakeTheirLevels : Prop :=
  ∀ (t : Time) (s : State),
    (∀ kind partition, ∃ u, exec (.eccCorrected t kind partition) s = .next u
      ∧ u.newest = some (if kind = .hbm then 0x4204 else 0x4202) ∧ u.integrity.entries = s.integrity.entries
      ∧ u.integrity.counts = s.integrity.counts.set (if kind = .hbm then 2 else 0)
          (s.integrity.counts.getD (if kind = .hbm then 2 else 0) 0 + 1)
      ∧ u.job = s.job ∧ u.compute = s.compute ∧ u.tier = s.tier ∧ u.media = s.media ∧ u.link = s.link)
    ∧ (s.dawn.phase ≠ .eclipse → (s.job.phase = .running ∨ s.job.phase = .draining) → s.job.dusk = none
      → s.inRing = false → ∀ kind unit site, kind ≠ .bridge → ∃ u, exec (.uncorrectableError t kind unit site) s = .next u
        ∧ u.integrity.total = min 4294967295 (s.integrity.total + 1) ∧ u.integrity.lastUnit = (match kind with | .hbm a => pchanUnit a | _ => unit)
        ∧ u.compute.runs = [] ∧ u.sideband.faultN = true
        ∧ (∀ a, kind = .hbm a → a / 32 * 32 ∈ u.integrity.poisoned)
        ∧ (u.dawn.phase ≠ .eclipse → u.job.phase = .squall ∧ u.compute.inReset = true))
    ∧ (s.dawn.phase ≠ .eclipse → ∀ unit site, ∃ u, exec (.uncorrectableError t .bridge unit site) s = .next u
        ∧ u.dawn.phase = .eclipse ∧ u.newest = some 0x4C01)
    ∧ (s.dawn.phase = .passed → ∀ c ∈ Instr.mpLockstepFault t :: (List.range 256).map (Instr.clockLockLoss t),
      ∃ u, exec c s = .next u
        ∧ (u.dawn.phase ≠ .eclipse → u.dawn.due = true
          ∧ ((s.job.phase = .running ∨ s.job.phase = .draining) → s.job.dusk = none
            → u.dawn.phase = .warm ∧ u.job.phase = .squall ∧ u.compute.runs = [] ∧ u.sideband.faultN = true)
          ∧ (s.job.phase = .idle → u.dawn.phase = .cold)))
    ∧ (s.dawn.phase ≠ .eclipse → ∀ p unit site, p ∈ [1, 3, 4] → ∃ u, exec (.partitionFault t p unit site) s = .next u
        ∧ u.integrity.total = min 4294967295 (s.integrity.total + 1)
        ∧ (u.dawn.phase ≠ .eclipse → (p, max s.now t) ∈ u.integrity.resets ∧ u.sideband.faultN = true
            ∧ u.job = { s.job with frames := u.job.frames } ∧ (p ≠ 1 → u.job = s.job)
            ∧ u.tick = s.tick ∧ u.compute = s.compute ∧ (u.media.inReset = true ↔ p = 1 ∨ s.media.inReset = true)
            ∧ (u.tier.inReset = true ↔ p = 3 ∨ s.tier.inReset = true)
            ∧ (u.host.inReset = true ↔ p = 4 ∨ s.host.inReset = true)))
    ∧ (∀ q, s.job.phase = .squall → s.job.squall = some q → s.job.deferred = none → s.compute.inReset = true
      → ∃ u, exec (.partitionResetComplete t 0) s = .next u ∧ u.compute.inReset = false
        ∧ u.job.squall = some { q with resetDone := true } ∧ u.job.phase = .squall)
    ∧ (∀ p since, p ∈ [1, 3, 4] → s.integrity.resets.find? (·.1 == p) = some (p, since)
      → ∃ u, exec (.partitionResetComplete t p) s = .next u ∧ (∀ r ∈ u.integrity.resets, r.1 ≠ p)
        ∧ u.integrity.recoveryUs = toNs (max s.now t - since) / 1000 % 4294967296
        ∧ (p = 1 → u.media.inReset = false) ∧ (p = 3 → u.tier.inReset = false) ∧ (p = 4 → u.host.inReset = false))

/-- When more than one rule of R418 holds at the same evaluation, the lowest-numbered rule that holds is the RULE of the
history page and of the ARG of 0x4C01 (R467). -/
def Obligations.LowestRuleIsRecorded : Prop :=
  ∀ (unit : BitVec 32) (failedTest : Bool) (s : State) (n : Nat), s.dawn.phase ≠ .eclipse →
    let es := s.integrity.entries
    let holds := [ruleOne unit es, ruleTwo unit es, failedTest, unit.toNat / 0x1000000 == 7 && es.any (·.unit == unit)]
    holds[n]? = some true → (∀ m, m < n → holds[m]? = some false) →
    let u := classify unit failedTest s
    u.dawn.phase = .eclipse ∧ u.integrity.permanent = true ∧ u.integrity.permUnit = unit ∧ u.integrity.rule = n + 1
      ∧ (∃ e, u.host.log.head? = some e ∧ e.code = 0x4C01 ∧ e.arg = unit.toNat + (n + 1) * 0x100000000)
      ∧ ∀ seq, byteAt (historyPage u seq) 15 = n + 1

/-- History pages and the watch period (R415, R417, R419): a page that is due stands, valid and under the next sequence,
after the page last written, and no page of another sector changes; one that fails is reported with 0x4401 and the
sequence stays. The watch period ends at 24,000 millihours, in a job at the next boundary. -/
def Obligations.HistoryPagesAndTheWatchPeriod : Prop :=
  ∀ (t : Time) (s : State),
    (historyDue (s.arrive t) = true →
      let n := match s.integrity.lastPage with | some p => (p + 1) % 1024 | none => 0
      (∃ u b, exec (.historyWrite t true) s = .next u ∧ (n, b) ∈ u.flash.pages ∧ pageValid b = true
        ∧ le b 4 4 = ptrAdd s.integrity.pageSeq 1 ∧ u.integrity.lastPage = some n
        ∧ u.integrity.pageSeq = ptrAdd s.integrity.pageSeq 1 ∧ u.integrity.pageDue = none
        ∧ ∀ m x, m / 16 ≠ n / 16 → ((m, x) ∈ u.flash.pages ↔ (m, x) ∈ s.flash.pages))
      ∧ ∃ u, exec (.historyWrite t false) s = .next u ∧ u.newest = some 0x4401
        ∧ u.integrity.pageSeq = s.integrity.pageSeq ∧ u.integrity.lastPage = some n)
    ∧ (historyDue (s.arrive t) = false → exec (.historyWrite t true) s = .next (s.arrive t))
    ∧ (s.integrity.watch = true → s.integrity.watchEnds = false → 24000 ≤ (s.arrive t).millihours
      → ∃ u, exec (.watchPeriodEnd t) s = .next u ∧ u.newest = some 0x4403 ∧ u.integrity.watch = s.hasJob
        ∧ u.integrity.watchEnds = s.hasJob ∧ u.integrity.pageDue ≠ none)

/-! ### Memory tiers and media -/

/-- Fills (R281): the head of the queue takes a frame of the pool, whose entry gives way; without a frame 0x2906 is
reported. A good segment stands decoded in its frame with its entry resident, and no other byte of the HBM changes; a
bad read is tried once more and then fails. -/
def Obligations.FillsBringSegmentsIn : Prop :=
  ∀ (t : Time) (s : State),
    (∀ i f ev d, s.tier.fill = none → s.tier.inReset = false → queueHead s = some i → takeFrame s = some (f, ev)
      → s.dirEntry i.entry = some d
      → ∃ u, exec (.fillStart t) s = .next u ∧ u.tier.fill = some ⟨i.entry, f, 0, max s.now t⟩
        ∧ (∃ d', u.dirEntry i.entry = some d' ∧ d'.status = .filling ∧ d'.frame = f ∧ d'.src = d.src)
        ∧ (∀ e x, ev = some e → e ≠ i.entry → s.dirEntry e = some x
            → u.dirEntry e = some { x with status := .absent })
        ∧ u.mem = s.mem ∧ u.job = s.job)
    ∧ (∀ i, s.tier.fill = none → s.tier.inReset = false → queueHead s = some i → takeFrame s = none
      → s.tier.starved ≠ some s.tick.index
      → ∃ u, exec (.fillStart t) s = .next u ∧ u.newest = some 0x2906 ∧ u.tier.fill = none
        ∧ u.tier.entries = s.tier.entries)
    ∧ (∀ f d, s.tier.fill = some f → s.dirEntry f.entry = some d →
      (∀ b, s.mem.wf = true → d.fromWindow = false
        → decodeSegment f.entry (s.readMem .store (d.src * 4096) (d.segLen * 256)) = .data b
        → ∃ u, exec (.fillComplete t true []) s = .next u ∧ u.tier.fill = none
          ∧ u.dirEntry f.entry = some { d with status := .resident, frame := f.frame, since := max s.now t }
          ∧ (∀ i ∈ u.tier.queue, i.entry ≠ f.entry) ∧ u.tier.filled = s.tier.filled + 1
          ∧ u.readMem .hbm (s.dawn.layout.poolBase + f.frame * 1048576) b.length = b
          ∧ ∀ a, a < s.dawn.layout.poolBase + f.frame * 1048576
              ∨ s.dawn.layout.poolBase + f.frame * 1048576 + b.length ≤ a → u.mem.hbm.read a = s.mem.hbm.read a)
      ∧ (f.tries = 0 → ∃ u, exec (.fillComplete t false []) s = .next u
          ∧ u.tier.fill = some { f with tries := 1, start := max s.now t } ∧ u.tier.entries = s.tier.entries
          ∧ u.mem = s.mem)
      ∧ (f.tries ≠ 0 → ∃ u, exec (.fillComplete t false []) s = .next u ∧ u.tier.fill = none
          ∧ u.dirEntry f.entry = some { d with status := .failed }
          ∧ (d.fromWindow = true → u.newest = some 0x2908)
          ∧ (d.fromWindow = false → u.dawn.phase ≠ .eclipse → u.newest = some 0x2904)))

/-- Media (R297 to R299, R303 to R307): ACCESS_UNIT_STAGED completes with the unit in its frame, the controller brought up to
date, the coded samples and motion field in the stream's buffers, and the next waiting encode under way;
DECODED_PICTURE_STAGED completes with the picture in its pixel set, and a decoder error, a DAMAGED reference, or a reset
that no key frame has ended marks its frame damaged. An event of another frame or tick than the stream's engines work on changes
nothing but module time (log 6). -/
def Obligations.MediaUnitsAndPicturesCommit : Prop :=
  ∀ (t : Time) (s : State) (n number k : Nat), s.shaped → (s.stream n).busy = some (number, k) →
    (∀ enc, isEncoder s n = true → (s.stream n).out = some enc →
      let x := s.stream n
      ∃ u, exec (.accessUnitStaged t n number k) s = .next u
        ∧ (∀ f ∈ s.job.frames, f.number = number → { f with
              units := f.units ++ [⟨n, x.key, enc.capped, enc.unit⟩],
              flags := { f.flags with capped := f.flags.capped || enc.capped } } ∈ u.job.frames)
        ∧ u.media.keyframes = s.media.keyframes + bitOf x.key ∧ u.media.capped = s.media.capped + bitOf enc.capped
        ∧ (enc.capped = true → u.newest = some 0x7904)
        ∧ (∀ sp, sp ≠ .host → u.mem.get sp = (storeFrame (buffersWhere s fun b => b.stream == n && b.current)
            enc.samples enc.motion (s.arrive t)).mem.get sp)
        ∧ (x.queue = [] → (u.stream n).busy = none ∧ (u.stream n).lastBits = 8 * enc.unit.length
          ∧ (u.stream n).fullness
            = max 0 (x.fullness + (8 * enc.unit.length : Nat) - (drainBits (mediaEntry s n) s.tick.tp : Int)))
        ∧ (∀ q rest, x.queue = q :: rest → (u.stream n).busy = some q ∧ (u.stream n).queue = rest)
        ∧ ∀ m, m ≠ n → u.stream m = s.stream m)
    ∧ (n ∈ decodeEntries s →
      let p := decodePicture n number s
      ∃ u, exec (.decodedPictureStaged t n number k (k % 2)) s = .next u
        ∧ (u.stream n).busy = none ∧ (u.stream n).staged = true ∧ (u.stream n).stagedDamaged = p.2.1
        ∧ u.media.damaged = s.media.damaged + bitOf p.2.1
        ∧ (∀ f ∈ s.job.frames, f.number = number → ∃ g ∈ u.job.frames, g.number = number
            ∧ g.flags.damaged = (f.flags.damaged || p.2.1) ∧ g.units = f.units)
        ∧ (∀ sp, sp ≠ .host → u.mem.get sp = (placePicture n k p.1 (s.arrive t)).mem.get sp)
        ∧ (∀ c, p.1.error.code = some c → u.newest = some c) ∧ u.compute = s.compute)
    ∧ ∀ frame tick set, (frame, tick) ≠ (number, k)
      → exec (.accessUnitStaged t n frame tick) s = .next (s.arrive t)
        ∧ exec (.decodedPictureStaged t n frame tick set) s = .next (s.arrive t)

/-! ### The Kenum links -/

/-- A transaction flit (R316, R318 to R320): the next one in order is acknowledged; one for this member acts here and its credit
returns, one for another goes on, and one for every member does both. One with a bad codeword or CRC and one out of
order are answered with NAK and change nothing else. -/
def Obligations.FlitsAreAcceptedInOrder : Prop :=
  ∀ (c : Instr) (a : Arrival) (s : State), arrivalOf c = some a → s.shaped → portUp s a.port = true →
    (s.hears a → flitSeq a.flit = ((s.port a.port).lastSeq + 1) % 4096 → flitNak a.flit = false
      → (∀ r ∈ (s.port a.port).retrans, r < 8)
      → ∃ v, v = { s.arrive c.time with link := { s.link with ports := v.link.ports } }
        ∧ (v.port a.port).lastSeq = flitSeq a.flit ∧
        (let kept := returnCredit a.port (flitControl a.flit) v
        let ack := sendPlain a.port 0 false 0 0 [] v
        (∀ w ∈ [kept, ack], ∃ o, (w.port a.port).out.getLast? = some o ∧ flitAck o = flitSeq a.flit ∧ flitNak o = false)
        ∧ (flitDst a.flit ≠ 0xFF → forMe v a.flit = true → exec c s = .next (a.act kept))
        ∧ (flitDst a.flit ≠ 0xFF → forMe v a.flit = false → exec c s = .next (passOn a.port a.flit ack))
        ∧ (flitDst a.flit = 0xFF → a.fwd v = true → exec c s = .next (a.act (passOn a.port a.flit ack)))
        ∧ (flitDst a.flit = 0xFF → a.fwd v = false → exec c s = .next (a.act kept))))
    ∧ (((hear a.port a.errors a.flit s).1 = false
        ∨ (s.hears a ∧ flitSeq a.flit ≠ ((s.port a.port).lastSeq + 1) % 4096 ∧ flitNak a.flit = false
            ∧ ∀ r ∈ (s.port a.port).retrans, r < 8))
      → ∃ u o, exec c s = .next u ∧ (u.port a.port).out.getLast? = some o ∧ flitNak o = true
        ∧ flitAck o = (s.port a.port).lastSeq % 4096 ∧ (u.port a.port).lastSeq = (s.port a.port).lastSeq
        ∧ u = { s.arrive c.time with link := { s.link with ports := u.link.ports } })

/-- What the flits do at the member they are for (R19, R323, R326, R330, R332, R334, R335, R338): collectives take their
pieces, CLEAR and DONE are held, TICK places its boundary less the delay of its way, READY is held, ABORT begins Squall,
RESUME fixes c and r, and REQUEST applies the request that position 0 forwarded. -/
def Obligations.FlitsActWhereTheyAreMeant : Prop :=
  ∀ (t : Time) (port n : Nat) (f : Bytes) (s : State),
    let b := flitPayload f
    let sender := fun (x : Transfer) => x.source = flitSrc f ∧ x.index = flitIndex f ∧ x.tick = flitTick f
    (∀ a, arrivalOf (.data t port f n) = some a → s.accepts a → (collOfFlit s f).isSome
      → ∃ u, exec (.data t port f n) s = .next u ∧ (u.compute.abandoned = false
        → ∃ x ∈ u.link.transfers, sender x ∧ flitPiece f ∈ x.data))
    ∧ (∀ a, arrivalOf (.part t port f n) = some a → s.accepts a → (collOfFlit s f).isSome
      → ∃ u, exec (.part t port f n) s = .next u ∧ (u.compute.abandoned = false
        → ∃ x ∈ u.link.transfers, sender x ∧ flitPiece f ∈ x.part))
    ∧ (∀ a, arrivalOf (.done t port f n) = some a → s.accepts a → (collOfFlit s f).isSome
      → ∃ u, exec (.done t port f n) s = .next u ∧ (u.compute.abandoned = false
        → ∃ x ∈ u.link.transfers, sender x ∧ x.done = true))
    ∧ (∀ a, arrivalOf (.clear t port f n) = some a → s.accepts a → clearConcerns s f = true
      → ∃ u, exec (.clear t port f n) s = .next u ∧ (u.compute.abandoned = false
        → ∃ x ∈ u.link.transfers, sender x ∧ x.cleared = true))
    ∧ (∀ a, arrivalOf (.tick t port f n) = some a → s.accepts a → s.followsRing = true
      → (s.job.phase = .running ∨ s.job.phase = .draining) → le b 0 8 = s.nextIndex → byteAt b 9 = 0
      → 2 ≤ s.link.ringSize
      → ∃ u, exec (.tick t port f n) s = .next u
        ∧ u.hasBoundary (le b 0 8) (max s.now t - ns (s.port port).delayNs))
    ∧ (∀ a, arrivalOf (.ready t port f n) = some a → s.accepts a → s.inRing = true → s.inJob = true
      → s.tick.index ≤ le b 0 8
      → ∃ u, exec (.ready t port f n) s = .next u ∧ (flitSrc f, le b 0 8) ∈ u.link.ready ∧ u.job = s.job)
    ∧ (∀ a, arrivalOf (.abort t port f n) = some a → s.accepts a → s.inRing = true
      → (s.job.phase = .running ∨ s.job.phase = .draining) → s.aborted = false → s.job.dusk = none
      → le b 0 8 = s.tick.index → le b 8 2 ≠ 0x3A08
      → ∃ u, exec (.abort t port f n) s = .next u ∧ u.job.phase = .squall ∧ u.compute.runs = []
        ∧ u.link.abortTick = some s.tick.index ∧ u.newest = some 0x3A01)
    ∧ (∀ a q, arrivalOf (.resume t port f n) = some a → s.accepts a → s.followsRing = true
      → s.job.phase = .squall → s.job.squall = some q → s.link.resumeAt = none → q.c = tickOfCode (le b 0 8)
      → ∃ u, exec (.resume t port f n) s = .next u ∧ u.link.resumeAt = some (le b 0 8, le b 8 8)
        ∧ u.job = s.job)
    ∧ (∀ a req, arrivalOf (.request t port f n) = some a → s.accepts a → le b 0 2 = 0x0001 → s.link.position ≠ 0
      → s.job.startReq = some req → reqResume req = false →
      (le b 216 8 ≠ noStart → ∃ u, exec (.request t port f n) s = .next u ∧ u.job.phase = .armed
        ∧ u.job.startReq = none ∧ u.tick.start = some (ns (le b 216 8)))
      ∧ (le b 216 8 = noStart → ∃ u, exec (.request t port f n) s = .next u ∧ u.job = { s.job with startReq := none }
        ∧ u.tick = s.tick))
    ∧ (∀ a, arrivalOf (.request t port f n) = some a → s.accepts a → s.followsRing = true
      → ∃ u, exec (.request t port f n) s = .next u
        ∧ (le b 0 2 = 0x0002 → s.job.phase = .running
            → u.job = { s.job with endPending := s.job.endPending.or (some (max s.now t)) })
        ∧ ((le b 0 2 = 0x0003 ∨ le b 0 2 = 0x0004) → (s.job.phase = .running ∨ s.job.phase = .draining)
            → u.stopped ∧ u.compute.runs = [])
        ∧ (le b 0 2 = 0x0005 → u.job = { s.job with keyMask := s.job.keyMask ||| byteAt b 8 % 16 })
        ∧ (le b 0 2 = 0x0006 → u.job = { s.job with splitWanted := byteAt b 8 == 1 }))

/-- Ports (R313, R315, R317 to R319, R322). IDLE_FLIT completes with its credits and acknowledgement taken, NAK with every flit
after ACK sent again in order, REPLAY_STALL_TIMEOUT and FEC_LOCK_LOSS with the port down and retraining (in a ring job with
the common abort), PORT_UP with every credit granted, PORT_TRAINING_TIMEOUT with the port down and 0x3201, and IDENT with the
port identified, or disabled where it is cabled wrongly. -/
def Obligations.PortsCarryTrainAndIdentify : Prop :=
  ∀ (t : Time) (n e : Nat) (f : Bytes) (s : State), s.shaped → n < 4 →
    let p := s.port n
    (p.phase = .up → p.waiting = [] → (∀ r ∈ p.retrans, r < 8) → (hear n e f s).1 = true → flitKind f = 0
      → flitNak f = false
      → ∃ u, exec (.idleFlit t n f e) s = .next u
        ∧ (u.port n).dataCredits = min 224 (p.dataCredits + flitCredD f)
        ∧ (u.port n).ctrlCredits = min 32 (p.ctrlCredits + flitCredC f)
        ∧ (∀ pre x post, p.replay = pre ++ x :: post → flitSeq x = flitAck f → (∀ y ∈ pre, flitSeq y ≠ flitAck f)
            → (u.port n).replay = post ∧ (u.port n).ackAt = some (max s.now t))
        ∧ ∀ m, m ≠ n → u.port m = s.port m)
    ∧ (p.phase = .up → p.waiting = [] → (∀ r ∈ p.retrans, r < 7) → (hear n e f s).1 = true → flitKind f ≠ 1
      → flitNak f = true → (∀ y ∈ p.replay, flitSeq y ≠ flitAck f)
      → ∃ u, exec (.nak t n f e) s = .next u ∧ (u.port n).replay = p.replay
        ∧ (u.port n).out = (p.emit (p.replay.map p.again)).out
        ∧ (u.port n).retrans = p.retrans.map (· + 1) ∧ (u.port n).retried = p.retried + p.replay.length)
    ∧ (s.dawn.phase ≠ .eclipse → p.phase = .up → s.inRing = false → s.job.phase ≠ .running → s.job.phase ≠ .draining →
      (512 ≤ p.replay.length → (∀ a, p.ackAt = some a → a + us 20 ≤ max s.now t)
        → ∃ u, exec (.replayStallTimeout t n) s = .next u ∧ (u.port n).phase = .training ∧ (u.port n).replay = []
          ∧ u.newest = some 0x3A03)
      ∧ ∀ lane, lane < 4 → ∃ u, exec (.fecLockLoss t n lane) s = .next u
          ∧ u.integrity.total = min 4294967295 (s.integrity.total + 1)
          ∧ (u.dawn.phase ≠ .eclipse → (u.port n).phase = .training ∧ u.newest = some 0x3A03))
    ∧ (s.dawn.phase ≠ .eclipse → p.phase = .up → s.inRing = true → (s.job.phase = .running ∨ s.job.phase = .draining)
      → s.job.dusk = none → s.aborted = false → 512 ≤ p.replay.length → (∀ a, p.ackAt = some a → a + us 20 ≤ max s.now t)
      → ∃ u, exec (.replayStallTimeout t n) s = .next u ∧ u.job.phase = .squall ∧ u.compute.runs = []
        ∧ (u.port n).phase = .training ∧ u.link.abortTick = some s.tick.index)
    ∧ (s.dawn.phase = .passed → (p.phase = .training ∨ p.phase = .down)
      → ∃ u o, exec (.portUp t n) s = .next u ∧ (u.port n).phase = .up ∧ (u.port n).dataCredits = 224
        ∧ (u.port n).ctrlCredits = 32 ∧ (u.port n).out.getLast? = some o ∧ flitKind o = 2 ∧ flitOp o = 0x30
        ∧ (forming s = true → u.link.formed = false))
    ∧ (p.phase = .training → ∃ u, exec (.portTrainingTimeout t n) s = .next u ∧ (u.port n).phase = .down
        ∧ (u.port n).lastCode = 0x3201 ∧ (s.link.formBy = none → u.newest = some 0x3201))
    ∧ (∀ delay, p.phase = .up → (hear n e f s).1 = true → flitKind f = 2 → flitOp f = 0x30 →
      (byteAt (flitPayload f) 1 ≠ (n + 2) % 4 → ∃ u, exec (.ident t n f e delay) s = .next u
          ∧ (u.port n).phase = .disabled ∧ u.newest = some 0x3202)
      ∧ (byteAt (flitPayload f) 1 = (n + 2) % 4 → ∃ u, exec (.ident t n f e delay) s = .next u
          ∧ (u.port n).identified = true ∧ (u.port n).peerGa = byteAt (flitPayload f) 0 % 16
          ∧ (u.port n).delayNs = delay % 65536))

/-- The ring (R322, R332, R333, R335, R336). A member's own PROBE closes the ring, once those of all other members are here and
agree with it, with the lowest GA at position 0; another's is kept. READY_TIMEOUT completes with the common abort of the
tick at T(k) + 0.95 Tp; position 0 gathers the reports and Dusk causes of the members and resumes a restored ring at a common
tick; RING_RECOVERY_TIMEOUT completes with the stop of the job 3 s after detection without RESUME. -/
def Obligations.RingsFormAndRecoverTogether : Prop :=
  ∀ (t : Time) (s : State),
    (∀ (n e : Nat) (f : Bytes), portUp s n = true → (hear n e f s).1 = true → flitKind f = 2 → flitOp f = 0x31 → 2 ≤ n
      → forming s = true → s.link.formed = false →
      let b := flitPayload f
      let l := (List.range (byteAt b 16)).map fun i => byteAt b i % 16
      let ga := s.dawn.ga.toNat
      (∀ m ∈ s.link.probes, m.head? ≠ some ga) →
      (l.head? = some ga → passesNeighbours l s = true → l.Nodup → 2 ≤ l.length → l.length ≤ 16
        → l.length ≤ s.link.probes.length + 1 → (∀ m ∈ s.link.probes, m = l.drop (l.length - m.length))
        → ∃ u, exec (.probe t n f e) s = .next u ∧ u.link.formed = true ∧ u.link.ringSize = l.length
          ∧ u.link.members.Perm l ∧ u.link.members[u.link.position]? = some ga
          ∧ ∀ g ∈ l, ∀ h, u.link.members.head? = some h → h ≤ g)
      ∧ (ga ∉ l → l.length < 16
        → ∃ u, exec (.probe t n f e) s = .next u ∧ u.link.probes = s.link.probes ++ [l] ∧ u.link.formed = false))
    ∧ (s.inRing = true → (s.job.phase = .running ∨ s.job.phase = .draining) → s.job.dusk = none
      → s.tick.boundary + s.tick.tp * 95 / 100 ≤ max s.now t → readyHeld s = false → s.tickCommitted = false
      → s.aborted = false
      → ∃ u, exec (.readyTimeout t) s = .next u ∧ u.job.phase = .squall ∧ u.compute.runs = []
        ∧ u.link.abortTick = some s.tick.index ∧ u.newest = some 0x3A01)
    ∧ (∀ position, s.inRing = true → s.job.position = 0 → 0 < position → position < s.job.variant →
      (∀ tick restored, s.job.phase = .squall
        → ∃ u, exec (.newestCommittedTickReport t position tick restored) s = .next u
          ∧ ⟨position, tick, restored⟩ ∈ u.link.reports ∧ u.job = s.job
          ∧ ∀ r ∈ u.link.reports, r.position = position → r = ⟨position, tick, restored⟩)
      ∧ (∀ code, s.inJob = true → s.link.memberDusk = none
        → ∃ u, exec (.memberDuskCause t position code) s = .next u
          ∧ u.link.memberDusk = some (code % 65536, max s.now t + us 100, s.tick.index) ∧ u.job = s.job))
    ∧ (∀ q, s.job.phase = .squall → s.job.squall = some q → q.ring = true → s.link.resumeAt = none →
      (q.complete.isSome → s.job.position = 0 → s.link.position = 0 → s.ringUp = true
        → s.link.ringSize = s.job.variant → othersRestored s = true
        → (∀ r ∈ s.link.reports, tickOfCode r.tick = q.c)
        → ∃ u r, exec (.ringRestored t) s = .next u ∧ u.link.resumeAt = some (tickCode q.c, r)
          ∧ (0 < s.tick.tp → s.tick.boundary ≤ max s.now t
              → max s.now t + ms 1 ≤ s.tick.boundary + (r - s.tick.index) * s.tick.tp) ∧ s.tick.index < r
          ∧ u.job = s.job)
      ∧ (q.detected + sec 3 ≤ max s.now t
        → ∃ u, exec (.ringRecoveryTimeout t) s = .next u ∧ u.stopped ∧ u.job.squall = none ∧ u.compute.runs = []))

/-! ### Power, cooling and safety -/

/-- Power (R370, R436, R440, R443, R459): PWR_EN and SENSE_N together, with the input voltage in its range, begin a cold
Dawn at standby, and are held with 0x5D01 in the safe state. PWR_EN_DEASSERT and SENSE_N_OPEN complete with power removed
without a trip; STRATUS_SUPPLY_LOSS completes with everything lost but the flash, the weight store and the trip memory,
and Stratus comes back at standby. Trips (R437, R438, R440, R441): STRATUS_TRIP with a condition of Table 16.6 on the
readings, HW_OVERCURRENT_TRIP and POWER_STAGE_CONDUCTING complete by removing power along their paths and latching the
safe state, the newest of 16 entries in the trip memory; the safe state is left only 60 s after the trip with PWR_EN
cycled and no condition on the readings. -/
def Obligations.PowerAndTrips : Prop :=
  (∀ (t : Time) (s : State), let now := max s.now t
    (∀ low c, s.stratus.pwrLow = some low → s.stratus.supply = true → s.dawn.phase = .unpowered
      → s.stratus.senseClosed = some c → c + ms 100 ≤ now →
      (s.stratus.phase = .standby → ∃ u, exec (.pwrEnAssert ⟨t, true⟩) s = .next u ∧ u.dawn.phase = .cold ∧ u.dawn.due = true
        ∧ u.stratus.pwrEn = true ∧ u.nimbus.valveLatch = false ∧ u.nimbus.plausLatch = false ∧ u.flash = s.flash
        ∧ u.mem.store = s.mem.store)
      ∧ (s.stratus.phase = .safe → ∃ u, exec (.pwrEnAssert ⟨t, true⟩) s = .next u ∧ u.stratus.holdCode = 0x5D01
        ∧ u.dawn.phase = .unpowered ∧ u.stratus.phase = .safe
        ∧ (u.stratus.cycled = true ↔ s.stratus.cycled = true ∨ low + sec 1 ≤ now)))
    ∧ (∀ low, s.stratus.pwrLow = some low → ∃ u, exec (.pwrEnAssert ⟨t, false⟩) s = .next u ∧ u.stratus.pwrEn = true
      ∧ u.dawn = s.dawn ∧ u.job = s.job)
    ∧ (s.dawn.phase ≠ .unpowered →
      (s.stratus.supply = true → s.stratus.pwrEn = true
        → ∃ u, exec (.pwrEnDeassert t) s = .next u ∧ u.offAt now ∧ u.stratus.pwrEn = false
          ∧ u.stratus.pwrLow = some now ∧ u.stratus.trips = s.stratus.trips ∧ u.flash = s.flash
          ∧ u.mem.store = s.mem.store)
      ∧ ∃ u, exec (.senseNOpen t) s = .next u ∧ u.offAt now ∧ u.stratus.senseClosed = none
          ∧ u.stratus.trips = s.stratus.trips ∧ u.flash = s.flash ∧ u.mem.store = s.mem.store)
    ∧ (s.stratus.supply = true → s.stratus.pwrEn = true → s.stratus.phase = .standby → s.dawn.phase = .unpowered
      → s.stratus.senseClosed = none → ms 100 ≤ now → s.stratus.vinOk = true
      → ∃ u, exec (.senseNClosed t) s = .next u ∧ u.dawn.phase = .cold ∧ u.dawn.due = true ∧ u.flash = s.flash)
    ∧ (∃ u, exec (.stratusSupplyLoss t) s = .next u ∧ u.stratus.supply = false ∧ u.dawn.phase = .unpowered
      ∧ u.sideband = {} ∧ u.stratus.trips = s.stratus.trips ∧ u.flash = s.flash ∧ u.mem.store = s.mem.store)
    ∧ (∀ pwrEn sense vinOk, s.stratus.supply = false
      → ∃ u, exec (.stratusSupplyReturn t ⟨pwrEn, sense⟩ vinOk) s = .next u ∧ u.stratus.supply = true
        ∧ u.stratus.phase = .standby ∧ u.stratus.pwrEn = pwrEn ∧ u.stratus.trips = s.stratus.trips
        ∧ u.dawn = s.dawn ∧ u.flash = s.flash))
  ∧ (∀ (t : Time) (s : State), let now := max s.now t
    (s.stratus.supply = true →
      (∀ code opens r, tripPaths code = some opens → code ≠ 0x5A01 → (code = 0x5A0B ∨ tripHolds r code = true)
        → ∃ u, exec (.stratusTrip t ⟨code, r⟩) s = .next u ∧ u.tripped code now ∧ u.flash = s.flash
          ∧ u.mem.store = s.mem.store ∧ u.stratus.switch = (s.stratus.switch && !opens))
      ∧ (∀ code r, code ≠ 0x5A0B → tripHolds r code = false → exec (.stratusTrip t ⟨code, r⟩) s = .next (s.arrive t))
      ∧ (∃ u, exec (.hwOvercurrentTrip t) s = .next u ∧ u.tripped 0x5A01 now ∧ u.flash = s.flash
          ∧ u.mem.store = s.mem.store ∧ u.stratus.switch = false)
      ∧ (s.stratus.stage = false → s.stratus.switch = true
        → ∃ u, exec (.powerStageConducting t) s = .next u ∧ u.tripped 0x5A0C now ∧ u.stratus.switch = false))
    ∧ (∀ a r, s.stratus.phase = .safe → s.stratus.tripAt = some a →
      (s.stratus.cycled = true → s.stratus.pwrEn = true → a + sec 60 ≤ now → noTripHolds r = true
        → ∃ u, exec (.safeStateExit ⟨t, r⟩) s = .next u ∧ u.stratus.phase = .standby ∧ u.stratus.holdCode = 0
          ∧ u.stratus.trips = s.stratus.trips
          ∧ (∀ c, s.stratus.supply = true → s.stratus.senseClosed = some c → c + ms 100 ≤ now
              → s.stratus.vinOk = true → s.dawn.phase = .unpowered → u.dawn.phase = .cold))
      ∧ ((s.stratus.cycled = false ∨ now < a + sec 60 ∨ noTripHolds r = false) → exec (.safeStateExit ⟨t, r⟩) s = .next (s.arrive t))))

/-- The window watchdog (R439, R444): a service within 5 ms to 15 ms, in order and with its CRC, clears the misses, any other
counts one, and the SAF_ registers mirror Stratus. WATCHDOG_MISS completes at two misses with a module reset and valve drive
cut; STRATUS_ANSWER_MISSING completes by killing every command, disabling the power stage and asserting FAULT_N. -/
def Obligations.WatchdogGuardsBothSides : Prop :=
  ∀ (t : Time) (s : State), let now := max s.now t
    (∀ a q seq crcOk, s.stratus.supply = true → s.stratus.phase = .on → s.stratus.wdogAt = some a
      → s.stratus.wdogSeq = some q
      → ∃ u, exec (.watchdogService t seq crcOk) s = .next u ∧ u.stratus.wdogAt = some now
        ∧ u.stratus.wdogSeq = some seq ∧ u.host.saf = safMirror u ∧ u.job = s.job
        ∧ ((a + ms 5 ≤ now ∧ now ≤ a + ms 15 ∧ seq = q + 1 ∧ crcOk = true) → u.stratus.wdogMisses = 0)
        ∧ (¬ (a + ms 5 ≤ now ∧ now ≤ a + ms 15 ∧ seq = q + 1 ∧ crcOk = true)
            → u.stratus.wdogMisses = s.stratus.wdogMisses + 1))
    ∧ (s.stratus.supply = true → s.stratus.phase = .on → 2 ≤ missesNow (s.arrive t) → s.dawn.phase = .passed →
      ∃ u, exec (.watchdogMiss t) s = .next u ∧ u.stratus.driveCut = true ∧ u.dawn.due = true
        ∧ (s.job.phase = .idle → u.dawn.phase = .cold)
        ∧ ((s.job.phase = .running ∨ s.job.phase = .draining) → s.job.dusk = none
          → u.dawn.phase = .warm ∧ u.job.phase = .squall ∧ u.compute.runs = [] ∧ u.newest = some 0x5C01))
    ∧ (s.stratus.wdogAt = none → s.stratus.wdogMisses < 2 → exec (.watchdogMiss t) s = .next (s.arrive t))
    ∧ (s.dawn.phase = .passed → s.stratus.healthy = true
      → ∃ u, exec (.stratusAnswerMissing t) s = .next u ∧ u.stratus.healthy = false ∧ u.stratus.mpEnable = false
        ∧ u.stratus.stage = false ∧ u.sideband.faultN = true ∧ u.dawn.phase = .unpowered ∧ u.compute.runs = [])

/-- Nimbus (R426, R431, R433, R436): a sample brings the readings, the input power and the store up to date and changes no job;
the valve command stays within 30 % and 100 %. NIMBUS_DUSK_REQUEST, for a Table 16.3 condition that has held for its
confirm time, and SENSOR_IMPLAUSIBLE, for a pair that disagrees, complete as Dusk causes of the running job. -/
def Obligations.NimbusMeasuresAndWarns : Prop :=
  ∀ (t : Time) (s : State),
    (∀ r a, s.dawn.phase ≠ .unpowered → s.nimbus.sampled = some a →
      ∃ u, exec (.nimbusSample t r) s = .next u ∧ u.nimbus.readings = r ∧ u.nimbus.inputW = wattsOf r
        ∧ u.nimbus.store = min 10000
            (s.nimbus.store + ((wattsOf r : Int) - r.loadW) * ((max s.now t - a) / us 1 : Nat) / 1000)
        ∧ u.nimbus.sampled = some (max s.now t)
        ∧ (∀ c ∈ u.nimbus.holding, c.1 ∈ conditionsNow u) ∧ (∀ c ∈ conditionsNow u, ∃ h ∈ u.nimbus.holding, h.1 = c)
        ∧ u.job = s.job ∧ u.tick = s.tick ∧ u.mem = s.mem)
    ∧ (s.dawn.phase ≠ .unpowered → ∃ u, exec (.valveCommandUpdate t) s = .next u ∧ 30 ≤ u.nimbus.command
        ∧ u.nimbus.command ≤ 100 ∧ u.nimbus = { s.nimbus with command := u.nimbus.command } ∧ u.job = s.job)
    ∧ (∀ code since, s.nimbus.holding.find? (·.1 == code) = some (code, since)
      → since + confirmTime code ≤ max s.now t → s.nimbus.inForce.contains code = false → s.dawn.phase = .passed
      → ∃ u, exec (.nimbusDuskRequest t code) s = .next u ∧ u.nimbus.duskCode = code ∧ code ∈ u.nimbus.inForce
        ∧ u.newest = some code
        ∧ ((s.job.phase = .running ∨ s.job.phase = .draining ∨ s.job.phase = .squall)
            → u.job.dusk = s.job.dusk.or (some ⟨.dusk, code, s.tick.index⟩) ∧ u.job.phase = s.job.phase))
    ∧ (∀ pair, s.stratus.phase = .on → s.nimbus.inForce.contains 0x5909 = false
      → (pairDiff s.nimbus.readings pair).2 < (pairDiff s.nimbus.readings pair).1
      → ∃ u, exec (.sensorImplausible t pair) s = .next u ∧ u.nimbus.plausLatch = true ∧ u.newest = some 0x5909
        ∧ ((s.job.phase = .running ∨ s.job.phase = .draining ∨ s.job.phase = .squall)
            → u.job.dusk = s.job.dusk.or (some ⟨.dusk, 0x5909, s.tick.index⟩)))

/-! ### Dawn and the sideband -/

/-- Dawn (R370 to R376, R438): a cold Dawn ends in service, in recovery boot or in Eclipse, and READY is asserted only in
service; a removal path that fails its test is the trip 0x5A0C. DAWN_STEP_OVERRUN completes with the Dawn run once more, and a
second time in Eclipse with 0x8405; a warm Dawn whose checks fail becomes cold. What the signatures verify and the digests are is a
matter of Config, so the statement speaks of every end. -/
def Obligations.DawnsEnd : Prop :=
  ∀ (t : Time) (s : State),
    (∀ i, s.dawn.phase = .cold → s.stratus.mpEnable = true →
      (i.pathsOk = false → ∃ u, exec (.coldDawn t i) s = .next u ∧ u.tripped 0x5A0C (max s.now t))
      ∧ (i.pathsOk = true → ∃ u, exec (.coldDawn t i) s = .next u ∧ u.dawn.phase ≠ .cold
        ∧ (u.dawn.phase = .passed → u.sideband.ready = true ∧ u.sideband.faultN = false ∧ u.host.enumOpen = true
            ∧ u.integrity.since = some (max s.now t) ∧ u.dawn.due = false)
        ∧ (u.dawn.phase ≠ .passed → u.sideband.ready = false ∧ u.sideband.faultN = true)))
    ∧ (∀ step, s.dawn.phase = .cold →
      (s.dawn.overruns = 0 → ∃ u, exec (.dawnStepOverrun t step) s = .next u ∧ u.dawn.phase = .cold
        ∧ u.dawn.overruns = 1 ∧ u.dawn.due = true ∧ u.sideband.faultN = true)
      ∧ (s.dawn.overruns ≠ 0 → ∃ u, exec (.dawnStepOverrun t step) s = .next u ∧ u.dawn.phase = .eclipse
        ∧ (s.dawn.code = 0 → u.dawn.code = 0x8405)))
    ∧ (∀ step, s.dawn.phase = .warm → ∃ u, exec (.dawnStepOverrun t step) s = .next u ∧ u.dawn.phase = .cold
        ∧ u.job = {})
    ∧ (∀ selfTestOk tablesOk, s.dawn.phase = .warm →
      (warmChecks selfTestOk tablesOk s = true → ∃ u, exec (.warmDawn t selfTestOk tablesOk) s = .next u
        ∧ u.dawn.phase = .passed ∧ u.dawn.warmSince = true ∧ u.stratus.driveCut = s.nimbus.valveLatch ∧ u.compute.inReset = false)
      ∧ (warmChecks selfTestOk tablesOk s = false → ∃ u, exec (.warmDawn t selfTestOk tablesOk) s = .next u
        ∧ u.dawn.phase = .cold ∧ u.dawn.due = true ∧ u.job = {} ∧ u.flash = s.flash))

/-- The sideband (R454 to R456): a target that answers takes its dynamic address and returns the response of Table 17.6,
I3C_UNKNOWN_COMMAND completes with 0xFF bytes, and with nothing where the target does not answer. An event record is read once, and an in-band
interrupt that the controller refuses is raised again 10 ms later. -/
def Obligations.SidebandTargetsAnswer : Prop :=
  ∀ (t : Time) (s : State),
    (∀ target address, targetAnswers s target = true →
      ∀ c ∈ [Instr.i3cSetdasa t target address, .i3cEntdaa t target address], ∃ u, exec c s = .next u
        ∧ (target = .management → u.sideband = { s.sideband with dynManagement := some address })
        ∧ (target = .stratus → u.sideband = { s.sideband with dynStratus := some address }))
    ∧ (targetAnswers s .management = true →
      (∃ u, exec (.i3cStatus t) s = .next u
        ∧ u.host.readData = toLe 4 (regIdStatus (s.arrive t)) ++ toLe 4 (regJobState (s.arrive t))
        ∧ u.sideband = s.sideband)
      ∧ (∃ u, exec (.i3cTelemetry t) s = .next u ∧ u.host.readData = toLe 4 (regPwrInput (s.arrive t))
        ++ toLe 4 (regPwrPower (s.arrive t)) ++ toLe 4 (regThmCoolant (s.arrive t)) ++ toLe 4 (regThmJunction (s.arrive t)))
      ∧ (s.sideband.queue = [] → ∃ u, exec (.i3cEvent t) s = .next u ∧ u.host.readData = zeros 32
        ∧ u.sideband = s.sideband)
      ∧ (∀ e rest, s.sideband.queue = e :: rest → ∃ u, exec (.i3cEvent t) s = .next u ∧ u.host.readData = e.bytes
        ∧ u.sideband.queue = rest)
      ∧ (∀ v, ∃ u, exec (.i3cSetmrl t v) s = .next u ∧ u.sideband.maxRead = v.toNat
        ∧ u.sideband.queue = s.sideband.queue)
      ∧ (∀ e rest, s.sideband.queue = e :: rest → (∀ a, s.sideband.refusedAt = some a → a + ms 10 ≤ max s.now t)
        → (∃ u, exec (.inBandInterruptRetry t true) s = .next u ∧ u.sideband.queue = rest
            ∧ (s.sideband.maxRead = 0 ∨ 33 ≤ s.sideband.maxRead → u.host.readData = 0xA7 :: e.bytes))
          ∧ ∃ u, exec (.inBandInterruptRetry t false) s = .next u ∧ u.sideband.queue = s.sideband.queue
            ∧ u.sideband.refusedAt = some (max s.now t)))
    ∧ (targetAnswers s .stratus = true →
      (∃ u, exec (.i3cSafety t) s = .next u ∧ u.host.readData = toLe 4 (safStatus (s.arrive t))
        ++ toLe 2 (safetyCode s) ++ toLe 1 s.stratus.phase.code ++ zeros 1)
      ∧ (∀ n e, n < 16 → s.stratus.trips[n]? = some e → ∃ u, exec (.i3cTrip t n) s = .next u
        ∧ u.host.readData = tripBytes (s.arrive t) e)
      ∧ (∀ n, n < 16 → s.stratus.trips[n]? = none → ∃ u, exec (.i3cTrip t n) s = .next u
        ∧ u.host.readData = zeros 28 ++ toLe 4 (crc32c (zeros 28))))
    ∧ (∀ target, ∃ u, exec (.i3cUnknownCommand t target) s = .next u
      ∧ (targetAnswers s target = true → u.host.readData = List.replicate 32 0xFF)
      ∧ (targetAnswers s target = false → u.host.readData = []) ∧ u.sideband = s.sideband)

/-! ### What commands leave unchanged -/

/-- Every command keeps what it does not concern. Only a restart of the module changes the plans and the firmware in use,
and, with TABLE_LOAD, JOB_START, SELFTEST and RECOVERY_COMPLETE, the tables. Stratus, Nimbus and the classified faults change at the commands named;
and what runs, the memories of the module, the tick, the links and the media streams change only where a boundary, an
engine, a link or the end of a job is concerned, at a restart, and at the further commands named. -/
def Obligations.CommandsKeepWhatTheyDoNotConcern : Prop :=
  ∀ (c : Instr) (s u : State), exec c s = .next u → c.restarts = false →
    (u.dawn.plans = s.dawn.plans ∧ u.dawn.planImage = s.dawn.planImage ∧ u.dawn.firmware = s.dawn.firmware
      ∧ u.dawn.layout = s.dawn.layout)
    ∧ (match c with
      | .jobStart .. | .tableLoad .. | .selftest .. | .recoveryComplete .. => True
      | _ => u.compute.bank = s.compute.bank ∧ u.compute.bank0 = s.compute.bank0 ∧ u.compute.bank1 = s.compute.bank1)
    ∧ (match c with
      | .sensorImplausible .. | .nimbusDuskRequest .. | .watchdogService .. => True
      | _ => u.stratus = s.stratus)
    ∧ (match c with
      | .framePulseEdge .. | .wordClockEdge .. | .internalBoundary .. | .flywheelBoundary .. | .boundaryForwardTimeout ..
      | .tick .. | .sensorImplausible .. | .nimbusSample .. | .valveCommandUpdate .. | .nimbusDuskRequest .. => True
      | _ => u.nimbus = s.nimbus)
    ∧ (match c with
      | .recoveryComplete .. | .wait .. | .signal .. | .commit .. | .commandFinish .. | .cirrusArbitration ..
      | .parityFault .. | .uncorrectableError .. | .partitionFault .. | .fillComplete .. | .data .. | .part ..
      | .clear .. | .done .. | .tick .. | .ready .. | .abort .. | .resume .. | .request .. | .idleFlit .. | .nak ..
      | .replayStallTimeout .. | .fecLockLoss .. | .selftest .. | .jobStart .. | .tableLoad .. => True
      | _ => u.integrity.entries = s.integrity.entries ∧ u.integrity.permanent = s.integrity.permanent
          ∧ u.integrity.permUnit = s.integrity.permUnit ∧ u.integrity.rule = s.integrity.rule)
    ∧ (c.drives = false →
      (match c with
        | .tickCommit .. | .decodedPictureStaged .. | .storeWrite .. | .attest .. | .telemetry .. | .historyRead ..
        | .accessUnitStaged .. | .registerWrite .. | .jobStart .. | .ringT0Decision .. | .partitionFault .. => True
        | _ => ∀ sp, sp ≠ .host → u.mem.get sp = s.mem.get sp)
      ∧ (match c with
        | .tickCommit .. | .drainEnd .. | .partitionFault .. | .accessUnitStaged .. | .decodedPictureStaged ..
        | .jobStart .. | .selftest .. | .stageImage .. | .ringT0Decision .. | .tableLoad .. => True
        | _ => u.media = s.media)
      ∧ (match c with
        | .lockLossTimeout .. | .wordClockLock .. | .wordClockUnlock .. | .deliverySlot .. | .drainEnd ..
        | .partitionFault .. | .ringT0Decision .. | .jobStart .. | .selftest .. | .stageImage .. | .sensorImplausible ..
        | .nimbusDuskRequest .. | .tableLoad .. => True
        | _ => u.tick = s.tick)
      ∧ (match c with
        | .drainEnd .. | .partitionFault .. | .jobStart .. | .selftest .. | .stageImage .. | .ringT0Decision ..
        | .tableLoad .. => True
        | _ => u.compute.done = s.compute.done ∧ u.compute.counts = s.compute.counts
            ∧ u.compute.ordered = s.compute.ordered)
      ∧ (match c with
        | .tickCommit .. | .drainEnd .. | .partitionFault .. | .ident .. | .probe .. | .portUp ..
        | .portTrainingTimeout .. | .ringT0Decision .. | .jobStart .. | .jobEnd .. | .keyframe .. | .splitExact ..
        | .selftest .. | .stageImage .. | .memberDuskCause .. | .newestCommittedTickReport .. | .tableLoad ..
        | .deliverySlot .. | .sensorImplausible .. | .nimbusDuskRequest .. => True
        | _ => u.link = s.link))
end

