-- ==== Sys2Proof/Laws/State.lean ====
section
/-! SUPPORT. One lemma per field for each named update of the state, so that no proof unfolds a record update. -/

namespace Sys2Proof.Machine

/-! ### State.arrive -/

@[simp] theorem State.arrive_pending (s : State) (t : Time) : (s.arrive t).pending = s.pending := rfl
@[simp] theorem State.arrive_now (s : State) (t : Time) : (s.arrive t).now = max s.now t := rfl
@[simp] theorem State.arrive_freeCtr (s : State) (t : Time) : (s.arrive t).freeCtr = s.freeCtr := rfl
@[simp] theorem State.arrive_tick (s : State) (t : Time) : (s.arrive t).tick = s.tick := rfl
@[simp] theorem State.arrive_job (s : State) (t : Time) : (s.arrive t).job = s.job := rfl
@[simp] theorem State.arrive_compute (s : State) (t : Time) : (s.arrive t).compute = s.compute := rfl
@[simp] theorem State.arrive_mem (s : State) (t : Time) : (s.arrive t).mem = s.mem := rfl
@[simp] theorem State.arrive_tier (s : State) (t : Time) : (s.arrive t).tier = s.tier := rfl
@[simp] theorem State.arrive_media (s : State) (t : Time) : (s.arrive t).media = s.media := rfl
@[simp] theorem State.arrive_link (s : State) (t : Time) : (s.arrive t).link = s.link := rfl
@[simp] theorem State.arrive_host (s : State) (t : Time) : (s.arrive t).host = s.host := rfl
@[simp] theorem State.arrive_flash (s : State) (t : Time) : (s.arrive t).flash = s.flash := rfl
@[simp] theorem State.arrive_dawn (s : State) (t : Time) : (s.arrive t).dawn = s.dawn := rfl
@[simp] theorem State.arrive_integrity (s : State) (t : Time) : (s.arrive t).integrity = s.integrity := rfl
@[simp] theorem State.arrive_nimbus (s : State) (t : Time) : (s.arrive t).nimbus = s.nimbus := rfl
@[simp] theorem State.arrive_stratus (s : State) (t : Time) : (s.arrive t).stratus = s.stratus := rfl
@[simp] theorem State.arrive_sideband (s : State) (t : Time) : (s.arrive t).sideband = s.sideband := rfl

/-! ### State.push -/

@[simp] theorem State.push_pending (s : State) (c : Instr) : (s.push c).pending = c :: s.pending := rfl
@[simp] theorem State.push_now (s : State) (c : Instr) : (s.push c).now = s.now := rfl
@[simp] theorem State.push_freeCtr (s : State) (c : Instr) : (s.push c).freeCtr = s.freeCtr := rfl
@[simp] theorem State.push_tick (s : State) (c : Instr) : (s.push c).tick = s.tick := rfl
@[simp] theorem State.push_job (s : State) (c : Instr) : (s.push c).job = s.job := rfl
@[simp] theorem State.push_compute (s : State) (c : Instr) : (s.push c).compute = s.compute := rfl
@[simp] theorem State.push_mem (s : State) (c : Instr) : (s.push c).mem = s.mem := rfl
@[simp] theorem State.push_tier (s : State) (c : Instr) : (s.push c).tier = s.tier := rfl
@[simp] theorem State.push_media (s : State) (c : Instr) : (s.push c).media = s.media := rfl
@[simp] theorem State.push_link (s : State) (c : Instr) : (s.push c).link = s.link := rfl
@[simp] theorem State.push_host (s : State) (c : Instr) : (s.push c).host = s.host := rfl
@[simp] theorem State.push_flash (s : State) (c : Instr) : (s.push c).flash = s.flash := rfl
@[simp] theorem State.push_dawn (s : State) (c : Instr) : (s.push c).dawn = s.dawn := rfl
@[simp] theorem State.push_integrity (s : State) (c : Instr) : (s.push c).integrity = s.integrity := rfl
@[simp] theorem State.push_nimbus (s : State) (c : Instr) : (s.push c).nimbus = s.nimbus := rfl
@[simp] theorem State.push_stratus (s : State) (c : Instr) : (s.push c).stratus = s.stratus := rfl
@[simp] theorem State.push_sideband (s : State) (c : Instr) : (s.push c).sideband = s.sideband := rfl

/-! ### State.withQueue -/

@[simp] theorem State.withQueue_pending (s : State) (q : List Instr) : (s.withQueue q).pending = q := rfl
@[simp] theorem State.withQueue_now (s : State) (q : List Instr) : (s.withQueue q).now = s.now := rfl
@[simp] theorem State.withQueue_freeCtr (s : State) (q : List Instr) : (s.withQueue q).freeCtr = s.freeCtr := rfl
@[simp] theorem State.withQueue_tick (s : State) (q : List Instr) : (s.withQueue q).tick = s.tick := rfl
@[simp] theorem State.withQueue_job (s : State) (q : List Instr) : (s.withQueue q).job = s.job := rfl
@[simp] theorem State.withQueue_compute (s : State) (q : List Instr) : (s.withQueue q).compute = s.compute := rfl
@[simp] theorem State.withQueue_mem (s : State) (q : List Instr) : (s.withQueue q).mem = s.mem := rfl
@[simp] theorem State.withQueue_tier (s : State) (q : List Instr) : (s.withQueue q).tier = s.tier := rfl
@[simp] theorem State.withQueue_media (s : State) (q : List Instr) : (s.withQueue q).media = s.media := rfl
@[simp] theorem State.withQueue_link (s : State) (q : List Instr) : (s.withQueue q).link = s.link := rfl
@[simp] theorem State.withQueue_host (s : State) (q : List Instr) : (s.withQueue q).host = s.host := rfl
@[simp] theorem State.withQueue_flash (s : State) (q : List Instr) : (s.withQueue q).flash = s.flash := rfl
@[simp] theorem State.withQueue_dawn (s : State) (q : List Instr) : (s.withQueue q).dawn = s.dawn := rfl
@[simp] theorem State.withQueue_integrity (s : State) (q : List Instr) :
    (s.withQueue q).integrity = s.integrity := rfl
@[simp] theorem State.withQueue_nimbus (s : State) (q : List Instr) : (s.withQueue q).nimbus = s.nimbus := rfl
@[simp] theorem State.withQueue_stratus (s : State) (q : List Instr) : (s.withQueue q).stratus = s.stratus := rfl
@[simp] theorem State.withQueue_sideband (s : State) (q : List Instr) : (s.withQueue q).sideband = s.sideband := rfl

/-! ### State.writeMem -/

@[simp] theorem State.writeMem_pending (s : State) (sp : Space) (a : Nat) (b : Bytes) :
    (s.writeMem sp a b).pending = s.pending := rfl
@[simp] theorem State.writeMem_now (s : State) (sp : Space) (a : Nat) (b : Bytes) :
    (s.writeMem sp a b).now = s.now := rfl
@[simp] theorem State.writeMem_freeCtr (s : State) (sp : Space) (a : Nat) (b : Bytes) :
    (s.writeMem sp a b).freeCtr = s.freeCtr := rfl
@[simp] theorem State.writeMem_tick (s : State) (sp : Space) (a : Nat) (b : Bytes) :
    (s.writeMem sp a b).tick = s.tick := rfl
@[simp] theorem State.writeMem_job (s : State) (sp : Space) (a : Nat) (b : Bytes) :
    (s.writeMem sp a b).job = s.job := rfl
@[simp] theorem State.writeMem_compute (s : State) (sp : Space) (a : Nat) (b : Bytes) :
    (s.writeMem sp a b).compute = s.compute := rfl
@[simp] theorem State.writeMem_mem (s : State) (sp : Space) (a : Nat) (b : Bytes) :
    (s.writeMem sp a b).mem = s.mem.put sp ((s.mem.get sp).writeBytes a b) := rfl
@[simp] theorem State.writeMem_tier (s : State) (sp : Space) (a : Nat) (b : Bytes) :
    (s.writeMem sp a b).tier = s.tier := rfl
@[simp] theorem State.writeMem_media (s : State) (sp : Space) (a : Nat) (b : Bytes) :
    (s.writeMem sp a b).media = s.media := rfl
@[simp] theorem State.writeMem_link (s : State) (sp : Space) (a : Nat) (b : Bytes) :
    (s.writeMem sp a b).link = s.link := rfl
@[simp] theorem State.writeMem_host (s : State) (sp : Space) (a : Nat) (b : Bytes) :
    (s.writeMem sp a b).host = s.host := rfl
@[simp] theorem State.writeMem_flash (s : State) (sp : Space) (a : Nat) (b : Bytes) :
    (s.writeMem sp a b).flash = s.flash := rfl
@[simp] theorem State.writeMem_dawn (s : State) (sp : Space) (a : Nat) (b : Bytes) :
    (s.writeMem sp a b).dawn = s.dawn := rfl
@[simp] theorem State.writeMem_integrity (s : State) (sp : Space) (a : Nat) (b : Bytes) :
    (s.writeMem sp a b).integrity = s.integrity := rfl
@[simp] theorem State.writeMem_nimbus (s : State) (sp : Space) (a : Nat) (b : Bytes) :
    (s.writeMem sp a b).nimbus = s.nimbus := rfl
@[simp] theorem State.writeMem_stratus (s : State) (sp : Space) (a : Nat) (b : Bytes) :
    (s.writeMem sp a b).stratus = s.stratus := rfl
@[simp] theorem State.writeMem_sideband (s : State) (sp : Space) (a : Nat) (b : Bytes) :
    (s.writeMem sp a b).sideband = s.sideband := rfl

/-! ### State.setRing -/

@[simp] theorem State.setRing_pending (s : State) (n : Nat) (r : Ring) : (s.setRing n r).pending = s.pending := rfl
@[simp] theorem State.setRing_now (s : State) (n : Nat) (r : Ring) : (s.setRing n r).now = s.now := rfl
@[simp] theorem State.setRing_freeCtr (s : State) (n : Nat) (r : Ring) : (s.setRing n r).freeCtr = s.freeCtr := rfl
@[simp] theorem State.setRing_tick (s : State) (n : Nat) (r : Ring) : (s.setRing n r).tick = s.tick := rfl
@[simp] theorem State.setRing_job (s : State) (n : Nat) (r : Ring) : (s.setRing n r).job = s.job := rfl
@[simp] theorem State.setRing_compute (s : State) (n : Nat) (r : Ring) : (s.setRing n r).compute = s.compute := rfl
@[simp] theorem State.setRing_mem (s : State) (n : Nat) (r : Ring) : (s.setRing n r).mem = s.mem := rfl
@[simp] theorem State.setRing_tier (s : State) (n : Nat) (r : Ring) : (s.setRing n r).tier = s.tier := rfl
@[simp] theorem State.setRing_media (s : State) (n : Nat) (r : Ring) : (s.setRing n r).media = s.media := rfl
@[simp] theorem State.setRing_link (s : State) (n : Nat) (r : Ring) : (s.setRing n r).link = s.link := rfl
@[simp] theorem State.setRing_host (s : State) (n : Nat) (r : Ring) :
    (s.setRing n r).host = { s.host with rings := s.host.rings.set n r } := rfl
@[simp] theorem State.setRing_flash (s : State) (n : Nat) (r : Ring) : (s.setRing n r).flash = s.flash := rfl
@[simp] theorem State.setRing_dawn (s : State) (n : Nat) (r : Ring) : (s.setRing n r).dawn = s.dawn := rfl
@[simp] theorem State.setRing_integrity (s : State) (n : Nat) (r : Ring) :
    (s.setRing n r).integrity = s.integrity := rfl
@[simp] theorem State.setRing_nimbus (s : State) (n : Nat) (r : Ring) : (s.setRing n r).nimbus = s.nimbus := rfl
@[simp] theorem State.setRing_stratus (s : State) (n : Nat) (r : Ring) : (s.setRing n r).stratus = s.stratus := rfl
@[simp] theorem State.setRing_sideband (s : State) (n : Nat) (r : Ring) : (s.setRing n r).sideband = s.sideband := rfl

/-! ### State.setWaiting -/

@[simp] theorem State.setWaiting_pending (s : State) (w : List OutRecord) :
    (s.setWaiting w).pending = s.pending := rfl
@[simp] theorem State.setWaiting_now (s : State) (w : List OutRecord) : (s.setWaiting w).now = s.now := rfl
@[simp] theorem State.setWaiting_freeCtr (s : State) (w : List OutRecord) :
    (s.setWaiting w).freeCtr = s.freeCtr := rfl
@[simp] theorem State.setWaiting_tick (s : State) (w : List OutRecord) : (s.setWaiting w).tick = s.tick := rfl
@[simp] theorem State.setWaiting_job (s : State) (w : List OutRecord) : (s.setWaiting w).job = s.job := rfl
@[simp] theorem State.setWaiting_compute (s : State) (w : List OutRecord) :
    (s.setWaiting w).compute = s.compute := rfl
@[simp] theorem State.setWaiting_mem (s : State) (w : List OutRecord) : (s.setWaiting w).mem = s.mem := rfl
@[simp] theorem State.setWaiting_tier (s : State) (w : List OutRecord) : (s.setWaiting w).tier = s.tier := rfl
@[simp] theorem State.setWaiting_media (s : State) (w : List OutRecord) : (s.setWaiting w).media = s.media := rfl
@[simp] theorem State.setWaiting_link (s : State) (w : List OutRecord) : (s.setWaiting w).link = s.link := rfl
@[simp] theorem State.setWaiting_host (s : State) (w : List OutRecord) :
    (s.setWaiting w).host = { s.host with waiting := w } := rfl
@[simp] theorem State.setWaiting_flash (s : State) (w : List OutRecord) : (s.setWaiting w).flash = s.flash := rfl
@[simp] theorem State.setWaiting_dawn (s : State) (w : List OutRecord) : (s.setWaiting w).dawn = s.dawn := rfl
@[simp] theorem State.setWaiting_integrity (s : State) (w : List OutRecord) :
    (s.setWaiting w).integrity = s.integrity := rfl
@[simp] theorem State.setWaiting_nimbus (s : State) (w : List OutRecord) : (s.setWaiting w).nimbus = s.nimbus := rfl
@[simp] theorem State.setWaiting_stratus (s : State) (w : List OutRecord) :
    (s.setWaiting w).stratus = s.stratus := rfl
@[simp] theorem State.setWaiting_sideband (s : State) (w : List OutRecord) :
    (s.setWaiting w).sideband = s.sideband := rfl

/-! ### State.setEntry -/

@[simp] theorem State.setEntry_pending (s : State) (i : Nat) (e : DirEntry) :
    (s.setEntry i e).pending = s.pending := rfl
@[simp] theorem State.setEntry_now (s : State) (i : Nat) (e : DirEntry) : (s.setEntry i e).now = s.now := rfl
@[simp] theorem State.setEntry_freeCtr (s : State) (i : Nat) (e : DirEntry) :
    (s.setEntry i e).freeCtr = s.freeCtr := rfl
@[simp] theorem State.setEntry_tick (s : State) (i : Nat) (e : DirEntry) : (s.setEntry i e).tick = s.tick := rfl
@[simp] theorem State.setEntry_job (s : State) (i : Nat) (e : DirEntry) : (s.setEntry i e).job = s.job := rfl
@[simp] theorem State.setEntry_compute (s : State) (i : Nat) (e : DirEntry) :
    (s.setEntry i e).compute = s.compute := rfl
@[simp] theorem State.setEntry_mem (s : State) (i : Nat) (e : DirEntry) : (s.setEntry i e).mem = s.mem := rfl
@[simp] theorem State.setEntry_tier (s : State) (i : Nat) (e : DirEntry) :
    (s.setEntry i e).tier = { s.tier with entries := s.tier.entries.map fun p => if p.1 == i then (i, e) else p } := rfl
@[simp] theorem State.setEntry_media (s : State) (i : Nat) (e : DirEntry) : (s.setEntry i e).media = s.media := rfl
@[simp] theorem State.setEntry_link (s : State) (i : Nat) (e : DirEntry) : (s.setEntry i e).link = s.link := rfl
@[simp] theorem State.setEntry_host (s : State) (i : Nat) (e : DirEntry) : (s.setEntry i e).host = s.host := rfl
@[simp] theorem State.setEntry_flash (s : State) (i : Nat) (e : DirEntry) : (s.setEntry i e).flash = s.flash := rfl
@[simp] theorem State.setEntry_dawn (s : State) (i : Nat) (e : DirEntry) : (s.setEntry i e).dawn = s.dawn := rfl
@[simp] theorem State.setEntry_integrity (s : State) (i : Nat) (e : DirEntry) :
    (s.setEntry i e).integrity = s.integrity := rfl
@[simp] theorem State.setEntry_nimbus (s : State) (i : Nat) (e : DirEntry) : (s.setEntry i e).nimbus = s.nimbus := rfl
@[simp] theorem State.setEntry_stratus (s : State) (i : Nat) (e : DirEntry) :
    (s.setEntry i e).stratus = s.stratus := rfl
@[simp] theorem State.setEntry_sideband (s : State) (i : Nat) (e : DirEntry) :
    (s.setEntry i e).sideband = s.sideband := rfl

/-! ### State.setPort -/

@[simp] theorem State.setPort_pending (s : State) (n : Nat) (p : Port) : (s.setPort n p).pending = s.pending := rfl
@[simp] theorem State.setPort_now (s : State) (n : Nat) (p : Port) : (s.setPort n p).now = s.now := rfl
@[simp] theorem State.setPort_freeCtr (s : State) (n : Nat) (p : Port) : (s.setPort n p).freeCtr = s.freeCtr := rfl
@[simp] theorem State.setPort_tick (s : State) (n : Nat) (p : Port) : (s.setPort n p).tick = s.tick := rfl
@[simp] theorem State.setPort_job (s : State) (n : Nat) (p : Port) : (s.setPort n p).job = s.job := rfl
@[simp] theorem State.setPort_compute (s : State) (n : Nat) (p : Port) : (s.setPort n p).compute = s.compute := rfl
@[simp] theorem State.setPort_mem (s : State) (n : Nat) (p : Port) : (s.setPort n p).mem = s.mem := rfl
@[simp] theorem State.setPort_tier (s : State) (n : Nat) (p : Port) : (s.setPort n p).tier = s.tier := rfl
@[simp] theorem State.setPort_media (s : State) (n : Nat) (p : Port) : (s.setPort n p).media = s.media := rfl
@[simp] theorem State.setPort_link (s : State) (n : Nat) (p : Port) :
    (s.setPort n p).link = { s.link with ports := s.link.ports.set n p } := rfl
@[simp] theorem State.setPort_host (s : State) (n : Nat) (p : Port) : (s.setPort n p).host = s.host := rfl
@[simp] theorem State.setPort_flash (s : State) (n : Nat) (p : Port) : (s.setPort n p).flash = s.flash := rfl
@[simp] theorem State.setPort_dawn (s : State) (n : Nat) (p : Port) : (s.setPort n p).dawn = s.dawn := rfl
@[simp] theorem State.setPort_integrity (s : State) (n : Nat) (p : Port) :
    (s.setPort n p).integrity = s.integrity := rfl
@[simp] theorem State.setPort_nimbus (s : State) (n : Nat) (p : Port) : (s.setPort n p).nimbus = s.nimbus := rfl
@[simp] theorem State.setPort_stratus (s : State) (n : Nat) (p : Port) : (s.setPort n p).stratus = s.stratus := rfl
@[simp] theorem State.setPort_sideband (s : State) (n : Nat) (p : Port) : (s.setPort n p).sideband = s.sideband := rfl

/-! ### State.setStream -/

@[simp] theorem State.setStream_pending (s : State) (n : Nat) (x : Stream) :
    (s.setStream n x).pending = s.pending := rfl
@[simp] theorem State.setStream_now (s : State) (n : Nat) (x : Stream) : (s.setStream n x).now = s.now := rfl
@[simp] theorem State.setStream_freeCtr (s : State) (n : Nat) (x : Stream) :
    (s.setStream n x).freeCtr = s.freeCtr := rfl
@[simp] theorem State.setStream_tick (s : State) (n : Nat) (x : Stream) : (s.setStream n x).tick = s.tick := rfl
@[simp] theorem State.setStream_job (s : State) (n : Nat) (x : Stream) : (s.setStream n x).job = s.job := rfl
@[simp] theorem State.setStream_compute (s : State) (n : Nat) (x : Stream) :
    (s.setStream n x).compute = s.compute := rfl
@[simp] theorem State.setStream_mem (s : State) (n : Nat) (x : Stream) : (s.setStream n x).mem = s.mem := rfl
@[simp] theorem State.setStream_tier (s : State) (n : Nat) (x : Stream) : (s.setStream n x).tier = s.tier := rfl
@[simp] theorem State.setStream_media (s : State) (n : Nat) (x : Stream) :
    (s.setStream n x).media = { s.media with streams := s.media.streams.set n x } := rfl
@[simp] theorem State.setStream_link (s : State) (n : Nat) (x : Stream) : (s.setStream n x).link = s.link := rfl
@[simp] theorem State.setStream_host (s : State) (n : Nat) (x : Stream) : (s.setStream n x).host = s.host := rfl
@[simp] theorem State.setStream_flash (s : State) (n : Nat) (x : Stream) : (s.setStream n x).flash = s.flash := rfl
@[simp] theorem State.setStream_dawn (s : State) (n : Nat) (x : Stream) : (s.setStream n x).dawn = s.dawn := rfl
@[simp] theorem State.setStream_integrity (s : State) (n : Nat) (x : Stream) :
    (s.setStream n x).integrity = s.integrity := rfl
@[simp] theorem State.setStream_nimbus (s : State) (n : Nat) (x : Stream) : (s.setStream n x).nimbus = s.nimbus := rfl
@[simp] theorem State.setStream_stratus (s : State) (n : Nat) (x : Stream) :
    (s.setStream n x).stratus = s.stratus := rfl
@[simp] theorem State.setStream_sideband (s : State) (n : Nat) (x : Stream) :
    (s.setStream n x).sideband = s.sideband := rfl

/-! ### State.setFrame -/

@[simp] theorem State.setFrame_pending (s : State) (n : Nat) (g : Frame → Frame) :
    (s.setFrame n g).pending = s.pending := rfl
@[simp] theorem State.setFrame_now (s : State) (n : Nat) (g : Frame → Frame) : (s.setFrame n g).now = s.now := rfl
@[simp] theorem State.setFrame_freeCtr (s : State) (n : Nat) (g : Frame → Frame) :
    (s.setFrame n g).freeCtr = s.freeCtr := rfl
@[simp] theorem State.setFrame_tick (s : State) (n : Nat) (g : Frame → Frame) : (s.setFrame n g).tick = s.tick := rfl
@[simp] theorem State.setFrame_job (s : State) (n : Nat) (g : Frame → Frame) :
    (s.setFrame n g).job = { s.job with frames := s.job.frames.map fun f => if f.number == n then g f else f } := rfl
@[simp] theorem State.setFrame_compute (s : State) (n : Nat) (g : Frame → Frame) :
    (s.setFrame n g).compute = s.compute := rfl
@[simp] theorem State.setFrame_mem (s : State) (n : Nat) (g : Frame → Frame) : (s.setFrame n g).mem = s.mem := rfl
@[simp] theorem State.setFrame_tier (s : State) (n : Nat) (g : Frame → Frame) : (s.setFrame n g).tier = s.tier := rfl
@[simp] theorem State.setFrame_media (s : State) (n : Nat) (g : Frame → Frame) :
    (s.setFrame n g).media = s.media := rfl
@[simp] theorem State.setFrame_link (s : State) (n : Nat) (g : Frame → Frame) : (s.setFrame n g).link = s.link := rfl
@[simp] theorem State.setFrame_host (s : State) (n : Nat) (g : Frame → Frame) : (s.setFrame n g).host = s.host := rfl
@[simp] theorem State.setFrame_flash (s : State) (n : Nat) (g : Frame → Frame) :
    (s.setFrame n g).flash = s.flash := rfl
@[simp] theorem State.setFrame_dawn (s : State) (n : Nat) (g : Frame → Frame) : (s.setFrame n g).dawn = s.dawn := rfl
@[simp] theorem State.setFrame_integrity (s : State) (n : Nat) (g : Frame → Frame) :
    (s.setFrame n g).integrity = s.integrity := rfl
@[simp] theorem State.setFrame_nimbus (s : State) (n : Nat) (g : Frame → Frame) :
    (s.setFrame n g).nimbus = s.nimbus := rfl
@[simp] theorem State.setFrame_stratus (s : State) (n : Nat) (g : Frame → Frame) :
    (s.setFrame n g).stratus = s.stratus := rfl
@[simp] theorem State.setFrame_sideband (s : State) (n : Nat) (g : Frame → Frame) :
    (s.setFrame n g).sideband = s.sideband := rfl

/-! ### State.setRun -/

@[simp] theorem State.setRun_pending (s : State) (r : Run) : (s.setRun r).pending = s.pending := rfl
@[simp] theorem State.setRun_now (s : State) (r : Run) : (s.setRun r).now = s.now := rfl
@[simp] theorem State.setRun_freeCtr (s : State) (r : Run) : (s.setRun r).freeCtr = s.freeCtr := rfl
@[simp] theorem State.setRun_tick (s : State) (r : Run) : (s.setRun r).tick = s.tick := rfl
@[simp] theorem State.setRun_job (s : State) (r : Run) : (s.setRun r).job = s.job := rfl
@[simp] theorem State.setRun_compute (s : State) (r : Run) :
    (s.setRun r).compute = { s.compute with
      runs := s.compute.runs.map fun x => if x.core == r.core && x.place == r.place then r else x } := rfl
@[simp] theorem State.setRun_mem (s : State) (r : Run) : (s.setRun r).mem = s.mem := rfl
@[simp] theorem State.setRun_tier (s : State) (r : Run) : (s.setRun r).tier = s.tier := rfl
@[simp] theorem State.setRun_media (s : State) (r : Run) : (s.setRun r).media = s.media := rfl
@[simp] theorem State.setRun_link (s : State) (r : Run) : (s.setRun r).link = s.link := rfl
@[simp] theorem State.setRun_host (s : State) (r : Run) : (s.setRun r).host = s.host := rfl
@[simp] theorem State.setRun_flash (s : State) (r : Run) : (s.setRun r).flash = s.flash := rfl
@[simp] theorem State.setRun_dawn (s : State) (r : Run) : (s.setRun r).dawn = s.dawn := rfl
@[simp] theorem State.setRun_integrity (s : State) (r : Run) : (s.setRun r).integrity = s.integrity := rfl
@[simp] theorem State.setRun_nimbus (s : State) (r : Run) : (s.setRun r).nimbus = s.nimbus := rfl
@[simp] theorem State.setRun_stratus (s : State) (r : Run) : (s.setRun r).stratus = s.stratus := rfl
@[simp] theorem State.setRun_sideband (s : State) (r : Run) : (s.setRun r).sideband = s.sideband := rfl

/-! ### countKind -/

@[simp] theorem countKind_pending (s : State) (k : Nat) : (countKind k s).pending = s.pending := rfl
@[simp] theorem countKind_now (s : State) (k : Nat) : (countKind k s).now = s.now := rfl
@[simp] theorem countKind_freeCtr (s : State) (k : Nat) : (countKind k s).freeCtr = s.freeCtr := rfl
@[simp] theorem countKind_tick (s : State) (k : Nat) : (countKind k s).tick = s.tick := rfl
@[simp] theorem countKind_job (s : State) (k : Nat) : (countKind k s).job = s.job := rfl
@[simp] theorem countKind_compute (s : State) (k : Nat) : (countKind k s).compute = s.compute := rfl
@[simp] theorem countKind_mem (s : State) (k : Nat) : (countKind k s).mem = s.mem := rfl
@[simp] theorem countKind_tier (s : State) (k : Nat) : (countKind k s).tier = s.tier := rfl
@[simp] theorem countKind_media (s : State) (k : Nat) : (countKind k s).media = s.media := rfl
@[simp] theorem countKind_link (s : State) (k : Nat) : (countKind k s).link = s.link := rfl
@[simp] theorem countKind_host (s : State) (k : Nat) : (countKind k s).host = s.host := rfl
@[simp] theorem countKind_flash (s : State) (k : Nat) : (countKind k s).flash = s.flash := rfl
@[simp] theorem countKind_dawn (s : State) (k : Nat) : (countKind k s).dawn = s.dawn := rfl
@[simp] theorem countKind_integrity (s : State) (k : Nat) :
    (countKind k s).integrity = { s.integrity with
      counts := s.integrity.counts.set k (s.integrity.counts.getD k 0 + 1) } := rfl
@[simp] theorem countKind_nimbus (s : State) (k : Nat) : (countKind k s).nimbus = s.nimbus := rfl
@[simp] theorem countKind_stratus (s : State) (k : Nat) : (countKind k s).stratus = s.stratus := rfl
@[simp] theorem countKind_sideband (s : State) (k : Nat) : (countKind k s).sideband = s.sideband := rfl

/-! ### State.freeBytes -/

@[simp] theorem State.freeBytes_pending (s : State) (n : Nat) : ((s.freeBytes n).2).pending = s.pending := rfl
@[simp] theorem State.freeBytes_now (s : State) (n : Nat) : ((s.freeBytes n).2).now = s.now := rfl
@[simp] theorem State.freeBytes_freeCtr (s : State) (n : Nat) : ((s.freeBytes n).2).freeCtr = s.freeCtr + n := rfl
@[simp] theorem State.freeBytes_tick (s : State) (n : Nat) : ((s.freeBytes n).2).tick = s.tick := rfl
@[simp] theorem State.freeBytes_job (s : State) (n : Nat) : ((s.freeBytes n).2).job = s.job := rfl
@[simp] theorem State.freeBytes_compute (s : State) (n : Nat) : ((s.freeBytes n).2).compute = s.compute := rfl
@[simp] theorem State.freeBytes_mem (s : State) (n : Nat) : ((s.freeBytes n).2).mem = s.mem := rfl
@[simp] theorem State.freeBytes_tier (s : State) (n : Nat) : ((s.freeBytes n).2).tier = s.tier := rfl
@[simp] theorem State.freeBytes_media (s : State) (n : Nat) : ((s.freeBytes n).2).media = s.media := rfl
@[simp] theorem State.freeBytes_link (s : State) (n : Nat) : ((s.freeBytes n).2).link = s.link := rfl
@[simp] theorem State.freeBytes_host (s : State) (n : Nat) : ((s.freeBytes n).2).host = s.host := rfl
@[simp] theorem State.freeBytes_flash (s : State) (n : Nat) : ((s.freeBytes n).2).flash = s.flash := rfl
@[simp] theorem State.freeBytes_dawn (s : State) (n : Nat) : ((s.freeBytes n).2).dawn = s.dawn := rfl
@[simp] theorem State.freeBytes_integrity (s : State) (n : Nat) : ((s.freeBytes n).2).integrity = s.integrity := rfl
@[simp] theorem State.freeBytes_nimbus (s : State) (n : Nat) : ((s.freeBytes n).2).nimbus = s.nimbus := rfl
@[simp] theorem State.freeBytes_stratus (s : State) (n : Nat) : ((s.freeBytes n).2).stratus = s.stratus := rfl
@[simp] theorem State.freeBytes_sideband (s : State) (n : Nat) : ((s.freeBytes n).2).sideband = s.sideband := rfl

/-! ### complete -/

@[simp] theorem complete_pending (s : State) (c : Completion) (d : Bytes) :
    (complete c d s).pending = s.pending := rfl
@[simp] theorem complete_now (s : State) (c : Completion) (d : Bytes) : (complete c d s).now = s.now := rfl
@[simp] theorem complete_freeCtr (s : State) (c : Completion) (d : Bytes) :
    (complete c d s).freeCtr = s.freeCtr := rfl
@[simp] theorem complete_tick (s : State) (c : Completion) (d : Bytes) : (complete c d s).tick = s.tick := rfl
@[simp] theorem complete_job (s : State) (c : Completion) (d : Bytes) : (complete c d s).job = s.job := rfl
@[simp] theorem complete_compute (s : State) (c : Completion) (d : Bytes) :
    (complete c d s).compute = s.compute := rfl
@[simp] theorem complete_mem (s : State) (c : Completion) (d : Bytes) : (complete c d s).mem = s.mem := rfl
@[simp] theorem complete_tier (s : State) (c : Completion) (d : Bytes) : (complete c d s).tier = s.tier := rfl
@[simp] theorem complete_media (s : State) (c : Completion) (d : Bytes) : (complete c d s).media = s.media := rfl
@[simp] theorem complete_link (s : State) (c : Completion) (d : Bytes) : (complete c d s).link = s.link := rfl
@[simp] theorem complete_host (s : State) (c : Completion) (d : Bytes) :
    (complete c d s).host = { s.host with completion := c, readData := d } := rfl
@[simp] theorem complete_flash (s : State) (c : Completion) (d : Bytes) : (complete c d s).flash = s.flash := rfl
@[simp] theorem complete_dawn (s : State) (c : Completion) (d : Bytes) : (complete c d s).dawn = s.dawn := rfl
@[simp] theorem complete_integrity (s : State) (c : Completion) (d : Bytes) :
    (complete c d s).integrity = s.integrity := rfl
@[simp] theorem complete_nimbus (s : State) (c : Completion) (d : Bytes) : (complete c d s).nimbus = s.nimbus := rfl
@[simp] theorem complete_stratus (s : State) (c : Completion) (d : Bytes) :
    (complete c d s).stratus = s.stratus := rfl
@[simp] theorem complete_sideband (s : State) (c : Completion) (d : Bytes) :
    (complete c d s).sideband = s.sideband := rfl

@[simp] theorem recordAer_pending (s : State) : (recordAer s).pending = s.pending := rfl
@[simp] theorem recordAer_now (s : State) : (recordAer s).now = s.now := rfl
@[simp] theorem recordAer_freeCtr (s : State) : (recordAer s).freeCtr = s.freeCtr := rfl
@[simp] theorem recordAer_tick (s : State) : (recordAer s).tick = s.tick := rfl
@[simp] theorem recordAer_job (s : State) : (recordAer s).job = s.job := rfl
@[simp] theorem recordAer_compute (s : State) : (recordAer s).compute = s.compute := rfl
@[simp] theorem recordAer_mem (s : State) : (recordAer s).mem = s.mem := rfl
@[simp] theorem recordAer_tier (s : State) : (recordAer s).tier = s.tier := rfl
@[simp] theorem recordAer_media (s : State) : (recordAer s).media = s.media := rfl
@[simp] theorem recordAer_link (s : State) : (recordAer s).link = s.link := rfl
@[simp] theorem recordAer_host (s : State) : (recordAer s).host = { s.host with aer := true } := rfl
@[simp] theorem recordAer_flash (s : State) : (recordAer s).flash = s.flash := rfl
@[simp] theorem recordAer_dawn (s : State) : (recordAer s).dawn = s.dawn := rfl
@[simp] theorem recordAer_integrity (s : State) : (recordAer s).integrity = s.integrity := rfl
@[simp] theorem recordAer_nimbus (s : State) : (recordAer s).nimbus = s.nimbus := rfl
@[simp] theorem recordAer_stratus (s : State) : (recordAer s).stratus = s.stratus := rfl
@[simp] theorem recordAer_sideband (s : State) : (recordAer s).sideband = s.sideband := rfl

/-! ### swapBanks -/

@[simp] theorem swapBanks_pending (s : State) : (swapBanks s).pending = s.pending := rfl
@[simp] theorem swapBanks_now (s : State) : (swapBanks s).now = s.now := rfl
@[simp] theorem swapBanks_freeCtr (s : State) : (swapBanks s).freeCtr = s.freeCtr := rfl
@[simp] theorem swapBanks_tick (s : State) : (swapBanks s).tick = s.tick := rfl
@[simp] theorem swapBanks_job (s : State) : (swapBanks s).job = s.job := rfl
@[simp] theorem swapBanks_compute (s : State) :
    (swapBanks s).compute = { s.compute with bank := 1 - s.compute.bank } := rfl
@[simp] theorem swapBanks_mem (s : State) : (swapBanks s).mem = s.mem := rfl
@[simp] theorem swapBanks_tier (s : State) : (swapBanks s).tier = s.tier := rfl
@[simp] theorem swapBanks_media (s : State) : (swapBanks s).media = s.media := rfl
@[simp] theorem swapBanks_link (s : State) : (swapBanks s).link = s.link := rfl
@[simp] theorem swapBanks_host (s : State) : (swapBanks s).host = s.host := rfl
@[simp] theorem swapBanks_flash (s : State) : (swapBanks s).flash = s.flash := rfl
@[simp] theorem swapBanks_dawn (s : State) : (swapBanks s).dawn = s.dawn := rfl
@[simp] theorem swapBanks_integrity (s : State) : (swapBanks s).integrity = s.integrity := rfl
@[simp] theorem swapBanks_nimbus (s : State) : (swapBanks s).nimbus = s.nimbus := rfl
@[simp] theorem swapBanks_stratus (s : State) : (swapBanks s).stratus = s.stratus := rfl
@[simp] theorem swapBanks_sideband (s : State) : (swapBanks s).sideband = s.sideband := rfl

/-! ### takeEdge -/

@[simp] theorem takeEdge_pending (s : State) (core : Nat) : (takeEdge core s).pending = s.pending := rfl
@[simp] theorem takeEdge_now (s : State) (core : Nat) : (takeEdge core s).now = s.now := rfl
@[simp] theorem takeEdge_freeCtr (s : State) (core : Nat) : (takeEdge core s).freeCtr = s.freeCtr := rfl
@[simp] theorem takeEdge_tick (s : State) (core : Nat) : (takeEdge core s).tick = s.tick := rfl
@[simp] theorem takeEdge_job (s : State) (core : Nat) : (takeEdge core s).job = s.job := rfl
@[simp] theorem takeEdge_compute (s : State) (core : Nat) :
    (takeEdge core s).compute = { s.compute with
      edge := s.compute.edge.set (core / 8) (some core), edgeQueue := s.compute.edgeQueue.filter (·.1 != core) } := rfl
@[simp] theorem takeEdge_mem (s : State) (core : Nat) : (takeEdge core s).mem = s.mem := rfl
@[simp] theorem takeEdge_tier (s : State) (core : Nat) : (takeEdge core s).tier = s.tier := rfl
@[simp] theorem takeEdge_media (s : State) (core : Nat) : (takeEdge core s).media = s.media := rfl
@[simp] theorem takeEdge_link (s : State) (core : Nat) : (takeEdge core s).link = s.link := rfl
@[simp] theorem takeEdge_host (s : State) (core : Nat) : (takeEdge core s).host = s.host := rfl
@[simp] theorem takeEdge_flash (s : State) (core : Nat) : (takeEdge core s).flash = s.flash := rfl
@[simp] theorem takeEdge_dawn (s : State) (core : Nat) : (takeEdge core s).dawn = s.dawn := rfl
@[simp] theorem takeEdge_integrity (s : State) (core : Nat) : (takeEdge core s).integrity = s.integrity := rfl
@[simp] theorem takeEdge_nimbus (s : State) (core : Nat) : (takeEdge core s).nimbus = s.nimbus := rfl
@[simp] theorem takeEdge_stratus (s : State) (core : Nat) : (takeEdge core s).stratus = s.stratus := rfl
@[simp] theorem takeEdge_sideband (s : State) (core : Nat) : (takeEdge core s).sideband = s.sideband := rfl

/-! ### addGuest -/

@[simp] theorem addGuest_pending (s : State) (host core place : Nat) (c : Bytes) (arbiter : Bool) :
    (addGuest host core place c arbiter s).pending = s.pending := rfl
@[simp] theorem addGuest_now (s : State) (host core place : Nat) (c : Bytes) (arbiter : Bool) :
    (addGuest host core place c arbiter s).now = s.now := rfl
@[simp] theorem addGuest_freeCtr (s : State) (host core place : Nat) (c : Bytes) (arbiter : Bool) :
    (addGuest host core place c arbiter s).freeCtr = s.freeCtr := rfl
@[simp] theorem addGuest_tick (s : State) (host core place : Nat) (c : Bytes) (arbiter : Bool) :
    (addGuest host core place c arbiter s).tick = s.tick := rfl
@[simp] theorem addGuest_job (s : State) (host core place : Nat) (c : Bytes) (arbiter : Bool) :
    (addGuest host core place c arbiter s).job = s.job := rfl
@[simp] theorem addGuest_compute (s : State) (host core place : Nat) (c : Bytes) (arbiter : Bool) :
    (addGuest host core place c arbiter s).compute = { s.compute with
      guests := s.compute.guests ++ [⟨host, core, place, c, arbiter, false, []⟩] } := rfl
@[simp] theorem addGuest_mem (s : State) (host core place : Nat) (c : Bytes) (arbiter : Bool) :
    (addGuest host core place c arbiter s).mem = s.mem := rfl
@[simp] theorem addGuest_tier (s : State) (host core place : Nat) (c : Bytes) (arbiter : Bool) :
    (addGuest host core place c arbiter s).tier = s.tier := rfl
@[simp] theorem addGuest_media (s : State) (host core place : Nat) (c : Bytes) (arbiter : Bool) :
    (addGuest host core place c arbiter s).media = s.media := rfl
@[simp] theorem addGuest_link (s : State) (host core place : Nat) (c : Bytes) (arbiter : Bool) :
    (addGuest host core place c arbiter s).link = s.link := rfl
@[simp] theorem addGuest_host (s : State) (host core place : Nat) (c : Bytes) (arbiter : Bool) :
    (addGuest host core place c arbiter s).host = s.host := rfl
@[simp] theorem addGuest_flash (s : State) (host core place : Nat) (c : Bytes) (arbiter : Bool) :
    (addGuest host core place c arbiter s).flash = s.flash := rfl
@[simp] theorem addGuest_dawn (s : State) (host core place : Nat) (c : Bytes) (arbiter : Bool) :
    (addGuest host core place c arbiter s).dawn = s.dawn := rfl
@[simp] theorem addGuest_integrity (s : State) (host core place : Nat) (c : Bytes) (arbiter : Bool) :
    (addGuest host core place c arbiter s).integrity = s.integrity := rfl
@[simp] theorem addGuest_nimbus (s : State) (host core place : Nat) (c : Bytes) (arbiter : Bool) :
    (addGuest host core place c arbiter s).nimbus = s.nimbus := rfl
@[simp] theorem addGuest_stratus (s : State) (host core place : Nat) (c : Bytes) (arbiter : Bool) :
    (addGuest host core place c arbiter s).stratus = s.stratus := rfl
@[simp] theorem addGuest_sideband (s : State) (host core place : Nat) (c : Bytes) (arbiter : Bool) :
    (addGuest host core place c arbiter s).sideband = s.sideband := rfl

/-! ### assertFault -/

@[simp] theorem assertFault_pending (s : State) : (assertFault s).pending = s.pending := rfl
@[simp] theorem assertFault_now (s : State) : (assertFault s).now = s.now := rfl
@[simp] theorem assertFault_freeCtr (s : State) : (assertFault s).freeCtr = s.freeCtr := rfl
@[simp] theorem assertFault_tick (s : State) : (assertFault s).tick = s.tick := rfl
@[simp] theorem assertFault_job (s : State) : (assertFault s).job = s.job := rfl
@[simp] theorem assertFault_compute (s : State) : (assertFault s).compute = s.compute := rfl
@[simp] theorem assertFault_mem (s : State) : (assertFault s).mem = s.mem := rfl
@[simp] theorem assertFault_tier (s : State) : (assertFault s).tier = s.tier := rfl
@[simp] theorem assertFault_media (s : State) : (assertFault s).media = s.media := rfl
@[simp] theorem assertFault_link (s : State) : (assertFault s).link = s.link := rfl
@[simp] theorem assertFault_host (s : State) : (assertFault s).host = s.host := rfl
@[simp] theorem assertFault_flash (s : State) : (assertFault s).flash = s.flash := rfl
@[simp] theorem assertFault_dawn (s : State) : (assertFault s).dawn = s.dawn := rfl
@[simp] theorem assertFault_integrity (s : State) : (assertFault s).integrity = s.integrity := rfl
@[simp] theorem assertFault_nimbus (s : State) : (assertFault s).nimbus = s.nimbus := rfl
@[simp] theorem assertFault_stratus (s : State) : (assertFault s).stratus = s.stratus := rfl
@[simp] theorem assertFault_sideband (s : State) :
    (assertFault s).sideband = { s.sideband with faultN := true } := rfl

/-! ### takeTokens -/

@[simp] theorem takeTokens_pending (i n : Nat) (s : State) : (takeTokens i n s).pending = s.pending := rfl
@[simp] theorem takeTokens_now (i n : Nat) (s : State) : (takeTokens i n s).now = s.now := rfl
@[simp] theorem takeTokens_freeCtr (i n : Nat) (s : State) : (takeTokens i n s).freeCtr = s.freeCtr := rfl
@[simp] theorem takeTokens_tick (i n : Nat) (s : State) : (takeTokens i n s).tick = s.tick := rfl
@[simp] theorem takeTokens_job (i n : Nat) (s : State) : (takeTokens i n s).job = s.job := rfl
@[simp] theorem takeTokens_compute (i n : Nat) (s : State) : (takeTokens i n s).compute = s.compute := rfl
@[simp] theorem takeTokens_mem (i n : Nat) (s : State) : (takeTokens i n s).mem = s.mem := rfl
@[simp] theorem takeTokens_media (i n : Nat) (s : State) : (takeTokens i n s).media = s.media := rfl
@[simp] theorem takeTokens_link (i n : Nat) (s : State) : (takeTokens i n s).link = s.link := rfl
@[simp] theorem takeTokens_host (i n : Nat) (s : State) : (takeTokens i n s).host = s.host := rfl
@[simp] theorem takeTokens_flash (i n : Nat) (s : State) : (takeTokens i n s).flash = s.flash := rfl
@[simp] theorem takeTokens_dawn (i n : Nat) (s : State) : (takeTokens i n s).dawn = s.dawn := rfl
@[simp] theorem takeTokens_integrity (i n : Nat) (s : State) : (takeTokens i n s).integrity = s.integrity := rfl
@[simp] theorem takeTokens_nimbus (i n : Nat) (s : State) : (takeTokens i n s).nimbus = s.nimbus := rfl
@[simp] theorem takeTokens_stratus (i n : Nat) (s : State) : (takeTokens i n s).stratus = s.stratus := rfl
@[simp] theorem takeTokens_sideband (i n : Nat) (s : State) : (takeTokens i n s).sideband = s.sideband := rfl

/-- A transfer changes nothing of the tiers but the bucket that it takes tokens from (R260). -/
theorem takeTokens_tier (i n : Nat) (s : State) :
    (takeTokens i n s).tier = { s.tier with buckets := (takeTokens i n s).tier.buckets } := rfl

/-! ### writeInactive -/

@[simp] theorem writeInactive_pending (g : FunctionBank → FunctionBank) (s : State) :
    (writeInactive g s).pending = s.pending := by unfold writeInactive; split <;> rfl
@[simp] theorem writeInactive_now (g : FunctionBank → FunctionBank) (s : State) :
    (writeInactive g s).now = s.now := by unfold writeInactive; split <;> rfl
@[simp] theorem writeInactive_freeCtr (g : FunctionBank → FunctionBank) (s : State) :
    (writeInactive g s).freeCtr = s.freeCtr := by unfold writeInactive; split <;> rfl
@[simp] theorem writeInactive_tick (g : FunctionBank → FunctionBank) (s : State) :
    (writeInactive g s).tick = s.tick := by unfold writeInactive; split <;> rfl
@[simp] theorem writeInactive_job (g : FunctionBank → FunctionBank) (s : State) :
    (writeInactive g s).job = s.job := by unfold writeInactive; split <;> rfl
@[simp] theorem writeInactive_mem (g : FunctionBank → FunctionBank) (s : State) :
    (writeInactive g s).mem = s.mem := by unfold writeInactive; split <;> rfl
@[simp] theorem writeInactive_tier (g : FunctionBank → FunctionBank) (s : State) :
    (writeInactive g s).tier = s.tier := by unfold writeInactive; split <;> rfl
@[simp] theorem writeInactive_media (g : FunctionBank → FunctionBank) (s : State) :
    (writeInactive g s).media = s.media := by unfold writeInactive; split <;> rfl
@[simp] theorem writeInactive_link (g : FunctionBank → FunctionBank) (s : State) :
    (writeInactive g s).link = s.link := by unfold writeInactive; split <;> rfl
@[simp] theorem writeInactive_host (g : FunctionBank → FunctionBank) (s : State) :
    (writeInactive g s).host = s.host := by unfold writeInactive; split <;> rfl
@[simp] theorem writeInactive_flash (g : FunctionBank → FunctionBank) (s : State) :
    (writeInactive g s).flash = s.flash := by unfold writeInactive; split <;> rfl
@[simp] theorem writeInactive_dawn (g : FunctionBank → FunctionBank) (s : State) :
    (writeInactive g s).dawn = s.dawn := by unfold writeInactive; split <;> rfl
@[simp] theorem writeInactive_integrity (g : FunctionBank → FunctionBank) (s : State) :
    (writeInactive g s).integrity = s.integrity := by unfold writeInactive; split <;> rfl
@[simp] theorem writeInactive_nimbus (g : FunctionBank → FunctionBank) (s : State) :
    (writeInactive g s).nimbus = s.nimbus := by unfold writeInactive; split <;> rfl
@[simp] theorem writeInactive_stratus (g : FunctionBank → FunctionBank) (s : State) :
    (writeInactive g s).stratus = s.stratus := by unfold writeInactive; split <;> rfl
@[simp] theorem writeInactive_sideband (g : FunctionBank → FunctionBank) (s : State) :
    (writeInactive g s).sideband = s.sideband := by unfold writeInactive; split <;> rfl

/-- The active bank stands while the inactive one is written (R165). -/
theorem writeInactive_activeBank (g : FunctionBank → FunctionBank) (s : State) :
    (writeInactive g s).activeBank = s.activeBank := by
  unfold writeInactive
  split <;> rename_i h <;> simp [State.activeBank, h]

/-! ### State.free -/

@[simp] theorem State.free_fst (s : State) : s.free.1 = Config.freeValue s.freeCtr := rfl
@[simp] theorem State.free_pending (s : State) : s.free.2.pending = s.pending := rfl
@[simp] theorem State.free_now (s : State) : s.free.2.now = s.now := rfl
@[simp] theorem State.free_freeCtr (s : State) : s.free.2.freeCtr = s.freeCtr + 1 := rfl
@[simp] theorem State.free_tick (s : State) : s.free.2.tick = s.tick := rfl
@[simp] theorem State.free_job (s : State) : s.free.2.job = s.job := rfl
@[simp] theorem State.free_compute (s : State) : s.free.2.compute = s.compute := rfl
@[simp] theorem State.free_mem (s : State) : s.free.2.mem = s.mem := rfl
@[simp] theorem State.free_tier (s : State) : s.free.2.tier = s.tier := rfl
@[simp] theorem State.free_media (s : State) : s.free.2.media = s.media := rfl
@[simp] theorem State.free_link (s : State) : s.free.2.link = s.link := rfl
@[simp] theorem State.free_host (s : State) : s.free.2.host = s.host := rfl
@[simp] theorem State.free_flash (s : State) : s.free.2.flash = s.flash := rfl
@[simp] theorem State.free_dawn (s : State) : s.free.2.dawn = s.dawn := rfl
@[simp] theorem State.free_integrity (s : State) : s.free.2.integrity = s.integrity := rfl
@[simp] theorem State.free_nimbus (s : State) : s.free.2.nimbus = s.nimbus := rfl
@[simp] theorem State.free_stratus (s : State) : s.free.2.stratus = s.stratus := rfl
@[simp] theorem State.free_sideband (s : State) : s.free.2.sideband = s.sideband := rfl

/-! ### Mems.put -/

@[simp] theorem Mems.get_put_hbm (m : Mems) (v : Memory) : (m.put .hbm v).get .hbm = v := rfl
@[simp] theorem Mems.get_put_cache (m : Mems) (v : Memory) : (m.put .cache v).get .cache = v := rfl
@[simp] theorem Mems.get_put_scratch (m : Mems) (v : Memory) : (m.put .scratch v).get .scratch = v := rfl
@[simp] theorem Mems.get_put_acc (m : Mems) (v : Memory) : (m.put .acc v).get .acc = v := rfl
@[simp] theorem Mems.get_put_halo (m : Mems) (v : Memory) : (m.put .halo v).get .halo = v := rfl
@[simp] theorem Mems.get_put_store (m : Mems) (v : Memory) : (m.put .store v).get .store = v := rfl
@[simp] theorem Mems.get_put_host (m : Mems) (v : Memory) : (m.put .host v).get .host = v := rfl

/-- Replacing one memory leaves every other one. -/
theorem Mems.get_put_ne (m : Mems) (a b : Space) (v : Memory) (h : a ≠ b) : (m.put a v).get b = m.get b := by
  cases a <;> cases b <;> first | rfl | exact absurd rfl h

end Sys2Proof.Machine
end

