-- ==== Sys2Proof/Laws/Kept.lean ====
section
/-! SUPPORT. What no operation of the block touches, said once per operation: the queue and the clock stand (`exec`
moves the clock before any of them runs), and the configuration flash stands too but for the few operations that write
it; of those the anti-rollback counters never fall. -/

namespace Sys2Proof.Machine

/-- The parts of the state that an operation inside a command keeps: the queue, the clock and the configuration flash. -/
def State.kept (s : State) : List Instr × Time × Flash := (s.pending, s.now, s.flash)

@[simp] theorem kept_mk (t : State) (freeCtr tick job compute mem tier media link host dawn integrity nimbus stratus sideband) :
    State.kept ⟨t.pending, t.now, freeCtr, tick, job, compute, mem, tier, media, link, host, t.flash, dawn, integrity, nimbus,
      stratus, sideband⟩ = t.kept := rfl

@[simp] theorem kept_ite (c : Prop) [Decidable c] (a b : State) :
    (if c then a else b).kept = if c then a.kept else b.kept := apply_ite ..

@[simp] theorem free_kept (s : State) : s.free.2.kept = s.kept := rfl

@[simp] theorem foldl_kept {α : Type} (f : State → α → State) (l : List α) (s : State)
    (h : ∀ s x, (f s x).kept = s.kept) : (l.foldl f s).kept = s.kept := by
  induction l generalizing s with
  | nil => rfl
  | cons x xs ih => rw [List.foldl_cons, ih, h]

@[simp] theorem State.setPort_kept (n : Nat) (p : Port) (s : State) : (State.setPort s n p).kept = s.kept := by
  rfl

@[simp] theorem sendPlain_kept (port : Nat) (kind : Nat) (nak : Bool) (credD : Nat) (credC : Nat) (body : Bytes)
    (s : State) :
    (sendPlain port kind nak credD credC body s).kept = s.kept := by
  unfold sendPlain
  (repeat' split) <;> simp

@[simp] theorem returnCredit_kept (port : Nat) (control : Bool) (s : State) :
    (returnCredit port control s).kept = s.kept := by
  unfold returnCredit
  (repeat' split) <;> simp

@[simp] theorem pump_kept (port : Nat) (s : State) : (pump port s).kept = s.kept := by
  simp only [pump]
  rw [foldl_kept]
  · simp
  · intro s w; split <;> simp

@[simp] theorem sendOn_kept (port : Nat) (w : Waiting) (s : State) : (sendOn port w s).kept = s.kept := by
  unfold sendOn
  (repeat' split) <;> simp

@[simp] theorem sendControl_kept (forward : Bool) (origin : Option Nat) (body : Bytes) (s : State) :
    (sendControl forward origin body s).kept = s.kept := by
  unfold sendControl
  (repeat' split) <;> simp

@[simp] theorem sendData_kept (forward : Bool) (origin : Option Nat) (body : Bytes) (s : State) :
    (sendData forward origin body s).kept = s.kept := by
  unfold sendData
  (repeat' split) <;> simp

@[simp] theorem sendBothWays_kept (op : Nat) (payload : Bytes) (s : State) :
    (sendBothWays op payload s).kept = s.kept := by
  unfold sendBothWays
  (repeat' split) <;> simp

@[simp] theorem sendTo_kept (op : Nat) (dst : Nat) (payload : Bytes) (s : State) :
    (sendTo op dst payload s).kept = s.kept := by
  unfold sendTo
  (repeat' split) <;> simp

@[simp] theorem reportToHead_kept (kind : Nat) (payload : Bytes) (s : State) :
    (reportToHead kind payload s).kept = s.kept := by
  unfold reportToHead
  (repeat' split) <;> simp

@[simp] theorem State.freeBytes_kept (s : State) (n : Nat) : (s.freeBytes n).2.kept = s.kept := rfl

@[simp] theorem State.writeMem_kept (sp : Space) (addr : Nat) (b : Bytes) (s : State) :
    (State.writeMem s sp addr b).kept = s.kept := by
  rfl

@[simp] theorem State.writeMany_kept (ws : List (Space × Nat × Bytes)) (s : State) :
    (State.writeMany s ws).kept = s.kept := by
  unfold State.writeMany
  (repeat' split) <;> simp

@[simp] theorem State.writeExchange_kept (off : Nat) (b : Bytes) (s : State) :
    (State.writeExchange s off b).kept = s.kept := by
  unfold State.writeExchange
  (repeat' split) <;> simp

@[simp] theorem State.setRing_kept (n : Nat) (r : Ring) (s : State) : (State.setRing s n r).kept = s.kept := by
  rfl

@[simp] theorem State.produce_kept (n : Nat) (b : Bytes) (s : State) : (State.produce s n b).kept = s.kept := by
  unfold State.produce
  (repeat' split) <;> simp

@[simp] theorem State.produceData_kept (b : Bytes) (s : State) : (State.produceData s b).kept = s.kept := by
  unfold State.produceData
  (repeat' split) <;> simp

@[simp] theorem State.publish_kept (vector : Option Nat) (s : State) : (State.publish s vector).kept = s.kept := by
  unfold State.publish
  (repeat' split) <;> simp

@[simp] theorem drainEvents_kept (n : Nat) (s : State) : (drainEvents n s).kept = s.kept := by
  induction n generalizing s with
  | zero => rfl
  | succ n ih => unfold drainEvents; (repeat' split) <;> simp [ih]

@[simp] theorem emit_kept (code : Nat) (severity : Nat) (source : Nat) (arg : Nat) (oob : Bool) (s : State) :
    (emit code severity source arg oob s).kept = s.kept := by
  unfold emit
  (repeat' split) <;> simp

@[simp] theorem reportDropped_kept (s : State) : (reportDropped s).kept = s.kept := by
  unfold reportDropped
  (repeat' split) <;> simp

@[simp] theorem raiseAs_kept (code : Nat) (alt : Bool) (detectedIn : Source) (oob : Bool) (arg : Nat) (s : State) :
    (raiseAs code alt detectedIn oob arg s).kept = s.kept := by
  unfold raiseAs
  (repeat' split) <;> simp

@[simp] theorem raise_kept (code : Nat) (arg : Nat) (s : State) : (raise code arg s).kept = s.kept := by
  unfold raise
  (repeat' split) <;> simp

@[simp] theorem raiseAll_kept (codes : List Nat) (arg : Nat) (s : State) : (raiseAll codes arg s).kept = s.kept := by
  unfold raiseAll
  (repeat' split) <;> simp

@[simp] theorem writeRecord_kept (r : OutRecord) (s : State) : (writeRecord r s).kept = s.kept := by
  unfold writeRecord
  (repeat' split) <;> simp

@[simp] theorem State.setWaiting_kept (w : List OutRecord) (s : State) : (State.setWaiting s w).kept = s.kept := by
  rfl

@[simp] theorem drainRecords_kept (n : Nat) (s : State) : (drainRecords n s).kept = s.kept := by
  induction n generalizing s with
  | zero => rfl
  | succ n ih => unfold drainRecords; (repeat' split) <;> simp [ih]

@[simp] theorem markLate_kept (s : State) : (markLate s).kept = s.kept := by
  unfold markLate
  (repeat' split) <;> simp

@[simp] theorem applyWatchEnd_kept (s : State) : (applyWatchEnd s).kept = s.kept := by
  unfold applyWatchEnd
  (repeat' split) <;> simp

@[simp] theorem drainResponses_kept (n : Nat) (s : State) : (drainResponses n s).kept = s.kept := by
  induction n generalizing s with
  | zero => rfl
  | succ n ih => unfold drainResponses; (repeat' split) <;> simp [ih]

@[simp] theorem respond_kept (req : Bytes) (status : Nat) (body : Bytes) (s : State) :
    (respond req status body s).kept = s.kept := by
  unfold respond
  (repeat' split) <;> simp

@[simp] theorem leaveArmed_kept (s : State) : (leaveArmed s).kept = s.kept := by
  unfold leaveArmed
  repeat' (first | split | (simp ))

@[simp] theorem causeDusk_kept (code : Nat) (s : State) : (causeDusk code s).kept = s.kept := by
  unfold causeDusk
  (repeat' split) <;> simp

@[simp] theorem pushRecord_kept (r : OutRecord) (s : State) : (pushRecord r s).kept = s.kept := by
  unfold pushRecord
  (repeat' split) <;> simp

@[simp] theorem drainAll_kept (s : State) : (drainAll s).kept = s.kept := by
  unfold drainAll
  (repeat' split) <;> simp

@[simp] theorem State.setEntry_kept (i : Nat) (e : DirEntry) (s : State) : (State.setEntry s i e).kept = s.kept := by
  rfl

@[simp] theorem putByte_kept (cx : Access) (p : Put) (s : State) : (putByte cx s p).kept = s.kept := by
  unfold putByte
  (repeat' split) <;> simp

@[simp] theorem writeCode_kept (cx : Access) (t : Tensor) (ix : List Nat) (code : Nat) (s : State) :
    (writeCode cx t ix code s).kept = s.kept := by
  unfold writeCode
  (repeat' split) <;> simp

@[simp] theorem writeScale_kept (cx : Access) (t : Tensor) (ix : List Nat) (scale : Nat) (s : State) :
    (writeScale cx t ix scale s).kept = s.kept := by
  unfold writeScale
  (repeat' split) <;> simp

@[simp] theorem writeVals_kept (cx : Access) (t : Tensor) (rd : Nat → Rounding) (vals : List Val) (s : State) :
    (writeVals cx t rd vals s).kept = s.kept := by
  unfold writeVals
  (repeat' split) <;> simp

@[simp] theorem writeCodes_kept (cx : Access) (t : Tensor) (codes : List Nat) (s : State) :
    (writeCodes cx t codes s).kept = s.kept := by
  unfold writeCodes
  (repeat' split) <;> simp

@[simp] theorem fillBuckets_kept (s : State) : (fillBuckets s).kept = s.kept := by
  unfold fillBuckets
  (repeat' split) <;> simp

@[simp] theorem fillPartition_kept (part : Nat) (s : State) : (fillPartition part s).kept = s.kept := by
  unfold fillPartition
  (repeat' split) <;> simp

@[simp] theorem takeTokens_kept (i : Nat) (n : Nat) (s : State) : (takeTokens i n s).kept = s.kept := by
  unfold takeTokens
  (repeat' split) <;> simp

@[simp] theorem chargeHbm_kept (part : Nat) (addr : Nat) (n : Nat) (s : State) :
    (chargeHbm part addr n s).kept = s.kept := by
  unfold chargeHbm
  (repeat' split) <;> simp

@[simp] theorem chargeCore_kept (core : Nat) (addr : Nat) (n : Nat) (s : State) :
    (chargeCore core addr n s).kept = s.kept := by
  unfold chargeCore
  (repeat' split) <;> simp

@[simp] theorem checkPlanRegions_kept (s : State) : (checkPlanRegions s).kept = s.kept := by
  unfold checkPlanRegions
  simp only []
  split <;> simp

@[simp] theorem fetchLists_kept (s : State) : (fetchLists s).kept = s.kept := by
  unfold fetchLists
  (repeat' split) <;> simp

@[simp] theorem refillBuffer_kept (core : Nat) (s : State) : (refillBuffer core s).kept = s.kept := by
  unfold refillBuffer
  (repeat' split) <;> simp

@[simp] theorem writeInactive_kept (f : FunctionBank → FunctionBank) (s : State) :
    (writeInactive f s).kept = s.kept := by
  unfold writeInactive
  (repeat' split) <;> simp

@[simp] theorem swapBanks_kept (s : State) : (swapBanks s).kept = s.kept := by
  unfold swapBanks
  (repeat' split) <;> simp

@[simp] theorem loadBank_kept (ok : Bool) (f : FunctionBank → FunctionBank) (s : State) :
    (loadBank ok f s).kept = s.kept := by
  unfold loadBank
  (repeat' split) <;> simp

@[simp] theorem killCompute_kept (s : State) : (killCompute s).kept = s.kept := by
  unfold killCompute
  (repeat' split) <;> simp

@[simp] theorem killMedia_kept (s : State) : (killMedia s).kept = s.kept := by
  unfold killMedia
  (repeat' split) <;> simp

@[simp] theorem killDecodes_kept (s : State) : (killDecodes s).kept = s.kept := by
  unfold killDecodes
  (repeat' split) <;> simp

@[simp] theorem freePool_kept (s : State) : (freePool s).kept = s.kept := by
  unfold freePool
  (repeat' split) <;> simp

@[simp] theorem restartControllers_kept (s : State) : (restartControllers s).kept = s.kept := by
  unfold restartControllers
  (repeat' split) <;> simp

@[simp] theorem dueRecord_kept (r : OutRecord) (s : State) : (dueRecord r s).kept = s.kept := by
  unfold dueRecord
  (repeat' split) <;> simp

@[simp] theorem closeFrames_kept (reason : GapReason) (s : State) : (closeFrames reason s).kept = s.kept := by
  unfold closeFrames
  (repeat' split) <;> simp

@[simp] theorem State.asVariant_kept (v : Nat) (s : State) : (State.asVariant s v).kept = s.kept := by
  unfold State.asVariant
  (repeat' split) <;> simp

@[simp] theorem stampCheckpoint_kept (reason : GapReason) (stopTick : Nat) (ckpt : Nat) (s : State) :
    (stampCheckpoint reason stopTick ckpt s).kept = s.kept := by
  unfold stampCheckpoint
  (repeat' split) <;> simp

@[simp] theorem releaseFault_kept (s : State) : (releaseFault s).kept = s.kept := by
  unfold releaseFault
  (repeat' split) <;> simp

@[simp] theorem stopComplete_kept (s : State) : (stopComplete s).kept = s.kept := by
  unfold stopComplete
  (repeat' split) <;> simp

@[simp] theorem leaveJob_kept (s : State) : (leaveJob s).kept = s.kept := by
  unfold leaveJob
  (repeat' split) <;> simp

@[simp] theorem dropConditioning_kept (s : State) : (dropConditioning s).kept = s.kept := by
  unfold dropConditioning
  (repeat' split) <;> simp

@[simp] theorem stopJob_kept (reason : GapReason) (keep : Bool) (s : State) :
    (stopJob reason keep s).kept = s.kept := by
  unfold stopJob
  repeat' (first | split | (simp ))

@[simp] theorem duskStop_kept (code : Nat) (s : State) : (duskStop code s).kept = s.kept := by
  unfold duskStop
  (repeat' split) <;> simp

@[simp] theorem requestStop_kept (reason : GapReason) (s : State) : (requestStop reason s).kept = s.kept := by
  unfold requestStop
  (repeat' split) <;> simp

@[simp] theorem countKind_kept (k : Nat) (s : State) : (countKind k s).kept = s.kept := by
  unfold countKind
  (repeat' split) <;> simp

@[simp] theorem pageSoon_kept (s : State) : (pageSoon s).kept = s.kept := by
  unfold pageSoon
  (repeat' split) <;> simp

@[simp] theorem eclipseState_kept (s : State) : (eclipseState s).kept = s.kept := by
  unfold eclipseState
  (repeat' split) <;> simp

@[simp] theorem enterEclipse_kept (unit : BitVec 32) (rule : Nat) (s : State) :
    (enterEclipse unit rule s).kept = s.kept := by
  unfold enterEclipse
  (repeat' split) <;> simp

@[simp] theorem enterHistory_kept (code : Nat) (unit : BitVec 32) (site : BitVec 32) (s : State) :
    (enterHistory code unit site s).kept = s.kept := by
  unfold enterHistory
  (repeat' split) <;> simp

@[simp] theorem classify_kept (unit : BitVec 32) (failedTest : Bool) (s : State) :
    (classify unit failedTest s).kept = s.kept := by
  unfold classify
  (repeat' split) <;> simp

@[simp] theorem countError_kept (code : Nat) (detectedIn : Source) (oob : Bool) (unit : BitVec 32)
    (site : BitVec 32) (arg : Nat) (s : State) :
    (countError code detectedIn oob unit site arg s).kept = s.kept := by
  unfold countError
  (repeat' split) <;> simp

@[simp] theorem assertFault_kept (s : State) : (assertFault s).kept = s.kept := by
  unfold assertFault
  (repeat' split) <;> simp

@[simp] theorem withdrawRequests_kept (c : Option Nat) (s : State) : (withdrawRequests c s).kept = s.kept := by
  unfold withdrawRequests
  (repeat' split) <;> simp

@[simp] theorem reportNewest_kept (s : State) : (reportNewest s).kept = s.kept := by
  unfold reportNewest
  (repeat' split) <;> simp

@[simp] theorem beginSquall_kept (level : Nat) (charged : Option (BitVec 32)) (die : Option Nat) (ring : Bool)
    (s : State) :
    (beginSquall level charged die ring s).kept = s.kept := by
  unfold beginSquall
  repeat' (first | split | (simp ))

@[simp] theorem sendAbort_kept (cause : Nat) (s : State) : (sendAbort cause s).kept = s.kept := by
  unfold sendAbort
  (repeat' split) <;> simp

@[simp] theorem takeAbort_kept (cause : Nat) (charged : Option (BitVec 32)) (die : Option Nat) (s : State) :
    (takeAbort cause charged die s).kept = s.kept := by
  unfold takeAbort
  (repeat' split) <;> simp

@[simp] theorem startAbort_kept (cause : Nat) (reported : Bool) (charged : Option (BitVec 32)) (die : Option Nat)
    (s : State) :
    (startAbort cause reported charged die s).kept = s.kept := by
  unfold startAbort
  (repeat' split) <;> simp

@[simp] theorem enterSquall_kept (charged : Option (BitVec 32)) (die : Option Nat) (s : State) :
    (enterSquall charged die s).kept = s.kept := by
  unfold enterSquall
  (repeat' split) <;> simp

@[simp] theorem coldReset_kept (s : State) : (coldReset s).kept = s.kept := by
  unfold coldReset
  (repeat' split) <;> simp

@[simp] theorem forceModuleReset_kept (s : State) : (forceModuleReset s).kept = s.kept := by
  unfold forceModuleReset
  (repeat' split) <;> simp

@[simp] theorem commandFault_kept (code : Nat) (arg : Nat) (core : Nat) (s : State) :
    (commandFault code arg core s).kept = s.kept := by
  unfold commandFault
  (repeat' split) <;> simp

@[simp] theorem formFails_kept (code : Nat) (s : State) : (formFails code s).kept = s.kept := by
  unfold formFails
  (repeat' split) <;> simp

@[simp] theorem formationDue_kept (s : State) : (formationDue s).kept = s.kept := by
  unfold formationDue
  (repeat' split) <;> simp

@[simp] theorem enqueueEntry_kept (deadline : Nat) (cmdIndex : Nat) (entry : Nat) (s : State) :
    (enqueueEntry deadline cmdIndex entry s).kept = s.kept := by
  unfold enqueueEntry
  repeat' (first | split | (simp ))

@[simp] theorem estimateFill_kept (r : TierRequest) (s : State) : (estimateFill r s).kept = s.kept := by
  unfold estimateFill
  (repeat' split) <;> simp

@[simp] theorem addRequest_kept (r : TierRequest) (s : State) : (addRequest r s).kept = s.kept := by
  unfold addRequest
  (repeat' split) <;> simp

@[simp] theorem setStatus_kept (entry : Nat) (st : Residency) (s : State) : (setStatus entry st s).kept = s.kept := by
  unfold setStatus
  (repeat' split) <;> simp

@[simp] theorem beginFill_kept (s : State) : (beginFill s).kept = s.kept := by
  unfold beginFill
  repeat' (first | split | (simp ))

@[simp] theorem failFill_kept (f : Fill) (e : DirEntry) (code : Nat) (s : State) :
    (failFill f e code s).kept = s.kept := by
  unfold failFill
  (repeat' split) <;> simp

@[simp] theorem touchEntries_kept (entries : List Nat) (s : State) : (touchEntries entries s).kept = s.kept := by
  unfold touchEntries
  apply foldl_kept
  intro s i
  split <;> simp

@[simp] theorem decidePath_kept (m : Nat) (s : State) : (decidePath m s).kept = s.kept := by
  simp only [decidePath, kept_mk]
  rw [foldl_kept]
  · simp
  · intro s r
    split <;> simp

@[simp] theorem redecide_kept (s : State) : (redecide s).kept = s.kept := by
  unfold redecide
  (repeat' split) <;> simp

@[simp] theorem endFill_kept (ok : Bool) (host : Bytes) (s : State) : (endFill ok host s).kept = s.kept := by
  unfold endFill
  repeat' (first | split | (simp ))

@[simp] theorem shiftRequests_kept (d : Nat) (s : State) : (shiftRequests d s).kept = s.kept := by
  unfold shiftRequests
  (repeat' split) <;> simp

@[simp] theorem resetTier_kept (s : State) : (resetTier s).kept = s.kept := by
  unfold resetTier
  (repeat' split) <;> simp

@[simp] theorem State.setStream_kept (n : Nat) (x : Stream) (s : State) : (State.setStream s n x).kept = s.kept := by
  rfl

@[simp] theorem allocate_kept (n count : Nat) (s : State) : (allocate n count s).kept = s.kept := by
  unfold allocate
  exact kept_mk ..

@[simp] theorem commitRefs_kept (n : Nat) (refs : Nat) (key : Bool) (s : State) :
    (commitRefs n refs key s).kept = s.kept := by
  unfold commitRefs
  (repeat' split) <;> simp

@[simp] theorem storeFrame_kept (bufs : List Nat) (samples : Bytes) (field : Bytes) (s : State) :
    (storeFrame bufs samples field s).kept = s.kept := by
  unfold storeFrame
  (repeat' split) <;> simp

@[simp] theorem beginEncode_kept (n number k : Nat) (s : State) : (beginEncode n number k s).kept = s.kept := by
  simp only [beginEncode, State.free, allocate_kept, State.setStream_kept]
  rw [foldl_kept]
  · exact kept_mk ..
  · intro s j; simp

@[simp] theorem startEncode_kept (n : Nat) (f : Frame) (s : State) : (startEncode n f s).kept = s.kept := by
  unfold startEncode
  (repeat' split) <;> simp

@[simp] theorem startEncodes_kept (k : Nat) (s : State) : (startEncodes k s).kept = s.kept := by
  unfold startEncodes
  (repeat' split) <;> simp

@[simp] theorem State.setFrame_kept (number : Nat) (g : Frame → Frame) (s : State) :
    (State.setFrame s number g).kept = s.kept := by
  rfl

@[simp] theorem nextEncode_kept (n : Nat) (s : State) : (nextEncode n s).kept = s.kept := by
  unfold nextEncode
  simp only []
  split <;> simp

@[simp] theorem stageUnit_kept (n : Nat) (s : State) : (stageUnit n s).kept = s.kept := by
  unfold stageUnit
  repeat' (first | split | (simp ))

@[simp] theorem putPicture_kept (n : Nat) (k : Nat) (planes : List (List Nat)) (s : State) :
    (putPicture n k planes s).kept = s.kept := by
  unfold putPicture
  (repeat' split) <;> simp

@[simp] theorem repeatPicture_kept (n : Nat) (k : Nat) (s : State) : (repeatPicture n k s).kept = s.kept := by
  unfold repeatPicture
  (repeat' split) <;> simp

@[simp] theorem flagDamaged_kept (number : Nat) (s : State) : (flagDamaged number s).kept = s.kept := by
  unfold flagDamaged
  (repeat' split) <;> simp

@[simp] theorem pictureStaged_kept (n : Nat) (number : Nat) (damaged : Bool) (s : State) :
    (pictureStaged n number damaged s).kept = s.kept := by
  unfold pictureStaged
  (repeat' split) <;> simp

@[simp] theorem concealFrame_kept (n : Nat) (number : Nat) (k : Nat) (s : State) :
    (concealFrame n number k s).kept = s.kept := by
  unfold concealFrame
  (repeat' split) <;> simp

@[simp] theorem startDecode_kept (n : Nat) (k : Nat) (f : Frame) (segs : List Segment) (s : State) :
    (startDecode n k f segs s).kept = s.kept := by
  unfold startDecode
  (repeat' split) <;> simp

@[simp] theorem startDecodes_kept (k : Nat) (f : Frame) (segs : List Segment) (s : State) :
    (startDecodes k f segs s).kept = s.kept := by
  unfold startDecodes
  (repeat' split) <;> simp

@[simp] theorem replayDecodes_kept (k : Nat) (s : State) : (replayDecodes k s).kept = s.kept := by
  unfold replayDecodes
  (repeat' split) <;> simp

@[simp] theorem placePicture_kept (n : Nat) (k : Nat) (d : Decoded) (s : State) :
    (placePicture n k d s).kept = s.kept := by
  unfold placePicture
  (repeat' split) <;> simp

@[simp] theorem stagePicture_kept (n : Nat) (s : State) : (stagePicture n s).kept = s.kept := by
  unfold stagePicture
  repeat' (first | split | (simp ))

@[simp] theorem commitPictures_kept (s : State) : (commitPictures s).kept = s.kept := by
  unfold commitPictures
  (repeat' split) <;> simp

@[simp] theorem resetMedia_kept (s : State) : (resetMedia s).kept = s.kept := by
  unfold resetMedia
  (repeat' split) <;> simp

@[simp] theorem startMedia_kept (s : State) : (startMedia s).kept = s.kept := by
  unfold startMedia
  (repeat' split) <;> simp

@[simp] theorem writeCheckpoint_kept (c : Nat) (s : State) : (writeCheckpoint c s).kept = s.kept := by
  unfold writeCheckpoint
  (repeat' split) <;> simp

@[simp] theorem moveCheckpoint_kept (region : Nat) (c : Nat) (k : Nat) (s : State) :
    (moveCheckpoint region c k s).kept = s.kept := by
  unfold moveCheckpoint
  (repeat' split) <;> simp

@[simp] theorem restoreTensor_kept (t : Tensor) (data : Bytes) (s : State) :
    (restoreTensor t data s).kept = s.kept := by
  unfold restoreTensor
  (repeat' split) <;> simp

theorem restoreRecord_kept (v : Nat) (addr : Nat → Nat) (first i : Nat) (s t : State)
    (h : restoreRecord v addr first i (some s) = some t) : t.kept = s.kept := by
  simp only [restoreRecord] at h
  split at h
  · cases h
  · split at h <;> cases h <;> split <;> simp

theorem foldl_restore_none (v : Nat) (addr : Nat → Nat) (first : Nat) (l : List Nat) :
    l.foldl (fun r i => restoreRecord v addr first i r) none = none := by
  induction l with
  | nil => rfl
  | cons y ys ih => rw [List.foldl_cons]; exact ih

theorem foldl_restore_kept (v : Nat) (addr : Nat → Nat) (first : Nat) (l : List Nat) (s t : State)
    (h : l.foldl (fun r i => restoreRecord v addr first i r) (some s) = some t) : t.kept = s.kept := by
  induction l generalizing s with
  | nil => cases h; rfl
  | cons x xs ih =>
    rw [List.foldl_cons] at h
    cases hr : restoreRecord v addr first x (some s) with
    | none => rw [hr, foldl_restore_none] at h; cases h
    | some u =>
      rw [hr] at h
      exact (ih u h).trans (restoreRecord_kept v addr first x s u hr)

theorem restoreFrom_kept (v : Nat) (d : Option Nat) (c : Nat) (s t : State) (h : restoreFrom v d c s = some t) :
    t.kept = s.kept := by
  unfold restoreFrom at h
  simp only [] at h
  split at h
  · cases h
  · rw [foldl_restore_kept _ _ _ _ _ _ h]
    split <;> simp

theorem restoreCheckpoint_kept (d : Option Nat) (c : Nat) (s t : State) (h : restoreCheckpoint d c s = some t) :
    t.kept = s.kept := restoreFrom_kept _ _ _ _ _ h

@[simp] theorem takeCheckpoint_kept (i : Nat) (p : Nat) (b : Bytes) (s : State) :
    (takeCheckpoint i p b s).kept = s.kept := by
  unfold takeCheckpoint
  (repeat' split) <;> simp

@[simp] theorem releaseHeld_kept (s : State) : (releaseHeld s).kept = s.kept := by
  unfold releaseHeld
  (repeat' split) <;> simp

@[simp] theorem writeSegment_kept (g : Segment) (die : Nat) (s : State) : (writeSegment g die s).kept = s.kept := by
  unfold writeSegment
  have k : ∀ (b : Bool) a n, (if b = true then s else chargeHbm 4 a n (s.writeMem .hbm a g.payload)).kept = s.kept := by
    intro b a n
    split <;> simp
  exact k _ _ _

@[simp] theorem writeConditioning_kept (segs : List Segment) (s : State) : (writeConditioning segs s).kept = s.kept := by
  simp [writeConditioning]

@[simp] theorem acceptFrame_kept (k : Nat) (flywheel : Bool) (s : State) :
    (acceptFrame k flywheel s).kept = s.kept := by
  unfold acceptFrame
  (repeat' split) <;> simp

@[simp] theorem nextAk_kept (k : Nat) (s : State) : (nextAk k s).kept = s.kept := by
  unfold nextAk
  (repeat' split) <;> simp

@[simp] theorem applySwitches_kept (s : State) : (applySwitches s).kept = s.kept := by
  unfold applySwitches
  (repeat' split) <;> simp

@[simp] theorem fitModel_kept (s : State) : (fitModel s).kept = s.kept := rfl

@[simp] theorem startTick_kept (k : Nat) (s : State) : (startTick k s).kept = s.kept := by
  unfold startTick
  (repeat' split) <;> simp

@[simp] theorem noteShortfall_kept (s : State) : (noteShortfall s).kept = s.kept := by
  unfold noteShortfall
  (repeat' split) <;> simp

@[simp] theorem duskHere_kept (how : Placed) (s : State) : (duskHere how s).2.kept = s.kept := by
  unfold duskHere
  (repeat' split) <;> simp

@[simp] theorem jobEndEffect_kept (e : Nat) (s : State) : (jobEndEffect e s).kept = s.kept := by
  unfold jobEndEffect
  (repeat' split) <;> simp

@[simp] theorem startRun_kept (k : Nat) (flywheel : Bool) (s : State) : (startRun k flywheel s).kept = s.kept := by
  unfold startRun
  (repeat' split) <;> simp

@[simp] theorem squallResume_kept (r : Nat) (q : Squall) (s : State) : (squallResume r q s).kept = s.kept := by
  unfold squallResume
  (repeat' split) <;> simp

@[simp] theorem runBoundary_kept (k : Nat) (how : Placed) (s : State) : (runBoundary k how s).kept = s.kept := by
  unfold runBoundary
  have hd := duskHere_kept how s
  split <;> rename_i heq <;> rw [heq] at hd <;> (repeat' split) <;> simpa using hd

@[simp] theorem squallRecheck_kept (s : State) : (squallRecheck s).kept = s.kept := by
  unfold squallRecheck
  (repeat' split) <;> simp

@[simp] theorem forwardTick_kept (how : Placed) (dusk : Bool) (ended : Bool) (s : State) :
    (forwardTick how dusk ended s).kept = s.kept := by
  unfold forwardTick
  (repeat' split) <;> simp

@[simp] theorem squallBoundary_kept (k : Nat) (how : Placed) (s : State) : (squallBoundary k how s).kept = s.kept := by
  unfold squallBoundary
  (repeat' split) <;> simp

@[simp] theorem placeBoundary_kept (k : Nat) (how : Placed) (s : State) : (placeBoundary k how s).kept = s.kept := by
  unfold placeBoundary
  (repeat' split) <;> simp

@[simp] theorem reportFlywheel_kept (how : Placed) (third : Bool) (s : State) :
    (reportFlywheel how third s).kept = s.kept := by
  unfold reportFlywheel
  (repeat' split) <;> simp

@[simp] theorem unlockSource_kept (s : State) : (unlockSource s).kept = s.kept := by
  unfold unlockSource
  (repeat' split) <;> simp

@[simp] theorem tickLost_kept (s : State) : (tickLost s).kept = s.kept := by
  unfold tickLost
  (repeat' split) <;> simp

@[simp] theorem boundary_kept (how : Placed) (s : State) : (boundary how s).kept = s.kept := by
  unfold boundary
  repeat' (first | split | (simp ))

@[simp] theorem showLock_kept (s : State) : (showLock s).kept = s.kept := by
  unfold showLock
  (repeat' split) <;> simp

@[simp] theorem lockLost_kept (s : State) : (lockLost s).kept = s.kept := by
  unfold lockLost
  (repeat' split) <;> simp

@[simp] theorem pulseInJob_kept (s : State) : (pulseInJob s).kept = s.kept := by
  unfold pulseInJob
  (repeat' split) <;> simp

@[simp] theorem pulseEdge_kept (s : State) : (pulseEdge s).kept = s.kept := by
  unfold pulseEdge
  repeat' (first | split | (simp ))

@[simp] theorem wordPlaces_kept (inTolerance : Bool) (s : State) : (wordPlaces inTolerance s).kept = s.kept := by
  unfold wordPlaces
  (repeat' split) <;> simp

@[simp] theorem wordEdge_kept (inTolerance : Bool) (s : State) : (wordEdge inTolerance s).kept = s.kept := by
  unfold wordEdge
  (repeat' split) <;> simp

@[simp] theorem internalEdge_kept (s : State) : (internalEdge s).kept = s.kept := by
  unfold internalEdge
  (repeat' split) <;> simp

@[simp] theorem flywheelEdge_kept (s : State) : (flywheelEdge s).kept = s.kept := by
  unfold flywheelEdge
  (repeat' split) <;> simp

@[simp] theorem abortAfterStop_kept (cause : Nat) (s : State) : (abortAfterStop cause s).kept = s.kept := by
  unfold abortAfterStop
  (repeat' split) <;> simp

@[simp] theorem forwardTimeout_kept (s : State) : (forwardTimeout s).kept = s.kept := by
  unfold forwardTimeout
  (repeat' split) <;> simp

@[simp] theorem lockTimeout_kept (s : State) : (lockTimeout s).kept = s.kept := by
  unfold lockTimeout
  (repeat' split) <;> simp

@[simp] theorem setClock_kept (rate : Nat) (locked : Bool) (s : State) : (setClock rate locked s).kept = s.kept := by
  unfold setClock
  (repeat' split) <;> simp

@[simp] theorem clockUnlock_kept (rate : Nat) (s : State) : (clockUnlock rate s).kept = s.kept := by
  unfold clockUnlock
  (repeat' split) <;> simp

@[simp] theorem cutoff_kept (s : State) : (cutoff s).kept = s.kept := by
  unfold cutoff
  (repeat' split) <;> simp

@[simp] theorem commitDeadline_kept (s : State) : (commitDeadline s).kept = s.kept := by
  unfold commitDeadline
  (repeat' split) <;> simp

@[simp] theorem advanceFrames_kept (k : Nat) (s : State) : (advanceFrames k s).kept = s.kept := by
  unfold advanceFrames
  (repeat' split) <;> simp

@[simp] theorem sendReady_kept (s : State) : (sendReady s).kept = s.kept := by
  simp only [sendReady]
  split
  · rw [kept_mk]; apply foldl_kept; intro s p; split <;> simp
  · rfl

@[simp] theorem commitTick_kept (s : State) : (commitTick s).kept = s.kept := by
  simp only [commitTick]
  split
  · rw [kept_mk, writeCheckpoint_kept, commitPictures_kept, advanceFrames_kept, sendReady_kept]
  · exact sendReady_kept s

@[simp] theorem dropFrame_kept (number : Nat) (s : State) : (dropFrame number s).kept = s.kept := by
  unfold dropFrame
  (repeat' split) <;> simp

@[simp] theorem slotDone_kept (s : State) : (slotDone s).kept = s.kept := by
  unfold slotDone
  (repeat' split) <;> simp

@[simp] theorem deliver_kept (s : State) : (deliver s).kept = s.kept := by
  unfold deliver
  repeat' (first | split | (simp ))

@[simp] theorem drainEnd_kept (s : State) : (drainEnd s).kept = s.kept := by
  unfold drainEnd
  (repeat' split) <;> simp

@[simp] theorem finishRecovery_kept (q : Squall) (s : State) : (finishRecovery q s).kept = s.kept := by
  unfold finishRecovery
  (repeat' split) <;> simp

@[simp] theorem restoreFor_kept (q : Squall) (s : State) : (restoreFor q s).kept = s.kept := by
  unfold restoreFor
  split
  · split
    · rename_i h; rw [finishRecovery_kept, restoreCheckpoint_kept _ _ _ _ h]
    · simp
  · simp

@[simp] theorem recoveryComplete_kept (selfTestOk : Bool) (tablesOk : Bool) (s : State) :
    (recoveryComplete selfTestOk tablesOk s).kept = s.kept := by
  unfold recoveryComplete
  (repeat' split) <;> simp

@[simp] theorem recoveryTimeout_kept (s : State) : (recoveryTimeout s).kept = s.kept := by
  unfold recoveryTimeout
  (repeat' split) <;> simp

@[simp] theorem sample_kept (r : Readings) (s : State) : (sample r s).kept = s.kept := by
  unfold sample State.free
  exact kept_mk ..

@[simp] theorem updateValve_kept (s : State) : (updateValve s).kept = s.kept := rfl

@[simp] theorem safetyDusk_kept (code : Nat) (s : State) : (safetyDusk code s).kept = s.kept := by
  simp only [safetyDusk, causeDusk_kept, raiseAs_kept]
  split <;> rfl

@[simp] theorem powerOff_kept (s : State) : (powerOff s).kept = s.kept := by
  unfold powerOff
  simp only [kept_mk, coldReset_kept]

@[simp] theorem evaluatePower_kept (s : State) : (evaluatePower s).kept = s.kept := by
  unfold evaluatePower
  repeat' (first | split | (simp ))

@[simp] theorem removePower_kept (s : State) : (removePower s).kept = s.kept := by
  unfold removePower
  repeat' (first | split | (simp ))

@[simp] theorem recordTrip_kept (code : Nat) (s : State) : (recordTrip code s).kept = s.kept := by
  unfold recordTrip
  (repeat' split) <;> simp

@[simp] theorem trip_kept (code : Nat) (opensSwitch : Bool) (s : State) : (trip code opensSwitch s).kept = s.kept := by
  unfold trip
  repeat' (first | split | (simp ))

@[simp] theorem State.setRun_kept (r : Run) (s : State) : (State.setRun s r).kept = s.kept := by
  rfl

@[simp] theorem dropGuests_kept (core : Nat) (place : Nat) (s : State) : (dropGuests core place s).kept = s.kept := by
  unfold dropGuests
  (repeat' split) <;> simp

@[simp] theorem killRun_kept (r : Run) (s : State) : (killRun r s).kept = s.kept := by
  unfold killRun
  (repeat' split) <;> simp

@[simp] theorem levelOne_kept (r : Run) (s : State) : (levelOne r s).kept = s.kept := by
  unfold levelOne
  (repeat' split) <;> simp

@[simp] theorem poison_kept (addr : Nat) (s : State) : (poison addr s).kept = s.kept := by
  unfold poison
  repeat' (first | split | (simp ))

@[simp] theorem levelTwo_kept (code : Nat) (unit : BitVec 32) (site : BitVec 32) (die : Option Nat) (arg : Nat)
    (s : State) :
    (levelTwo code unit site die arg s).kept = s.kept := by
  unfold levelTwo
  (repeat' split) <;> simp

@[simp] theorem bridgeFault_kept (s : State) : (bridgeFault s).kept = s.kept := by
  simp [bridgeFault, State.free]

@[simp] theorem levelThree_kept (code : Nat) (unit : BitVec 32) (s : State) :
    (levelThree code unit s).kept = s.kept := by
  unfold levelThree
  (repeat' split) <;> simp

@[simp] theorem beginReset_kept (p : Nat) (s : State) : (beginReset p s).kept = s.kept := by
  unfold beginReset
  (repeat' split) <;> simp

@[simp] theorem endReset_kept (p : Nat) (s : State) : (endReset p s).kept = s.kept := by
  unfold endReset
  (repeat' split) <;> simp

@[simp] theorem endComputeReset_kept (s : State) : (endComputeReset s).kept = s.kept := by
  unfold endComputeReset
  repeat' (first | split | (simp ))

@[simp] theorem pickup_kept (s : State) : (pickup s).kept = s.kept := by
  unfold pickup
  (repeat' split) <;> simp

@[simp] theorem noteRefusal_kept (op : Nat) (c : Nat) (s : State) : (noteRefusal op c s).kept = s.kept := by
  unfold noteRefusal
  (repeat' split) <;> simp

@[simp] theorem serve_kept (op : Nat) (req : Bytes) (checks : List (Bool × Nat)) (work : State → State) (s : State)
    (hwork : ∀ u, (work u).kept = u.kept) :
    (serve op req checks work s).kept = s.kept := by
  unfold serve
  repeat' (first | split | (simp [hwork]))

@[simp] theorem readRequest_kept (off n : Nat) (s : State) : (readRequest off n s).2.kept = s.kept := by
  unfold readRequest
  split
  · simp
  · rfl

@[simp] theorem storeWrite_kept (req : Bytes) (s : State) : (storeWrite req s).kept = s.kept := by
  unfold storeWrite
  apply serve_kept
  intro s; simp

@[simp] theorem selfTestWindow_kept (restore : FunctionBank → FunctionBank) (w : WindowInput) (s : State) :
    (selfTestWindow restore w s).2.2.kept = s.kept := by
  unfold selfTestWindow
  simp only []
  split <;> simp

@[simp] theorem failUnit_kept (u : Option (BitVec 32)) (s : State) : (failUnit u s).kept = s.kept := by
  unfold failUnit
  (repeat' split) <;> simp

@[simp] theorem tableLoad_kept (req : Bytes) (window : WindowInput) (s : State) :
    (tableLoad req window s).kept = s.kept := by
  unfold tableLoad
  apply serve_kept
  intro s; simp

@[simp] theorem selfTest_kept (req : Bytes) (window : WindowInput) (s : State) :
    (selfTest req window s).kept = s.kept := by
  unfold selfTest
  apply serve_kept
  intro s; simp

@[simp] theorem attest_kept (req : Bytes) (s : State) : (attest req s).kept = s.kept := by
  unfold attest
  (repeat' split) <;> simp

@[simp] theorem counterFailure_kept (s : State) : (counterFailure s).kept = s.kept := by
  unfold counterFailure
  (repeat' split) <;> simp

@[simp] theorem telemetry_kept (req : Bytes) (s : State) : (telemetry req s).kept = s.kept := by
  unfold telemetry
  (repeat' split) <;> simp

@[simp] theorem historyRead_kept (req : Bytes) (s : State) : (historyRead req s).kept = s.kept := by
  unfold historyRead
  (repeat' split) <;> simp

@[simp] theorem moduleReset_kept (req : Bytes) (s : State) : (moduleReset req s).kept = s.kept := by
  unfold moduleReset
  (repeat' split) <;> simp

@[simp] theorem tierRequest_kept (c : Bytes) (ix : Int) (due : Nat) (s : State) :
    (tierRequest c ix due s).2.kept = s.kept := by
  simp only [tierRequest]
  generalize (tqFirst c + if tqIndirect c = true then ix else 0 : Int) = f
  split <;> simp

@[simp] theorem earlyRequests_kept (s : State) : (earlyRequests s).kept = s.kept := by
  unfold earlyRequests
  refine foldl_kept _ _ _ fun s c => foldl_kept _ _ _ fun s m => ?_
  simp only [State.free]
  simp

@[simp] theorem armFields_kept (req : Bytes) (s : State) : (armFields req s).kept = s.kept := by
  unfold armFields
  (repeat' split) <;> simp

@[simp] theorem armEngines_kept (rates : List (Nat × Nat × Nat)) (table : Bytes) (s : State) :
    (armEngines rates table s).kept = s.kept := by
  unfold armEngines
  (repeat' split) <;> simp

@[simp] theorem armTable_kept (req : Bytes) (s : State) : (armTable req s).2.kept = s.kept := by
  unfold armTable
  split
  · simp
  · rfl

@[simp] theorem armJob_kept (req : Bytes) (s : State) : (armJob req s).kept = s.kept := by
  simp only [armJob, releaseHeld_kept, startMedia_kept, killCompute_kept]
  split <;> simp

theorem restoreRetained_kept (req : Bytes) (s t : State) (h : restoreRetained req s = some t) :
    t.kept = s.kept := by
  unfold restoreRetained at h
  split at h
  · exact restoreFrom_kept _ _ _ _ _ h
  · first | (cases h; rfl) | cases h

@[simp] theorem resumeLost_kept (req : Bytes) (ckpt : Nat) (s : State) : (resumeLost req ckpt s).kept = s.kept := by
  unfold resumeLost
  (repeat' split) <;> simp

@[simp] theorem placeStart_kept (req : Bytes) (t0 shown : Time) (s : State) :
    (placeStart req t0 shown s).kept = s.kept := by
  unfold placeStart
  split
  · simp
  · rename_i h
    simp [restoreRetained_kept _ _ _ h]

@[simp] theorem chooseStart_kept (req : Bytes) (s : State) : (chooseStart req s).kept = s.kept := by
  unfold chooseStart
  (repeat' split) <;> simp

@[simp] theorem refuseStart_kept (req : Bytes) (code : Nat) (s : State) : (refuseStart req code s).kept = s.kept := by
  unfold refuseStart
  (repeat' split) <;> simp

@[simp] theorem startLoaded_kept (req : Bytes) (s : State) : (startLoaded req s).kept = s.kept := by
  unfold startLoaded
  (repeat' split) <;> simp

@[simp] theorem startJob_kept (req : Bytes) (window : WindowInput) (carried : Bytes) (s : State) :
    (startJob req window carried s).kept = s.kept := by
  simp only [startJob]
  repeat' split
  all_goals simp

@[simp] theorem forwardStart_kept (req : Bytes) (t0 : Nat) (s : State) : (forwardStart req t0 s).kept = s.kept := by
  unfold forwardStart
  (repeat' split) <;> simp

@[simp] theorem ringDecision_kept (digests : List Bytes) (s : State) : (ringDecision digests s).kept = s.kept := by
  unfold ringDecision
  (repeat' split) <;> simp

@[simp] theorem forwardRequest_kept (req : Bytes) (s : State) : (forwardRequest req s).kept = s.kept := by
  unfold forwardRequest
  (repeat' split) <;> simp

@[simp] theorem noteEnd_kept (s : State) : (noteEnd s).kept = s.kept := by
  unfold noteEnd
  (repeat' split) <;> simp

@[simp] theorem applyStop_kept (reason : GapReason) (s : State) : (applyStop reason s).kept = s.kept := by
  unfold applyStop
  (repeat' split) <;> simp

@[simp] theorem noteKeys_kept (mask : Nat) (s : State) : (noteKeys mask s).kept = s.kept := by
  unfold noteKeys
  (repeat' split) <;> simp

@[simp] theorem noteSplit_kept (forced : Bool) (s : State) : (noteSplit forced s).kept = s.kept := by
  unfold noteSplit
  (repeat' split) <;> simp

@[simp] theorem takeRecord_kept (s : State) : (takeRecord s).kept = s.kept := by
  unfold takeRecord
  (repeat' split) <;> simp

@[simp] theorem inputRecord_kept (r : Bytes) (payloads : List (Option Bytes)) (s : State) :
    (inputRecord r payloads s).kept = s.kept := by
  unfold inputRecord
  (repeat' split) <;> simp

@[simp] theorem writePointer_kept (n : Nat) (value : Nat) (after : State → State) (s : State) (hafter : ∀ u,
    (after u).kept = u.kept) :
    (writePointer n value after s).kept = s.kept := by
  unfold writePointer
  (repeat' split) <;> simp [hafter]

@[simp] theorem afterRoom_kept (s : State) : (afterRoom s).kept = s.kept := by
  unfold afterRoom
  (repeat' split) <;> simp

@[simp] theorem arriveRecords_kept (s : State) : (arriveRecords s).kept = s.kept := by
  unfold arriveRecords
  exact kept_mk ..

@[simp] theorem enableRing_kept (n : Nat) (s : State) : (enableRing n s).kept = s.kept := by
  unfold enableRing
  (repeat' split) <;> simp

@[simp] theorem disableRing_kept (n : Nat) (s : State) : (disableRing n s).kept = s.kept := by
  unfold disableRing
  (repeat' split) <;> simp

@[simp] theorem complete_kept (c : Completion) (data : Bytes) (s : State) : (complete c data s).kept = s.kept := by
  unfold complete
  (repeat' split) <;> simp

@[simp] theorem readThrough_kept (f : State → Bytes × State) (s : State) (hf : ∀ u, (f u).2.kept = u.kept) :
    (readThrough f s).kept = s.kept := by
  unfold readThrough
  split <;> simp [hf]

@[simp] theorem readLow_kept (off value : Nat) (s : State) : (readLow off value s).2.kept = s.kept := by
  simp only [readLow]
  (repeat' split) <;> first | rfl | (simp; done)

@[simp] theorem readHigh_kept (off value : Nat) (s : State) : (readHigh off value s).2.kept = s.kept := by
  simp only [readHigh]
  (repeat' split) <;> first | rfl | (simp; done)

@[simp] theorem readErrWord_kept (n w : Nat) (s : State) : (readErrWord n w s).2.kept = s.kept := by
  simp only [readErrWord]
  (repeat' split) <;> first | rfl | (simp; done)

@[simp] theorem readBarWord_kept (off : Nat) (s : State) : (readBarWord off s).2.kept = s.kept := by
  simp only [readBarWord]
  (repeat' split) <;> first | rfl | (simp; done)

@[simp] theorem readBar0_kept (off size : Nat) (s : State) : (readBar0 off size s).2.kept = s.kept := by
  simp only [readBar0]
  (repeat' split) <;> first | rfl | (simp; done)

@[simp] theorem badAccess_kept (off : Nat) (size : Nat) (write : Bool) (s : State) :
    (badAccess off size write s).kept = s.kept := by
  unfold badAccess
  (repeat' split) <;> simp

@[simp] theorem writeTable_kept (off : Nat) (data : Bytes) (s : State) : (writeTable off data s).kept = s.kept := by
  unfold writeTable
  (repeat' split) <;> simp

@[simp] theorem writeWindow_kept (off : Nat) (data : Bytes) (s : State) : (writeWindow off data s).kept = s.kept := by
  unfold writeWindow
  (repeat' split) <;> simp

@[simp] theorem configurationWord_kept (offset : Nat) (s : State) : (configurationWord offset s).2.kept = s.kept := by
  simp only [configurationWord, State.free]
  (repeat' split) <;> first | rfl | (simp; done)

@[simp] theorem resetStop_kept (s : State) : (resetStop s).kept = s.kept := by
  unfold resetStop
  (repeat' split) <;> simp

@[simp] theorem beginFlr_kept (s : State) : (beginFlr s).kept = s.kept := by
  unfold beginFlr
  (repeat' split) <;> simp

@[simp] theorem linkDown_kept (s : State) : (linkDown s).kept = s.kept := by
  unfold linkDown
  (repeat' split) <;> simp

@[simp] theorem notePort_kept (n : Nat) (code : Nat) (s : State) : (notePort n code s).kept = s.kept := by
  unfold notePort
  (repeat' split) <;> simp

@[simp] theorem portDown_kept (n : Nat) (lane : Option Nat) (s : State) : (portDown n lane s).kept = s.kept := by
  unfold portDown
  (repeat' split) <;> simp

@[simp] theorem takeHeader_kept (n : Nat) (f : Bytes) (s : State) : (takeHeader n f s).kept = s.kept := by
  unfold takeHeader
  (repeat' split) <;> simp

@[simp] theorem passOn_kept (n : Nat) (f : Bytes) (s : State) : (passOn n f s).kept = s.kept := by
  unfold passOn
  (repeat' split) <;> simp

@[simp] theorem hear_kept (n errors : Nat) (f : Bytes) (s : State) : (hear n errors f s).2.kept = s.kept := by
  simp [hear]

@[simp] theorem deliverFlit_kept (n : Nat) (f : Bytes) (fwd : State → Bool) (act : State → State) (s : State)
    (hact : ∀ u, (act u).kept = u.kept) :
    (deliverFlit n f fwd act s).kept = s.kept := by
  unfold deliverFlit
  (repeat' split) <;> simp [hact]

@[simp] theorem receive_kept (n op : Nat) (f : Bytes) (errors : Nat) (fwd : State → Bool) (act : State → State) (s : State)
    (hact : ∀ u, (act u).kept = u.kept) : (receive n op f errors fwd act s).kept = s.kept := by
  have hh := hear_kept n errors f s
  simp only [receive]
  repeat' split
  all_goals first | rfl | (simp [hact, hh]; done)

@[simp] theorem hearPlain_kept (n errors : Nat) (f : Bytes) (wanted : Bool) (act : State → State) (s : State)
    (hact : ∀ u, (act u).kept = u.kept) : (hearPlain n errors f wanted act s).kept = s.kept := by
  have hh := hear_kept n errors f s
  simp only [hearPlain]
  repeat' split
  all_goals first | rfl | (simp [hact, hh]; done)

@[simp] theorem sendProbe_kept (l : List Nat) (s : State) : (sendProbe l s).kept = s.kept := by
  unfold sendProbe
  (repeat' split) <;> simp

@[simp] theorem bringUpPort_kept (n : Nat) (s : State) : (bringUpPort n s).kept = s.kept := by
  unfold bringUpPort
  (repeat' split) <;> simp

@[simp] theorem takeIdent_kept (n : Nat) (f : Bytes) (delayNs : Nat) (s : State) :
    (takeIdent n f delayNs s).kept = s.kept := by
  unfold takeIdent
  (repeat' split) <;> simp

@[simp] theorem closeRing_kept (l : List Nat) (s : State) : (closeRing l s).kept = s.kept := by
  unfold closeRing
  (repeat' split) <;> simp

@[simp] theorem tryClose_kept (s : State) : (tryClose s).kept = s.kept := by
  unfold tryClose
  (repeat' split) <;> simp

@[simp] theorem takeProbe_kept (f : Bytes) (s : State) : (takeProbe f s).kept = s.kept := by
  unfold takeProbe
  (repeat' split) <;> simp

@[simp] theorem trainingFlit_kept (n : Nat) (f : Bytes) (errors : Nat) (delayNs : Nat) (s : State) :
    (trainingFlit n f errors delayNs s).kept = s.kept := by
  unfold trainingFlit
  (repeat' split) <;> simp

@[simp] theorem tickDelay_kept (n hops : Nat) (s : State) : (tickDelay n hops s).2.kept = s.kept := by
  unfold tickDelay
  generalize List.range hops = l
  generalize ns (s.port n).delayNs = d
  induction l generalizing s d with
  | nil => rfl
  | cons x xs ih => rw [List.foldl_cons]; exact (ih _ _).trans rfl

@[simp] theorem takeTick_kept (n : Nat) (f : Bytes) (s : State) : (takeTick n f s).kept = s.kept := by
  unfold takeTick
  simp only []
  split <;> simp

@[simp] theorem takeReady_kept (f : Bytes) (s : State) : (takeReady f s).kept = s.kept := by
  unfold takeReady
  (repeat' split) <;> simp

@[simp] theorem takeAbortFlit_kept (f : Bytes) (s : State) : (takeAbortFlit f s).kept = s.kept := by
  unfold takeAbortFlit
  (repeat' split) <;> simp

@[simp] theorem adoptTick_kept (c : Option Nat) (s : State) : (adoptTick c s).kept = s.kept := by
  unfold adoptTick
  split
  · rfl
  · simp only []
    split
    · rfl
    · split
      · simp
      · split
        · rename_i h; rw [restoreCheckpoint_kept _ _ _ _ h]; simp
        · simp

@[simp] theorem ringRestored_kept (s : State) : (ringRestored s).kept = s.kept := by
  unfold ringRestored
  (repeat' split) <;> simp

@[simp] theorem takeResume_kept (f : Bytes) (s : State) : (takeResume f s).kept = s.kept := by
  unfold takeResume
  (repeat' split) <;> simp

@[simp] theorem takeStart_kept (b : Bytes) (s : State) : (takeStart b s).kept = s.kept := by
  unfold takeStart
  (repeat' split) <;> simp

@[simp] theorem takeRequest_kept (f : Bytes) (s : State) : (takeRequest f s).kept = s.kept := by
  unfold takeRequest
  repeat' (first | split | (simp ))

@[simp] theorem writeOut_kept (cx : Access) (o : Out) (s : State) : (writeOut cx o s).kept = s.kept := by
  unfold writeOut
  (repeat' split) <;> simp

@[simp] theorem signal_kept (ev : Nat) (core : Nat) (idx : Nat) (s : State) : (signal ev core idx s).kept = s.kept := by
  unfold signal
  (repeat' split) <;> simp

@[simp] theorem requestEdge_kept (core : Nat) (s : State) : (requestEdge core s).kept = s.kept := by
  unfold requestEdge
  (repeat' split) <;> simp

@[simp] theorem takeEdge_kept (core : Nat) (s : State) : (takeEdge core s).kept = s.kept := by
  unfold takeEdge
  (repeat' split) <;> simp

@[simp] theorem waitIssue_kept (core : Nat) (c : Bytes) (s : State) : (waitIssue core c s).kept = s.kept := by
  unfold waitIssue
  (repeat' split) <;> simp

@[simp] theorem startGuest_kept (g : Guest) (s : State) : (startGuest s g).kept = s.kept := by
  unfold startGuest
  (repeat' split) <;> simp

@[simp] theorem startGuests_kept (s : State) : (startGuests s).kept = s.kept := by
  unfold startGuests
  (repeat' split) <;> simp

@[simp] theorem addGuest_kept (host : Nat) (core : Nat) (place : Nat) (c : Bytes) (arbiter : Bool) (s : State) :
    (addGuest host core place c arbiter s).kept = s.kept := by
  unfold addGuest
  (repeat' split) <;> simp

@[simp] theorem selectCirrus_kept (core place : Nat) (c : Bytes) (agreed : Option (Nat × Nat)) (s : State) :
    (selectCirrus core place c agreed s).2.kept = s.kept := by
  unfold selectCirrus
  (repeat' split) <;> simp

@[simp] theorem markIssued_kept (core : Nat) (place : Nat) (s : State) : (markIssued core place s).kept = s.kept := by
  unfold markIssued
  (repeat' split) <;> simp

@[simp] theorem chargeTensor_kept (core i : Nat) (s : State) : (chargeTensor core s i).kept = s.kept := by
  simp only [chargeTensor]
  split <;> simp

@[simp] theorem launch_kept (core place : Nat) (c : Bytes) (cx : Access) (w : Work) (complete : Bool) (s : State) :
    (launch core place c cx w complete s).kept = s.kept := by
  unfold launch
  simp only []
  split <;> simp

@[simp] theorem applyAtomic_kept (op : AtomicOp) (wide : Bool) (addr : Nat) (v : Nat) (cmp : Nat) (result : Option
    (Space × Nat)) (s : State) :
    (applyAtomic op wide addr v cmp result s).kept = s.kept := by
  unfold applyAtomic
  (repeat' split) <;> simp

@[simp] theorem contribute_kept (core : Nat) (idx : Nat) (o : OrderedSlot) (s : State) :
    (contribute core idx o s).kept = s.kept := by
  unfold contribute
  (repeat' split) <;> simp

@[simp] theorem applyStaged_kept (r : Run) (e : Staged) (s : State) : (applyStaged r e s).kept = s.kept := by
  unfold applyStaged
  (repeat' split) <;> simp

@[simp] theorem commitOne_kept (r : Run) (s : State) : (commitOne r s).kept = s.kept := by
  unfold commitOne
  (repeat' split) <;> simp

@[simp] theorem commitRun_kept (r : Run) (s : State) : (commitRun r s).kept = s.kept := by
  unfold commitRun
  (repeat' split) <;> simp

@[simp] theorem commitIfReady_kept (r : Run) (s : State) : (commitIfReady r s).kept = s.kept := by
  unfold commitIfReady
  (repeat' split) <;> simp

@[simp] theorem commitCovered_kept (r : Run) (s : State) : (commitCovered r s).kept = s.kept := by
  unfold commitCovered
  apply foldl_kept
  intro s p
  split <;> simp

@[simp] theorem cirrusLost_kept (r : Run) (s : State) : (cirrusLost r s).kept = s.kept := by
  unfold cirrusLost
  (repeat' split) <;> simp

@[simp] theorem finishRun_kept (r : Run) (err : BitVec 64) (s : State) : (finishRun r err s).kept = s.kept := by
  unfold finishRun
  repeat' (first | split | (simp ))

@[simp] theorem finish_kept (core : Nat) (idx : Nat) (err : BitVec 64) (s : State) :
    (finish core idx err s).kept = s.kept := by
  unfold finish
  (repeat' split) <;> simp

@[simp] theorem deadlinePassed_kept (core : Nat) (idx : Nat) (s : State) :
    (deadlinePassed core idx s).kept = s.kept := by
  unfold deadlinePassed
  (repeat' split) <;> simp

@[simp] theorem beginArbitration_kept (r : Run) (d0 : Nat × Nat) (d1 : Nat × Nat) (s : State) :
    (beginArbitration r d0 d1 s).kept = s.kept := by
  unfold beginArbitration
  (repeat' split) <;> simp

@[simp] theorem endGuests_kept (r : Run) (s : State) : (endGuests r s).kept = s.kept := by
  unfold endGuests
  (repeat' split) <;> simp

@[simp] theorem compareDigests_kept (core : Nat) (idx : Nat) (err : BitVec 64) (s : State) :
    (compareDigests core idx err s).kept = s.kept := by
  unfold compareDigests
  (repeat' split) <;> simp

@[simp] theorem arbitrate_kept (core : Nat) (idx : Nat) (err : BitVec 64) (s : State) :
    (arbitrate core idx err s).kept = s.kept := by
  unfold arbitrate
  (repeat' split) <;> simp

@[simp] theorem parityFault_kept (core : Nat) (idx : Nat) (duplicate : Bool) (s : State) :
    (parityFault core idx duplicate s).kept = s.kept := by
  unfold parityFault
  (repeat' split) <;> simp

@[simp] theorem control_kept (op : Nat) (core : Nat) (s : State) : (control op core s).kept = s.kept := by
  unfold control
  repeat' (first | split | (simp ))

@[simp] theorem setTransfer_kept (t : Transfer) (s : State) : (setTransfer t s).kept = s.kept := by
  unfold setTransfer
  (repeat' split) <;> simp

@[simp] theorem sendMessage_kept (op : Nat) (c : Bytes) (dst : Nat) (b : Bytes) (s : State) :
    (sendMessage op c dst b s).kept = s.kept := by
  unfold sendMessage
  (repeat' split) <;> simp

@[simp] theorem sendCollControl_kept (op : Nat) (c : Bytes) (dst : Nat) (payload : Bytes) (s : State) :
    (sendCollControl op c dst payload s).kept = s.kept := by
  unfold sendCollControl
  (repeat' split) <;> simp

@[simp] theorem setLocalDone_kept (c : Bytes) (s : State) : (setLocalDone c s).kept = s.kept := by
  unfold setLocalDone
  (repeat' split) <;> simp

@[simp] theorem mmFinish_kept (core : Nat) (c : Bytes) (s : State) : (mmFinish core c s).kept = s.kept := by
  unfold mmFinish
  repeat' (first | split | (simp ))

@[simp] theorem moveLocal_kept (core : Nat) (c : Bytes) (s : State) : (moveLocal core c s).kept = s.kept := by
  unfold moveLocal
  (repeat' split) <;> simp

@[simp] theorem progressSend_kept (core : Nat) (c : Bytes) (q : Nat × Nat) (s : State) :
    (progressSend core c q s).kept = s.kept := by
  unfold progressSend
  (repeat' split) <;> simp

theorem foldl_pair_kept {α β : Type} (f : State × β → α → State × β) (l : List α) (p : State × β)
    (h : ∀ p x, (f p x).1.kept = p.1.kept) : (l.foldl f p).1.kept = p.1.kept := by
  induction l generalizing p with
  | nil => rfl
  | cons x xs ih => rw [List.foldl_cons, ih, h]

@[simp] theorem landData_kept (core : Nat) (c : Bytes) (q : Nat × Nat) (s : State) :
    (landData core c q s).kept = s.kept := by
  unfold landData
  simp only []
  split
  · simp
  · rw [foldl_pair_kept]; intro p x; simp

@[simp] theorem progressReceive_kept (core : Nat) (c : Bytes) (q : Nat × Nat) (s : State) :
    (progressReceive core c q s).kept = s.kept := by
  unfold progressReceive
  (repeat' split) <;> simp

@[simp] theorem progress_kept (r : Run) (s : State) : (progress r s).kept = s.kept := by
  unfold progress
  (repeat' split) <;> simp

@[simp] theorem chargeLink_kept (i : Nat) (s : State) : (chargeLink s i).kept = s.kept := by
  unfold chargeLink
  (repeat' split) <;> simp

@[simp] theorem takeClear_kept (f : Bytes) (s : State) : (takeClear f s).kept = s.kept := by
  unfold takeClear
  repeat' (first | split | (simp ))

@[simp] theorem takeColl_kept (change : Transfer → Transfer) (f : Bytes) (s : State) :
    (takeColl change f s).kept = s.kept := by
  unfold takeColl
  (repeat' split) <;> simp

@[simp] theorem setDynamic_kept (target : Target) (address : BitVec 7) (s : State) :
    (setDynamic target address s).kept = s.kept := by
  unfold setDynamic
  (repeat' split) <;> simp

@[simp] theorem answer_kept (target : Target) (b : Bytes) (s : State) : (answer target b s).kept = s.kept := by
  unfold answer
  (repeat' split) <;> simp

@[simp] theorem dropRecord_kept (s : State) : (dropRecord s).kept = s.kept := by
  unfold dropRecord
  (repeat' split) <;> simp

@[simp] theorem dawnRaise_kept (code : Nat) (arg : Nat) (s : State) : (dawnRaise code arg s).kept = s.kept := by
  unfold dawnRaise
  (repeat' split) <;> simp

@[simp] theorem dawnEclipse_kept (code : Nat) (arg : Nat) (s : State) : (dawnEclipse code arg s).kept = s.kept := by
  unfold dawnEclipse
  (repeat' split) <;> simp

@[simp] theorem dawnStep_kept (f : State → State) (s : State) (hf : ∀ u, (f u).kept = u.kept) :
    (dawnStep f s).kept = s.kept := by
  unfold dawnStep
  (repeat' split) <;> simp [hf]

@[simp] theorem slotVerifies_kept (kind slot : Nat) (s : State) : (slotVerifies kind slot s).2.kept = s.kept := by
  simp only [slotVerifies]
  generalize (!verifyImage _ _ _ _) = a
  generalize (kind == 1 && _) = b
  cases a <;> cases b <;> simp

@[simp] theorem recoveryBoot_kept (puf : Bytes) (s : State) : (recoveryBoot puf s).kept = s.kept := by
  unfold recoveryBoot
  (repeat' split) <;> simp

@[simp] theorem checkSafety_kept (s : State) : (checkSafety s).kept = s.kept := by
  unfold checkSafety
  (repeat' split) <;> simp

@[simp] theorem deriveIdentity_kept (puf : Bytes) (s : State) : (deriveIdentity puf s).kept = s.kept := by
  unfold deriveIdentity
  (repeat' split) <;> simp

@[simp] theorem checkCounters_kept (ok : Bool) (s : State) : (checkCounters ok s).kept = s.kept := by
  unfold checkCounters
  (repeat' split) <;> simp

@[simp] theorem retried_kept (step : Nat) (failures : Nat) (code : Nat) (arg : Nat) (s : State) :
    (retried step failures code arg s).kept = s.kept := by
  unfold retried
  (repeat' split) <;> simp

@[simp] theorem trainMemory_kept (failures : Nat) (s : State) : (trainMemory failures s).kept = s.kept := by
  unfold trainMemory
  rw [dawnStep_kept]
  · simp
  · intro u; simp

@[simp] theorem admitPlan_kept (cx : LoadContext) (raws : List Bytes) (i : Nat) (s : State) :
    (admitPlan cx raws s i).kept = s.kept := by
  unfold admitPlan
  (repeat' split) <;> simp

@[simp] theorem admitPlans_kept (s : State) : (admitPlans s).kept = s.kept := by
  unfold admitPlans
  (repeat' split) <;> simp

@[simp] theorem copyBody_kept (s : State) : (copyBody s).kept = s.kept := by
  unfold copyBody
  (repeat' split) <;> simp

@[simp] theorem copyContents_kept (s : State) : (copyContents s).kept = s.kept := by
  unfold copyContents
  (repeat' split) <;> simp

@[simp] theorem pinFill_kept (entry : Nat) (s : State) : (pinFill s entry).kept = s.kept := by
  unfold pinFill
  (repeat' split) <;> simp

@[simp] theorem fillPinned_kept (s : State) : (fillPinned s).kept = s.kept := by
  unfold fillPinned
  (repeat' split) <;> simp

@[simp] theorem loadTables_kept (ok : Bool) (s : State) : (loadTables ok s).kept = s.kept := by
  unfold loadTables
  (repeat' split) <;> simp

@[simp] theorem newTrackers_kept (s : State) : (newTrackers s).kept = s.kept := by
  unfold newTrackers
  (repeat' split) <;> simp

@[simp] theorem loadPlans_kept (tablesOk : Bool) (s : State) : (loadPlans tablesOk s).kept = s.kept := by
  unfold loadPlans
  (repeat' split) <;> simp

@[simp] theorem readHistory_kept (bad : Bool) (s : State) : (readHistory bad s).kept = s.kept := by
  unfold readHistory
  (repeat' split) <;> simp

@[simp] theorem judgeHistory_kept (bad : Bool) (s : State) : (judgeHistory bad s).kept = s.kept := by
  unfold judgeHistory
  (repeat' split) <;> simp

@[simp] theorem formRing_kept (i : DawnInput) (s : State) : (formRing i s).kept = s.kept := by
  unfold formRing
  (repeat' split) <;> simp

@[simp] theorem powerRails_kept (ga : BitVec 4) (s : State) : (powerRails ga s).kept = s.kept := by
  unfold powerRails
  (repeat' split) <;> simp

@[simp] theorem drawKey_kept (s : State) : (drawKey s).kept = s.kept := rfl

@[simp] theorem reportTrips_kept (s : State) : (reportTrips s).kept = s.kept := by
  simp only [reportTrips, kept_mk]
  rw [foldl_kept]
  intro s e
  split <;> simp

@[simp] theorem missedRecords_kept (n : Nat) (s : State) : (missedRecords n s).kept = s.kept := by
  induction n generalizing s with
  | zero => rfl
  | succ n ih => unfold missedRecords; (repeat' split) <;> simp [ih]

@[simp] theorem passWarm_kept (s : State) : (passWarm s).kept = s.kept := by
  unfold passWarm
  repeat' (first | split | (simp ))

@[simp] theorem warmDawn_kept (selfTestOk : Bool) (tablesOk : Bool) (s : State) :
    (warmDawn selfTestOk tablesOk s).kept = s.kept := by
  unfold warmDawn
  (repeat' split) <;> simp

/-! ### Operations that write the configuration flash -/

/-- What every operation keeps, those on the flash included: the queue and the clock stand, and no anti-rollback counter
falls. -/
structure Advances (s t : State) : Prop where
  pending : t.pending = s.pending
  now : t.now = s.now
  fwSvn : s.flash.fwSvn ≤ t.flash.fwSvn
  planSvn : s.flash.planSvn ≤ t.flash.planSvn
  rootFloor : s.flash.rootFloor ≤ t.flash.rootFloor

theorem Advances.refl (s : State) : Advances s s :=
  ⟨rfl, rfl, Nat.le_refl _, Nat.le_refl _, Nat.le_refl _⟩

theorem Advances.trans {s t u : State} (a : Advances s t) (b : Advances t u) : Advances s u :=
  ⟨b.pending.trans a.pending, b.now.trans a.now, Nat.le_trans a.fwSvn b.fwSvn, Nat.le_trans a.planSvn b.planSvn,
    Nat.le_trans a.rootFloor b.rootFloor⟩

/-- An operation that keeps the queue, the clock and the flash keeps all that Advances asks. -/
theorem Advances.of_kept {s t : State} (h : t.kept = s.kept) : Advances s t := by
  simp only [State.kept, Prod.mk.injEq] at h
  obtain ⟨hp, hn, hf⟩ := h
  exact ⟨hp, hn, Nat.le_of_eq (by rw [hf]), Nat.le_of_eq (by rw [hf]), Nat.le_of_eq (by rw [hf])⟩

/-- A further operation that keeps all three adds nothing. -/
theorem Advances.then_kept {s t u : State} (a : Advances s t) (h : u.kept = t.kept) : Advances s u :=
  a.trans (.of_kept h)

theorem writeBoot_advances (r : BootRecord) (s : State) : Advances s (writeBoot r s) := by
  unfold writeBoot
  simp only []
  split <;> exact ⟨rfl, rfl, Nat.le_refl _, Nat.le_refl _, Nat.le_refl _⟩

theorem putSlot_counters (f : Flash) (kind slot : Nat) (img : Bytes) :
    (putSlot f kind slot img).fwSvn = f.fwSvn ∧ (putSlot f kind slot img).planSvn = f.planSvn
      ∧ (putSlot f kind slot img).rootFloor = f.rootFloor := by
  unfold putSlot
  split <;> exact ⟨rfl, rfl, rfl⟩

theorem putSlot_advances (s : State) (n kind slot : Nat) (img : Bytes) :
    Advances s { s with freeCtr := n, flash := putSlot s.flash kind slot img } := by
  obtain ⟨a, b, c⟩ := putSlot_counters s.flash kind slot img
  exact ⟨rfl, rfl, Nat.le_of_eq a.symm, Nat.le_of_eq b.symm, Nat.le_of_eq c.symm⟩

theorem historyWrite_advances (ok : Bool) (s : State) : Advances s (historyWrite ok s) := by
  simp only [historyWrite]
  split
  · split
    · exact ⟨rfl, rfl, Nat.le_refl _, Nat.le_refl _, Nat.le_refl _⟩
    · refine Advances.then_kept ?_ (raise_kept ..)
      exact ⟨rfl, rfl, Nat.le_refl _, Nat.le_refl _, Nat.le_refl _⟩
  · exact .refl s

theorem counterFailure_advances (s : State) : Advances s (counterFailure s) := .of_kept (counterFailure_kept s)

/-- Serving a request advances if its work does. -/
theorem serve_advances (op : Nat) (req : Bytes) (checks : List (Bool × Nat)) (work : State → State) (s : State)
    (h : ∀ u, Advances u (work u)) : Advances s (serve op req checks work s) := by
  unfold serve
  split
  · simp only []
    split
    · exact .of_kept (by simp)
    · exact (Advances.of_kept (pickup_kept s)).trans (h _)
  · exact .refl s

theorem programSlot_advances (req : Bytes) (kind : Nat) (img : Bytes) (flashOk : Bool) (s : State) :
    Advances s (programSlot req kind img flashOk s) := by
  simp only [programSlot]
  generalize (if (kind == 0) = true then (bootRecord s.flash).pending.1 else (bootRecord s.flash).pending.2) = was
  generalize hv : (if was = true then writeBoot _ s else s) = v
  have h1 : Advances s v := by
    rw [← hv]
    split
    · exact writeBoot_advances ..
    · exact .refl s
  split
  · exact (h1.trans (putSlot_advances ..)).then_kept (respond_kept ..)
  · exact ((h1.trans (putSlot_advances ..)).trans (writeBoot_advances ..)).then_kept (respond_kept ..)

theorem stageImage_advances (req : Bytes) (flashOk authOk : Bool) (s : State) :
    Advances s (stageImage req flashOk authOk s) := by
  unfold stageImage
  apply serve_advances
  intro u
  refine Advances.trans (.of_kept (readRequest_kept (le req 16 8) (le req 24 8) u)) ?_
  simp only []
  generalize readRequest (le req 16 8) (le req 24 8) u = read
  repeat' split
  all_goals first | exact .of_kept (by simp) | exact programSlot_advances ..

theorem writeMarks_advances (kind : Nat) (p t : Bool) (s : State) : Advances s (writeMarks kind p t s) :=
  writeBoot_advances _ s

theorem beginTrial_advances (kind : Nat) (s : State) : Advances s (beginTrial kind s) := by
  unfold beginTrial
  split
  · exact writeMarks_advances ..
  · exact (writeMarks_advances kind false false s).then_kept (dawnRaise_kept ..)
  · exact .refl s

theorem activeSlot_kept (kind : Nat) (other : Bool) (s : State) : (activeSlot kind other s).2.kept = s.kept := by
  simp only [activeSlot]
  split
  · exact slotVerifies_kept ..
  · split
    · split
      · exact (dawnRaise_kept ..).trans ((slotVerifies_kept ..).trans (slotVerifies_kept ..))
      · exact (slotVerifies_kept ..).trans (slotVerifies_kept ..)
    · exact slotVerifies_kept ..

theorem chooseSlot_advances (kind : Nat) (trial : Bool) (s : State) : Advances s (chooseSlot kind trial s).2 := by
  simp only [chooseSlot]
  split
  · have h1 := slotVerifies_kept kind (1 - (bootRecord s.flash).slot kind) s
    split
    · rename_i heq; rw [heq] at h1; exact .of_kept h1
    · rename_i u heq
      rw [heq] at h1
      exact ((Advances.of_kept h1).trans (writeMarks_advances kind false false u)).then_kept
        ((activeSlot_kept ..).trans (dawnRaise_kept ..))
  · exact .of_kept (activeSlot_kept ..)

theorem pickFirmware_advances (trial : Bool) (puf : Bytes) (s : State) : Advances s (pickFirmware trial puf s) := by
  have h := chooseSlot_advances 0 trial s
  unfold pickFirmware
  split
  · rename_i heq; rw [heq] at h; exact h.then_kept (recoveryBoot_kept ..)
  · rename_i heq; rw [heq] at h; exact h.then_kept (kept_mk ..)

theorem pickPlanImage_advances (trial : Bool) (s : State) : Advances s (pickPlanImage trial s) := by
  have h := chooseSlot_advances 1 trial s
  unfold pickPlanImage
  split
  · rename_i heq; rw [heq] at h; exact h.then_kept (dawnRaise_kept ..)
  · rename_i heq; rw [heq] at h; exact h.then_kept (kept_mk ..)

theorem dawnStep_advances (f : State → State) (s : State) (h : ∀ u, Advances u (f u)) : Advances s (dawnStep f s) := by
  unfold dawnStep
  split
  · exact h s
  · exact .refl s

theorem bootImages_advances (puf : Bytes) (s : State) : Advances s (bootImages puf s) := by
  unfold bootImages
  simp only []
  exact ((((beginTrial_advances 0 s).trans (beginTrial_advances 1 _)).trans (pickFirmware_advances ..)).trans
    (dawnStep_advances _ _ fun u => pickPlanImage_advances _ u)).then_kept (dawnStep_kept _ _ checkSafety_kept)

theorem advanceBoot_advances (s : State) : Advances s (advanceBoot s) := writeBoot_advances ..

theorem raiseCounters_advances (s : State) : Advances s (raiseCounters s) := by
  refine ⟨rfl, rfl, Nat.le_max_left .., ?_, Nat.le_max_left ..⟩
  simp only [raiseCounters]
  split
  · exact Nat.le_refl _
  · exact Nat.le_max_left ..

theorem passDawn_advances (s : State) : Advances s (passDawn s) :=
  ((advanceBoot_advances s).trans (raiseCounters_advances _)).then_kept (kept_mk ..)

theorem bringUp_advances (i : DawnInput) (s : State) : Advances s (bringUp i s) := by
  unfold bringUp
  simp only []
  refine Advances.trans ?_ (dawnStep_advances _ _ passDawn_advances)
  refine Advances.then_kept ?_ (dawnStep_kept _ _ (formRing_kept _))
  refine Advances.then_kept ?_ (dawnStep_kept _ _ (judgeHistory_kept _))
  refine Advances.then_kept ?_ (dawnStep_kept _ _ (loadPlans_kept _))
  refine Advances.then_kept ?_ (dawnStep_kept _ _ (retried_kept _ _ _ _))
  refine Advances.then_kept ?_ (dawnStep_kept _ _ (trainMemory_kept _))
  refine Advances.then_kept ?_ (dawnStep_kept _ _ (checkCounters_kept _))
  refine Advances.then_kept ?_ (dawnStep_kept _ _ (deriveIdentity_kept _))
  refine Advances.trans ?_ (bootImages_advances ..)
  exact .of_kept (by simp)

theorem coldDawn_advances (i : DawnInput) (s : State) : Advances s (coldDawn i s) := by
  unfold coldDawn
  split
  · exact .refl s
  · split
    · exact .of_kept (trip_kept ..)
    · simp only []
      split
      · exact (Advances.of_kept (reportTrips_kept s)).trans (bringUp_advances i _)
      · exact (bringUp_advances i s).then_kept (kept_mk ..)

theorem dawnOverrun_advances (step : Nat) (s : State) : Advances s (dawnOverrun step s) := by
  have hf : Advances s { s with flash := flashBefore step s } := by
    unfold flashBefore
    simp only []
    have h1 := (beginTrial_advances 0 s).trans (beginTrial_advances 1 _)
    have h2 := bootImages_advances [] s
    split
    · exact .refl s
    · split
      · exact ⟨rfl, rfl, h1.fwSvn, h1.planSvn, h1.rootFloor⟩
      · exact ⟨rfl, rfl, h2.fwSvn, h2.planSvn, h2.rootFloor⟩
  unfold dawnOverrun
  split
  · simp only []
    split
    · exact hf.then_kept ((kept_mk ..).trans ((coldReset_kept _).trans (kept_mk { s with flash := flashBefore step s } ..)))
    · exact hf.then_kept ((dawnEclipse_kept ..).trans (kept_mk { s with flash := flashBefore step s } ..))
  · exact .of_kept ((kept_mk ..).trans (coldReset_kept _))
  · exact .refl s

/-! ### Issue -/

/-- A compute command that issues keeps the queue, the clock and the flash. -/
theorem issue_kept {core : Nat} {host : Bytes} {asked : Bytes → Bool} {tensors : State → Bytes → List Nat}
    {work : Access → Bytes → State → Work} {s t : State} (h : issue core host asked tensors work s = .next t) :
    t.kept = s.kept := by
  unfold issue at h
  simp only [] at h
  repeat' split at h
  all_goals first | cases h | skip
  all_goals first | rfl | simp

/-- A collective that issues keeps the queue, the clock and the flash. -/
theorem issueColl_kept {asked : Bytes → Bool} {core : Nat} {s t : State} (h : issueColl asked core s = .next t) :
    t.kept = s.kept := by
  unfold issueColl at h
  simp only [] at h
  repeat' split at h
  all_goals first | cases h | skip
  all_goals first | rfl | simp

end Sys2Proof.Machine
end

