-- ==== Sys2Proof/Laws/Memory.lean ====
section
/-! SUPPORT. The canonical form of a memory: every write keeps it, and what a byte reads as after a write. -/

namespace Sys2Proof.Machine

/-! ### Cells -/

/-- A canonical list above an address holds nothing at or below it. -/
theorem cellsRead_below (l : List Host.Cell) (b a : Nat) (h : cellsWf l (some b) = true) (hab : a ≤ b) :
    cellsRead l a = unwritten := by
  induction l generalizing b with
  | nil => rfl
  | cons c rest ih =>
    obtain ⟨x, v⟩ := c
    simp only [cellsWf, Bool.and_eq_true, decide_eq_true_eq] at h
    simp only [cellsRead]
    rw [if_neg (by omega)]
    exact ih x h.2 (by omega)

/-- A canonical list stays so under a weaker lower bound. -/
theorem cellsWf_weaken (l : List Host.Cell) (b : Nat) (lo : Option Nat) (h : cellsWf l (some b) = true)
    (hlo : ∀ x, lo = some x → x ≤ b) : cellsWf l lo = true := by
  cases l with
  | nil => rfl
  | cons c rest =>
    obtain ⟨x, v⟩ := c
    simp only [cellsWf, Bool.and_eq_true, decide_eq_true_eq] at h ⊢
    refine ⟨⟨?_, h.1.2⟩, h.2⟩
    cases lo with
    | none => rfl
    | some y => have := hlo y rfl; simp only [decide_eq_true_eq]; omega

/-- The canonical form of a list with a first cell. -/
theorem cellsWf_cons (x : Nat) (v : Byte) (rest : List Host.Cell) (lo : Option Nat) :
    cellsWf ((x, v) :: rest) lo = true ↔ (∀ b, lo = some b → b < x) ∧ v ≠ unwritten ∧ cellsWf rest (some x) = true := by
  cases lo with
  | none => simp [cellsWf]
  | some y => simp [cellsWf, and_assoc]

/-- A write keeps the canonical form. -/
theorem cellsWrite_wf (l : List Host.Cell) (a : Nat) (v : Byte) (lo : Option Nat) (h : cellsWf l lo = true)
    (hlo : ∀ x, lo = some x → x < a) : cellsWf (cellsWrite l a v) lo = true := by
  induction l generalizing lo with
  | nil =>
    simp only [cellsWrite]
    split
    · rfl
    · rename_i hv; exact (cellsWf_cons ..).2 ⟨hlo, hv, rfl⟩
  | cons c rest ih =>
    obtain ⟨b, w⟩ := c
    have hc := (cellsWf_cons ..).1 h
    simp only [cellsWrite]
    split
    · rename_i hab
      split
      · exact h
      · rename_i hv
        exact (cellsWf_cons ..).2 ⟨hlo, hv, (cellsWf_cons ..).2 ⟨fun x hx => by cases hx; exact hab, hc.2⟩⟩
    · rename_i hab
      split
      · rename_i heq
        split
        · exact cellsWf_weaken rest b lo hc.2.2 (fun x hx => Nat.le_of_lt (hc.1 x hx))
        · rename_i hv
          subst heq
          exact (cellsWf_cons ..).2 ⟨hlo, hv, hc.2.2⟩
      · rename_i hne
        exact (cellsWf_cons ..).2 ⟨hc.1, hc.2.1, ih (some b) hc.2.2 (fun x hx => by cases hx; omega)⟩

/-- What an address reads as after a write to a canonical list. -/
theorem cellsRead_write (l : List Host.Cell) (a b : Nat) (v : Byte) (lo : Option Nat) (h : cellsWf l lo = true) :
    cellsRead (cellsWrite l a v) b = if b = a then v else cellsRead l b := by
  induction l generalizing lo with
  | nil =>
    simp only [cellsWrite]
    split
    · rename_i hv; simp [cellsRead, hv]
    · simp [cellsRead]
  | cons c rest ih =>
    obtain ⟨x, w⟩ := c
    simp only [cellsWf, Bool.and_eq_true] at h
    simp only [cellsWrite]
    split
    · rename_i hax
      split
      · rename_i hv
        split
        · rename_i hb
          subst hb
          simp only [cellsRead]
          rw [if_neg (by omega), cellsRead_below rest x b h.2 (by omega), hv]
        · rfl
      · simp only [cellsRead]
    · rename_i hax
      split
      · rename_i heq
        subst heq
        split
        · rename_i hv
          simp only [cellsRead]
          split
          · rename_i hb; rw [hb, cellsRead_below rest a a h.2 (Nat.le_refl a), hv]
          · rfl
        · simp only [cellsRead]
          split <;> rfl
      · rename_i hne
        simp only [cellsRead]
        split
        · rename_i hb; rw [if_neg (by omega)]
        · exact ih (some x) h.2

end Sys2Proof.Machine

namespace Sys2Proof

/-! ### Memories -/

@[simp] theorem Memory.wf_empty : Memory.empty.wf = true := rfl

/-- A write keeps the canonical form. -/
theorem Memory.wf_write {m : Memory} (h : m.wf = true) (a : Nat) (v : Byte) : (m.write a v).wf = true :=
  Machine.cellsWrite_wf m.cells a v none h (fun _ hx => by cases hx)

/-- What an address reads as after a write. -/
theorem Memory.read_write {m : Memory} (h : m.wf = true) (a b : Nat) (v : Byte) :
    (m.write a v).read b = if b = a then v else m.read b :=
  Machine.cellsRead_write m.cells a b v none h

/-- Writing a byte string keeps the canonical form. -/
theorem Memory.wf_writeBytes {m : Memory} (h : m.wf = true) (a : Nat) (l : Bytes) : (m.writeBytes a l).wf = true := by
  induction l generalizing m a with
  | nil => exact h
  | cons v vs ih => exact ih (Memory.wf_write h a v) (a + 1)

/-- A byte outside a written string is as it was. -/
theorem Memory.read_writeBytes_outside {m : Memory} (h : m.wf = true) (a : Nat) (l : Bytes) (b : Nat)
    (hb : b < a ∨ a + l.length ≤ b) : (m.writeBytes a l).read b = m.read b := by
  induction l generalizing m a with
  | nil => rfl
  | cons v vs ih =>
    simp only [List.length_cons] at hb
    simp only [Memory.writeBytes]
    rw [ih (Memory.wf_write h a v) (a + 1) (by omega), Memory.read_write h, if_neg (by omega)]

/-- Byte i of a written string reads back. -/
theorem Memory.read_writeBytes_inside {m : Memory} (h : m.wf = true) (a : Nat) (l : Bytes) (i : Nat)
    (hi : i < l.length) : (m.writeBytes a l).read (a + i) = l[i] := by
  induction l generalizing m a i with
  | nil => simp at hi
  | cons v vs ih =>
    simp only [Memory.writeBytes]
    cases i with
    | zero =>
      show ((m.write a v).writeBytes (a + 1) vs).read a = v
      rw [Memory.read_writeBytes_outside (Memory.wf_write h a v) (a + 1) vs a (by omega),
        Memory.read_write h,
        if_pos rfl]
    | succ j =>
      have := ih (Memory.wf_write h a v) (a + 1) j (by simpa using hi)
      rw [show a + (j + 1) = a + 1 + j by omega]
      simpa using this

/-- A list of single-byte writes keeps the canonical form. -/
theorem Memory.wf_writeAll {m : Memory} (h : m.wf = true) (ws : List (Nat × Byte)) : (m.writeAll ws).wf = true := by
  induction ws generalizing m with
  | nil => exact h
  | cons w ws ih => exact ih (Memory.wf_write h w.1 w.2)

end Sys2Proof
end

