-- ==== Sys2Proof/Laws/Canonical.lean ====
section
/-! SUPPORT. Every operation keeps every memory in its canonical form: one lemma per operation. -/

namespace Sys2Proof.Machine

theorem Mems.wf_put {m : Mems} (h : m.wf = true) (sp : Space) {v : Memory} (hv : v.wf = true) :
    (m.put sp v).wf = true := by
  simp only [Mems.wf, Bool.and_eq_true] at h
  cases sp <;> simp [Mems.put, Mems.wf, *]

theorem Mems.wf_get {m : Mems} (h : m.wf = true) (sp : Space) : (m.get sp).wf = true := by
  simp only [Mems.wf, Bool.and_eq_true] at h
  cases sp <;> simp [Mems.get, h]

theorem Mems.wf_putBytes {m : Mems} (h : m.wf = true) (sp : Space) (a : Nat) (b : Bytes) :
    (m.put sp ((m.get sp).writeBytes a b)).wf = true :=
  wf_put h sp (Memory.wf_writeBytes (wf_get h sp) a b)

theorem foldl_memWf {α : Type} (f : State → α → State) (l : List α) {s : State}
    (hf : ∀ s x, s.mem.wf = true → (f s x).mem.wf = true) (h : s.mem.wf = true) : (l.foldl f s).mem.wf = true := by
  induction l generalizing s with
  | nil => exact h
  | cons x xs ih => exact ih (hf s x h)

theorem free_wf {s : State} (h : s.mem.wf = true) : s.free.2.mem.wf = true := h

theorem State.setPort_wf (n : Nat) (p : Port) {s : State} (h : s.mem.wf = true) :
    (State.setPort s n p).mem.wf = true := by
  unfold State.setPort
  try simp only []
  repeat' (first | with_reducible exact h | split)

theorem sendPlain_wf (port : Nat) (kind : Nat) (nak : Bool) (credD : Nat) (credC : Nat) (body : Bytes) {s : State}
    (h : s.mem.wf = true) :
    (sendPlain port kind nak credD credC body s).mem.wf = true := by
  unfold sendPlain
  try simp only []
  repeat' (first | with_reducible exact h | with_reducible apply State.setPort_wf | with_reducible apply emit_wf
                 | split)

theorem returnCredit_wf (port : Nat) (control : Bool) {s : State} (h : s.mem.wf = true) :
    (returnCredit port control s).mem.wf = true := by
  unfold returnCredit
  try simp only []
  repeat' (first | with_reducible exact h | with_reducible apply control_wf | with_reducible apply sendPlain_wf | split)

theorem pump_wf (port : Nat) {s : State} (h : s.mem.wf = true) : (pump port s).mem.wf = true := by
  unfold pump
  try simp only []
  repeat' (first | with_reducible exact h | with_reducible apply State.setPort_wf | with_reducible apply control_wf
                 | with_reducible apply returnCredit_wf | (with_reducible apply foldl_memWf; intro s x h) | split)

theorem sendOn_wf (port : Nat) (w : Waiting) {s : State} (h : s.mem.wf = true) : (sendOn port w s).mem.wf = true := by
  unfold sendOn
  try simp only []
  repeat' (first | with_reducible exact h | with_reducible apply State.setPort_wf | with_reducible apply pump_wf
                 | split)

theorem sendControl_wf (forward : Bool) (origin : Option Nat) (body : Bytes) {s : State} (h : s.mem.wf = true) :
    (sendControl forward origin body s).mem.wf = true := by
  unfold sendControl
  try simp only []
  repeat' (first | with_reducible exact h | with_reducible apply sendOn_wf | split)

theorem sendData_wf (forward : Bool) (origin : Option Nat) (body : Bytes) {s : State} (h : s.mem.wf = true) :
    (sendData forward origin body s).mem.wf = true := by
  unfold sendData
  try simp only []
  repeat' (first | with_reducible exact h | with_reducible apply sendOn_wf | split)

theorem sendBothWays_wf (op : Nat) (payload : Bytes) {s : State} (h : s.mem.wf = true) :
    (sendBothWays op payload s).mem.wf = true := by
  unfold sendBothWays
  try simp only []
  repeat' (first | with_reducible exact h | with_reducible apply sendControl_wf | split)

theorem sendTo_wf (op : Nat) (dst : Nat) (payload : Bytes) {s : State} (h : s.mem.wf = true) :
    (sendTo op dst payload s).mem.wf = true := by
  unfold sendTo
  try simp only []
  repeat' (first | with_reducible exact h | with_reducible apply sendControl_wf | split)

theorem reportToHead_wf (kind : Nat) (payload : Bytes) {s : State} (h : s.mem.wf = true) :
    (reportToHead kind payload s).mem.wf = true := by
  unfold reportToHead
  try simp only []
  repeat' (first | with_reducible exact h | with_reducible apply sendTo_wf | split)

theorem State.freeBytes_wf (n : Nat) {s : State} (h : s.mem.wf = true) : (s.freeBytes n).2.mem.wf = true := h

theorem State.writeMem_wf (sp : Space) (addr : Nat) (b : Bytes) {s : State} (h : s.mem.wf = true) :
    (State.writeMem s sp addr b).mem.wf = true := by
  unfold State.writeMem
  try simp only []
  repeat' (first | with_reducible exact h | with_reducible apply Mems.wf_putBytes | split)

theorem State.writeMany_wf (ws : List (Space × Nat × Bytes)) {s : State} (h : s.mem.wf = true) :
    (State.writeMany s ws).mem.wf = true := by
  unfold State.writeMany
  try simp only []
  repeat' (first | with_reducible exact h | with_reducible apply State.writeMem_wf
                 | (with_reducible apply foldl_memWf; intro s x h) | split)

theorem State.writeExchange_wf (off : Nat) (b : Bytes) {s : State} (h : s.mem.wf = true) :
    (State.writeExchange s off b).mem.wf = true := by
  unfold State.writeExchange
  try simp only []
  repeat' (first | with_reducible exact h | with_reducible apply State.writeMem_wf | split)

theorem State.setRing_wf (n : Nat) (r : Ring) {s : State} (h : s.mem.wf = true) :
    (State.setRing s n r).mem.wf = true := by
  unfold State.setRing
  try simp only []
  repeat' (first | with_reducible exact h | split)

theorem State.produce_wf (n : Nat) (b : Bytes) {s : State} (h : s.mem.wf = true) :
    (State.produce s n b).mem.wf = true := by
  unfold State.produce
  try simp only []
  repeat' (first | with_reducible exact h | with_reducible apply State.setRing_wf
                 | with_reducible apply State.writeMem_wf | split)

theorem State.produceData_wf (b : Bytes) {s : State} (h : s.mem.wf = true) : (State.produceData s b).mem.wf = true := by
  unfold State.produceData
  try simp only []
  repeat' (first | with_reducible exact h | with_reducible apply State.setRing_wf
                 | with_reducible apply State.writeMem_wf | split)

theorem State.publish_wf (vector : Option Nat) {s : State} (h : s.mem.wf = true) :
    (State.publish s vector).mem.wf = true := by
  unfold State.publish
  try simp only []
  repeat' (first | with_reducible exact h | with_reducible apply State.writeMem_wf | split)

theorem drainEvents_wf (n : Nat) {s : State} (h : s.mem.wf = true) : (drainEvents n s).mem.wf = true := by
  induction n generalizing s with
  | zero => exact h
  | succ n ih =>
    unfold drainEvents
    repeat' (first | with_reducible exact h | with_reducible apply ih | with_reducible apply State.produce_wf
                   | with_reducible apply State.publish_wf | split)

theorem emit_wf (code : Nat) (severity : Nat) (source : Nat) (arg : Nat) (oob : Bool) {s : State}
    (h : s.mem.wf = true) :
    (emit code severity source arg oob s).mem.wf = true := by
  unfold emit
  try simp only []
  repeat' (first | with_reducible exact h | with_reducible apply drainEvents_wf | split)

theorem reportDropped_wf {s : State} (h : s.mem.wf = true) : (reportDropped s).mem.wf = true := by
  unfold reportDropped
  try simp only []
  repeat' (first | with_reducible exact h | with_reducible apply emit_wf | split)

theorem raiseAs_wf (code : Nat) (alt : Bool) (detectedIn : Source) (oob : Bool) (arg : Nat) {s : State}
    (h : s.mem.wf = true) :
    (raiseAs code alt detectedIn oob arg s).mem.wf = true := by
  unfold raiseAs
  try simp only []
  repeat' (first | with_reducible exact h | with_reducible apply emit_wf | with_reducible apply reportDropped_wf
                 | with_reducible apply free_wf | split)

theorem raise_wf (code : Nat) (arg : Nat) {s : State} (h : s.mem.wf = true) : (raise code arg s).mem.wf = true := by
  unfold raise
  try simp only []
  repeat' (first | with_reducible exact h | with_reducible apply raiseAs_wf | split)

theorem raiseAll_wf (codes : List Nat) (arg : Nat) {s : State} (h : s.mem.wf = true) :
    (raiseAll codes arg s).mem.wf = true := by
  unfold raiseAll
  try simp only []
  repeat' (first | with_reducible exact h | with_reducible apply raise_wf
                 | (with_reducible apply foldl_memWf; intro s x h) | split)

theorem writeRecord_wf (r : OutRecord) {s : State} (h : s.mem.wf = true) : (writeRecord r s).mem.wf = true := by
  unfold writeRecord
  try simp only []
  repeat' (first | with_reducible exact h | with_reducible apply State.produce_wf
                 | with_reducible apply State.produceData_wf | with_reducible apply State.publish_wf
                 | with_reducible apply raise_wf | (with_reducible apply foldl_memWf; intro s x h) | split)

theorem State.setWaiting_wf (w : List OutRecord) {s : State} (h : s.mem.wf = true) :
    (State.setWaiting s w).mem.wf = true := by
  unfold State.setWaiting
  try simp only []
  repeat' (first | with_reducible exact h | split)

theorem drainRecords_wf (n : Nat) {s : State} (h : s.mem.wf = true) : (drainRecords n s).mem.wf = true := by
  induction n generalizing s with
  | zero => exact h
  | succ n ih =>
    unfold drainRecords
    split
    · exact h
    · split
      · exact ih (writeRecord_wf _ h)
      · exact h

theorem markLate_wf {s : State} (h : s.mem.wf = true) : (markLate s).mem.wf = true := by
  unfold markLate
  try simp only []
  repeat' (first | with_reducible exact h | with_reducible apply State.setWaiting_wf | split)

theorem applyWatchEnd_wf {s : State} (h : s.mem.wf = true) : (applyWatchEnd s).mem.wf = true := by
  unfold applyWatchEnd
  try simp only []
  repeat' (first | with_reducible exact h | split)

theorem drainResponses_wf (n : Nat) {s : State} (h : s.mem.wf = true) : (drainResponses n s).mem.wf = true := by
  induction n generalizing s with
  | zero => exact h
  | succ n ih =>
    unfold drainResponses
    repeat' (first | with_reducible exact h | with_reducible apply ih | with_reducible apply State.produce_wf
                   | with_reducible apply State.publish_wf | split)

theorem respond_wf (req : Bytes) (status : Nat) (body : Bytes) {s : State} (h : s.mem.wf = true) :
    (respond req status body s).mem.wf = true := by
  unfold respond
  try simp only []
  repeat' (first | with_reducible exact h | with_reducible apply drainResponses_wf | split)

theorem leaveArmed_wf {s : State} (h : s.mem.wf = true) : (leaveArmed s).mem.wf = true := by
  unfold leaveArmed
  try simp only []
  repeat' (first | with_reducible exact h | with_reducible apply applyWatchEnd_wf | split)

theorem causeDusk_wf (code : Nat) {s : State} (h : s.mem.wf = true) : (causeDusk code s).mem.wf = true := by
  unfold causeDusk
  try simp only []
  repeat' (first | with_reducible exact h | with_reducible apply leaveArmed_wf
                 | with_reducible apply reportToHead_wf | split)

theorem pushRecord_wf (r : OutRecord) {s : State} (h : s.mem.wf = true) : (pushRecord r s).mem.wf = true := by
  unfold pushRecord
  try simp only []
  repeat' (first | with_reducible exact h | with_reducible apply State.setWaiting_wf
                 | with_reducible apply causeDusk_wf | with_reducible apply drainRecords_wf
                 | with_reducible apply markLate_wf | with_reducible apply raise_wf | split)

theorem drainAll_wf {s : State} (h : s.mem.wf = true) : (drainAll s).mem.wf = true := by
  unfold drainAll
  try simp only []
  repeat' (first | with_reducible exact h | with_reducible apply drainEvents_wf
                 | with_reducible apply drainRecords_wf | with_reducible apply drainResponses_wf
                 | with_reducible apply reportDropped_wf | split)

theorem State.setEntry_wf (i : Nat) (e : DirEntry) {s : State} (h : s.mem.wf = true) :
    (State.setEntry s i e).mem.wf = true := by
  unfold State.setEntry
  try simp only []
  repeat' (first | with_reducible exact h | split)

theorem putByte_wf (cx : Access) (p : Put) {s : State} (h : s.mem.wf = true) : (putByte cx s p).mem.wf = true := by
  unfold putByte
  try simp only []
  repeat' (first | with_reducible exact h | with_reducible apply State.writeMem_wf | split)

theorem writeCode_wf (cx : Access) (t : Tensor) (ix : List Nat) (code : Nat) {s : State} (h : s.mem.wf = true) :
    (writeCode cx t ix code s).mem.wf = true := by
  unfold writeCode
  try simp only []
  repeat' (first | with_reducible exact h | with_reducible apply putByte_wf
                 | (with_reducible apply foldl_memWf; intro s x h) | split)

theorem writeScale_wf (cx : Access) (t : Tensor) (ix : List Nat) (scale : Nat) {s : State} (h : s.mem.wf = true) :
    (writeScale cx t ix scale s).mem.wf = true := by
  unfold writeScale
  try simp only []
  repeat' (first | with_reducible exact h | with_reducible apply putByte_wf | split)

theorem writeVals_wf (cx : Access) (t : Tensor) (rd : Nat → Rounding) (vals : List Val) {s : State}
    (h : s.mem.wf = true) :
    (writeVals cx t rd vals s).mem.wf = true := by
  unfold writeVals
  try simp only []
  repeat' (first | with_reducible exact h | with_reducible apply writeCode_wf | with_reducible apply writeScale_wf
                 | (with_reducible apply foldl_memWf; intro s x h) | split)

theorem writeCodes_wf (cx : Access) (t : Tensor) (codes : List Nat) {s : State} (h : s.mem.wf = true) :
    (writeCodes cx t codes s).mem.wf = true := by
  unfold writeCodes
  try simp only []
  repeat' (first | with_reducible exact h | with_reducible apply writeCode_wf
                 | (with_reducible apply foldl_memWf; intro s x h) | split)

theorem fillBuckets_wf {s : State} (h : s.mem.wf = true) : (fillBuckets s).mem.wf = true := by
  unfold fillBuckets
  try simp only []
  repeat' (first | with_reducible exact h | split)

theorem fillPartition_wf (part : Nat) {s : State} (h : s.mem.wf = true) : (fillPartition part s).mem.wf = true := by
  unfold fillPartition
  try simp only []
  repeat' (first | with_reducible exact h | (with_reducible apply foldl_memWf; intro s x h) | split)

theorem takeTokens_wf (i : Nat) (n : Nat) {s : State} (h : s.mem.wf = true) : (takeTokens i n s).mem.wf = true := by
  unfold takeTokens
  try simp only []
  repeat' (first | with_reducible exact h | (intro u h; try simp only []) | split)

theorem chargeHbm_wf (part : Nat) (addr : Nat) (n : Nat) {s : State} (h : s.mem.wf = true) :
    (chargeHbm part addr n s).mem.wf = true := by
  unfold chargeHbm
  try simp only []
  repeat' (first | with_reducible exact h | with_reducible apply takeTokens_wf | split)

theorem chargeCore_wf (core : Nat) (addr : Nat) (n : Nat) {s : State} (h : s.mem.wf = true) :
    (chargeCore core addr n s).mem.wf = true := by
  unfold chargeCore
  try simp only []
  repeat' (first | with_reducible exact h | with_reducible apply takeTokens_wf | split)

theorem checkPlanRegions_wf {s : State} (h : s.mem.wf = true) : (checkPlanRegions s).mem.wf = true := by
  unfold checkPlanRegions
  try simp only []
  repeat' (first | with_reducible exact h | with_reducible apply State.writeMem_wf | split)

theorem fetchLists_wf {s : State} (h : s.mem.wf = true) : (fetchLists s).mem.wf = true := by
  unfold fetchLists
  try simp only []
  repeat' (first | with_reducible exact h | split)

theorem refillBuffer_wf (core : Nat) {s : State} (h : s.mem.wf = true) : (refillBuffer core s).mem.wf = true := by
  unfold refillBuffer
  try simp only []
  repeat' (first | with_reducible exact h | split)

theorem writeInactive_wf (f : FunctionBank → FunctionBank) {s : State} (h : s.mem.wf = true) :
    (writeInactive f s).mem.wf = true := by
  unfold writeInactive
  try simp only []
  repeat' (first | with_reducible exact h | split)

theorem swapBanks_wf {s : State} (h : s.mem.wf = true) : (swapBanks s).mem.wf = true := by
  unfold swapBanks
  try simp only []
  repeat' (first | with_reducible exact h | split)

theorem loadBank_wf (ok : Bool) (f : FunctionBank → FunctionBank) {s : State} (h : s.mem.wf = true) :
    (loadBank ok f s).mem.wf = true := by
  unfold loadBank
  try simp only []
  repeat' (first | with_reducible exact h | with_reducible apply raise_wf | with_reducible apply swapBanks_wf
                 | with_reducible apply writeInactive_wf | split)

theorem killCompute_wf {s : State} (h : s.mem.wf = true) : (killCompute s).mem.wf = true := by
  unfold killCompute
  try simp only []
  repeat' (first | with_reducible exact h | split)

theorem killMedia_wf {s : State} (h : s.mem.wf = true) : (killMedia s).mem.wf = true := by
  unfold killMedia
  try simp only []
  repeat' (first | with_reducible exact h | split)

theorem killDecodes_wf {s : State} (h : s.mem.wf = true) : (killDecodes s).mem.wf = true := by
  unfold killDecodes
  try simp only []
  repeat' (first | with_reducible exact h | split)

theorem freePool_wf {s : State} (h : s.mem.wf = true) : (freePool s).mem.wf = true := by
  unfold freePool
  try simp only []
  repeat' (first | with_reducible exact h | split)

theorem restartControllers_wf {s : State} (h : s.mem.wf = true) : (restartControllers s).mem.wf = true := by
  unfold restartControllers
  try simp only []
  repeat' (first | with_reducible exact h | split)

theorem dueRecord_wf (r : OutRecord) {s : State} (h : s.mem.wf = true) : (dueRecord r s).mem.wf = true := by
  unfold dueRecord
  try simp only []
  repeat' (first | with_reducible exact h | with_reducible apply pushRecord_wf | split)

theorem closeFrames_wf (reason : GapReason) {s : State} (h : s.mem.wf = true) :
    (closeFrames reason s).mem.wf = true := by
  unfold closeFrames
  try simp only []
  repeat' (first | with_reducible exact h | with_reducible apply dueRecord_wf
                 | (with_reducible apply foldl_memWf; intro s x h) | split)

theorem State.asVariant_wf (v : Nat) {s : State} (h : s.mem.wf = true) : (State.asVariant s v).mem.wf = true := by
  unfold State.asVariant
  try simp only []
  repeat' (first | with_reducible exact h | split)

theorem stampCheckpoint_wf (reason : GapReason) (stopTick : Nat) (ckpt : Nat) {s : State} (h : s.mem.wf = true) :
    (stampCheckpoint reason stopTick ckpt s).mem.wf = true := by
  unfold stampCheckpoint
  try simp only []
  repeat' (first | with_reducible exact h | with_reducible apply State.writeMem_wf
                 | (with_reducible apply foldl_memWf; intro s x h) | split)

theorem releaseFault_wf {s : State} (h : s.mem.wf = true) : (releaseFault s).mem.wf = true := by
  unfold releaseFault
  try simp only []
  repeat' (first | with_reducible exact h | split)

theorem stopComplete_wf {s : State} (h : s.mem.wf = true) : (stopComplete s).mem.wf = true := by
  unfold stopComplete
  try simp only []
  repeat' (first | with_reducible exact h | with_reducible apply fillBuckets_wf | with_reducible apply raise_wf | split)

theorem leaveJob_wf {s : State} (h : s.mem.wf = true) : (leaveJob s).mem.wf = true := by
  unfold leaveJob
  try simp only []
  repeat' (first | with_reducible exact h | with_reducible apply Mems.wf_putBytes | split)

theorem dropConditioning_wf {s : State} (h : s.mem.wf = true) : (dropConditioning s).mem.wf = true := by
  unfold dropConditioning
  try simp only []
  repeat' (first | with_reducible exact h | split)

theorem stopJob_wf (reason : GapReason) (keep : Bool) {s : State} (h : s.mem.wf = true) :
    (stopJob reason keep s).mem.wf = true := by
  unfold stopJob
  try simp only []
  repeat' (first | with_reducible exact h | with_reducible apply applyWatchEnd_wf
                 | with_reducible apply closeFrames_wf | with_reducible apply dropConditioning_wf
                 | with_reducible apply freePool_wf | with_reducible apply killCompute_wf
                 | with_reducible apply killMedia_wf | with_reducible apply leaveJob_wf
                 | with_reducible apply releaseFault_wf | with_reducible apply stampCheckpoint_wf
                 | with_reducible apply stopComplete_wf | split)

theorem duskStop_wf (code : Nat) {s : State} (h : s.mem.wf = true) : (duskStop code s).mem.wf = true := by
  unfold duskStop
  try simp only []
  repeat' (first | with_reducible exact h | with_reducible apply raise_wf | with_reducible apply stopJob_wf | split)

theorem requestStop_wf (reason : GapReason) {s : State} (h : s.mem.wf = true) :
    (requestStop reason s).mem.wf = true := by
  unfold requestStop
  try simp only []
  repeat' (first | with_reducible exact h | with_reducible apply stopJob_wf | split)

theorem countKind_wf (k : Nat) {s : State} (h : s.mem.wf = true) : (countKind k s).mem.wf = true := by
  unfold countKind
  try simp only []
  repeat' (first | with_reducible exact h | split)

theorem pageSoon_wf {s : State} (h : s.mem.wf = true) : (pageSoon s).mem.wf = true := by
  unfold pageSoon
  try simp only []
  repeat' (first | with_reducible exact h | split)

theorem eclipseState_wf {s : State} (h : s.mem.wf = true) : (eclipseState s).mem.wf = true := by
  unfold eclipseState
  try simp only []
  repeat' (first | with_reducible exact h | with_reducible apply closeFrames_wf
                 | with_reducible apply fillBuckets_wf | with_reducible apply killCompute_wf
                 | with_reducible apply killMedia_wf | with_reducible apply leaveJob_wf
                 | with_reducible apply pageSoon_wf | split)

theorem enterEclipse_wf (unit : BitVec 32) (rule : Nat) {s : State} (h : s.mem.wf = true) :
    (enterEclipse unit rule s).mem.wf = true := by
  unfold enterEclipse
  try simp only []
  repeat' (first | with_reducible exact h | with_reducible apply eclipseState_wf | with_reducible apply raiseAs_wf
                 | split)

theorem enterHistory_wf (code : Nat) (unit : BitVec 32) (site : BitVec 32) {s : State} (h : s.mem.wf = true) :
    (enterHistory code unit site s).mem.wf = true := by
  unfold enterHistory
  try simp only []
  repeat' (first | with_reducible exact h | with_reducible apply pageSoon_wf | split)

theorem classify_wf (unit : BitVec 32) (failedTest : Bool) {s : State} (h : s.mem.wf = true) :
    (classify unit failedTest s).mem.wf = true := by
  unfold classify
  try simp only []
  repeat' (first | with_reducible exact h | with_reducible apply enterEclipse_wf | split)

theorem countError_wf (code : Nat) (detectedIn : Source) (oob : Bool) (unit : BitVec 32) (site : BitVec 32)
    (arg : Nat) {s : State} (h : s.mem.wf = true) :
    (countError code detectedIn oob unit site arg s).mem.wf = true := by
  unfold countError
  try simp only []
  repeat' (first | with_reducible exact h | with_reducible apply classify_wf | with_reducible apply enterHistory_wf
                 | with_reducible apply raiseAs_wf | split)

theorem assertFault_wf {s : State} (h : s.mem.wf = true) : (assertFault s).mem.wf = true := by
  unfold assertFault
  try simp only []
  repeat' (first | with_reducible exact h | split)

theorem withdrawRequests_wf (c : Option Nat) {s : State} (h : s.mem.wf = true) :
    (withdrawRequests c s).mem.wf = true := by
  unfold withdrawRequests
  try simp only []
  repeat' (first | with_reducible exact h | (with_reducible apply foldl_memWf; intro s x h) | split)

theorem reportNewest_wf {s : State} (h : s.mem.wf = true) : (reportNewest s).mem.wf = true := by
  unfold reportNewest
  try simp only []
  repeat' (first | with_reducible exact h | with_reducible apply complete_wf | with_reducible apply reportToHead_wf
                 | split)

theorem beginSquall_wf (level : Nat) (charged : Option (BitVec 32)) (die : Option Nat) (ring : Bool) {s : State}
    (h : s.mem.wf = true) :
    (beginSquall level charged die ring s).mem.wf = true := by
  unfold beginSquall
  try simp only []
  repeat' (first | with_reducible exact h | with_reducible apply assertFault_wf | with_reducible apply complete_wf
                 | with_reducible apply countKind_wf | with_reducible apply killCompute_wf
                 | with_reducible apply killDecodes_wf | with_reducible apply withdrawRequests_wf | split)

theorem sendAbort_wf (cause : Nat) {s : State} (h : s.mem.wf = true) : (sendAbort cause s).mem.wf = true := by
  unfold sendAbort
  try simp only []
  repeat' (first | with_reducible exact h | with_reducible apply sendBothWays_wf | split)

theorem takeAbort_wf (cause : Nat) (charged : Option (BitVec 32)) (die : Option Nat) {s : State} (h : s.mem.wf = true) :
    (takeAbort cause charged die s).mem.wf = true := by
  unfold takeAbort
  try simp only []
  repeat' (first | with_reducible exact h | with_reducible apply beginSquall_wf | with_reducible apply raiseAs_wf
                 | with_reducible apply stopJob_wf | split)

theorem startAbort_wf (cause : Nat) (reported : Bool) (charged : Option (BitVec 32)) (die : Option Nat) {s : State}
    (h : s.mem.wf = true) :
    (startAbort cause reported charged die s).mem.wf = true := by
  unfold startAbort
  try simp only []
  repeat' (first | with_reducible exact h | with_reducible apply raiseAs_wf | with_reducible apply sendAbort_wf
                 | with_reducible apply takeAbort_wf | split)

theorem enterSquall_wf (charged : Option (BitVec 32)) (die : Option Nat) {s : State} (h : s.mem.wf = true) :
    (enterSquall charged die s).mem.wf = true := by
  unfold enterSquall
  try simp only []
  repeat' (first | with_reducible exact h | with_reducible apply beginSquall_wf | with_reducible apply startAbort_wf
                 | split)

theorem coldReset_wf {s : State} (h : s.mem.wf = true) : (coldReset s).mem.wf = true := by
  simp only [Mems.wf, Bool.and_eq_true] at h
  simp only [coldReset, Mems.wf, h, Bool.and_true]
  decide

theorem forceModuleReset_wf {s : State} (h : s.mem.wf = true) : (forceModuleReset s).mem.wf = true := by
  unfold forceModuleReset
  try simp only []
  repeat' (first | with_reducible exact h | with_reducible apply assertFault_wf
                 | with_reducible apply beginSquall_wf | with_reducible apply coldReset_wf
                 | with_reducible apply countKind_wf | split)

theorem commandFault_wf (code : Nat) (arg : Nat) (core : Nat) {s : State} (h : s.mem.wf = true) :
    (commandFault code arg core s).mem.wf = true := by
  unfold commandFault
  try simp only []
  repeat' (first | with_reducible exact h | with_reducible apply enterSquall_wf | with_reducible apply raiseAs_wf
                 | split)

theorem formFails_wf (code : Nat) {s : State} (h : s.mem.wf = true) : (formFails code s).mem.wf = true := by
  unfold formFails
  try simp only []
  repeat' (first | with_reducible exact h | with_reducible apply raiseAs_wf | split)

theorem formationDue_wf {s : State} (h : s.mem.wf = true) : (formationDue s).mem.wf = true := by
  unfold formationDue
  try simp only []
  repeat' (first | with_reducible exact h | with_reducible apply formFails_wf | split)

theorem enqueueEntry_wf (deadline : Nat) (cmdIndex : Nat) (entry : Nat) {s : State} (h : s.mem.wf = true) :
    (enqueueEntry deadline cmdIndex entry s).mem.wf = true := by
  unfold enqueueEntry
  try simp only []
  repeat' (first | with_reducible exact h | split)

theorem estimateFill_wf (r : TierRequest) {s : State} (h : s.mem.wf = true) : (estimateFill r s).mem.wf = true := by
  unfold estimateFill
  try simp only []
  repeat' (first | with_reducible exact h | with_reducible apply boundary_wf | with_reducible apply raise_wf | split)

theorem addRequest_wf (r : TierRequest) {s : State} (h : s.mem.wf = true) : (addRequest r s).mem.wf = true := by
  unfold addRequest
  try simp only []
  repeat' (first | with_reducible exact h | with_reducible apply enqueueEntry_wf
                 | with_reducible apply estimateFill_wf | (with_reducible apply foldl_memWf; intro s x h) | split)

theorem setStatus_wf (entry : Nat) (st : Residency) {s : State} (h : s.mem.wf = true) :
    (setStatus entry st s).mem.wf = true := by
  unfold setStatus
  try simp only []
  repeat' (first | with_reducible exact h | with_reducible apply State.setEntry_wf | split)

theorem beginFill_wf {s : State} (h : s.mem.wf = true) : (beginFill s).mem.wf = true := by
  unfold beginFill
  try simp only []
  repeat' (first | with_reducible exact h | with_reducible apply State.setEntry_wf | with_reducible apply raise_wf
                 | with_reducible apply setStatus_wf | split)

theorem failFill_wf (f : Fill) (e : DirEntry) (code : Nat) {s : State} (h : s.mem.wf = true) :
    (failFill f e code s).mem.wf = true := by
  unfold failFill
  try simp only []
  repeat' (first | with_reducible exact h | with_reducible apply countError_wf | with_reducible apply raiseAs_wf
                 | with_reducible apply setStatus_wf | split)

theorem touchEntries_wf (entries : List Nat) {s : State} (h : s.mem.wf = true) :
    (touchEntries entries s).mem.wf = true := by
  unfold touchEntries
  try simp only []
  repeat' (first | with_reducible exact h | with_reducible apply State.setEntry_wf
                 | (with_reducible apply foldl_memWf; intro s x h) | split)

theorem decidePath_wf (m : Nat) {s : State} (h : s.mem.wf = true) : (decidePath m s).mem.wf = true := by
  unfold decidePath
  try simp only []
  repeat' (first | with_reducible exact h | with_reducible apply raise_wf | with_reducible apply touchEntries_wf
                 | (with_reducible apply foldl_memWf; intro s x h) | split)

theorem redecide_wf {s : State} (h : s.mem.wf = true) : (redecide s).mem.wf = true := by
  unfold redecide
  try simp only []
  repeat' (first | with_reducible exact h | with_reducible apply boundary_wf | with_reducible apply fetchLists_wf
                 | (with_reducible apply foldl_memWf; intro s x h) | split)

theorem endFill_wf (ok : Bool) (host : Bytes) {s : State} (h : s.mem.wf = true) :
    (endFill ok host s).mem.wf = true := by
  unfold endFill
  try simp only []
  repeat' (first | with_reducible exact h | with_reducible apply State.setEntry_wf
                 | with_reducible apply State.writeMem_wf | with_reducible apply chargeHbm_wf
                 | with_reducible apply failFill_wf | with_reducible apply redecide_wf | split)

theorem shiftRequests_wf (d : Nat) {s : State} (h : s.mem.wf = true) : (shiftRequests d s).mem.wf = true := by
  unfold shiftRequests
  try simp only []
  repeat' (first | with_reducible exact h | split)

theorem resetTier_wf {s : State} (h : s.mem.wf = true) : (resetTier s).mem.wf = true := by
  unfold resetTier
  try simp only []
  repeat' (first | with_reducible exact h | with_reducible apply fillPartition_wf
                 | with_reducible apply setStatus_wf | split)

theorem State.setStream_wf (n : Nat) (x : Stream) {s : State} (h : s.mem.wf = true) :
    (State.setStream s n x).mem.wf = true := by
  unfold State.setStream
  try simp only []
  repeat' (first | with_reducible exact h | split)

theorem allocate_wf (n : Nat) (count : Nat) {s : State} (h : s.mem.wf = true) : (allocate n count s).mem.wf = true := by
  unfold allocate
  try simp only []
  repeat' (first | with_reducible exact h | (with_reducible apply foldl_memWf; intro s x h) | split)

theorem commitRefs_wf (n : Nat) (refs : Nat) (key : Bool) {s : State} (h : s.mem.wf = true) :
    (commitRefs n refs key s).mem.wf = true := by
  unfold commitRefs
  try simp only []
  repeat' (first | with_reducible exact h | split)

theorem storeFrame_wf (bufs : List Nat) (samples : Bytes) (field : Bytes) {s : State} (h : s.mem.wf = true) :
    (storeFrame bufs samples field s).mem.wf = true := by
  unfold storeFrame
  try simp only []
  repeat' (first | with_reducible exact h | with_reducible apply State.writeMem_wf
                 | with_reducible apply chargeHbm_wf | (with_reducible apply foldl_memWf; intro s x h) | split)

theorem beginEncode_wf (n : Nat) (number : Nat) (k : Nat) {s : State} (h : s.mem.wf = true) :
    (beginEncode n number k s).mem.wf = true := by
  unfold beginEncode
  try simp only []
  repeat' (first | with_reducible exact h | with_reducible apply State.setStream_wf
                 | with_reducible apply allocate_wf | with_reducible apply chargeHbm_wf
                 | (with_reducible apply foldl_memWf; intro s x h) | with_reducible apply free_wf | split)

theorem startEncode_wf (n : Nat) (f : Frame) {s : State} (h : s.mem.wf = true) : (startEncode n f s).mem.wf = true := by
  unfold startEncode
  try simp only []
  repeat' (first | with_reducible exact h | with_reducible apply State.setStream_wf
                 | with_reducible apply beginEncode_wf | split)

theorem startEncodes_wf (k : Nat) {s : State} (h : s.mem.wf = true) : (startEncodes k s).mem.wf = true := by
  unfold startEncodes
  try simp only []
  repeat' (first | with_reducible exact h | with_reducible apply startEncode_wf
                 | (with_reducible apply foldl_memWf; intro s x h) | split)

theorem State.setFrame_wf (number : Nat) (g : Frame → Frame) {s : State} (h : s.mem.wf = true) :
    (State.setFrame s number g).mem.wf = true := by
  unfold State.setFrame
  try simp only []
  repeat' (first | with_reducible exact h | split)

theorem nextEncode_wf (n : Nat) {s : State} (h : s.mem.wf = true) : (nextEncode n s).mem.wf = true := by
  unfold nextEncode
  try simp only []
  repeat' (first | with_reducible exact h | with_reducible apply State.setStream_wf
                 | with_reducible apply beginEncode_wf | split)

theorem stageUnit_wf (n : Nat) {s : State} (h : s.mem.wf = true) : (stageUnit n s).mem.wf = true := by
  unfold stageUnit
  try simp only []
  repeat' (first | with_reducible exact h | with_reducible apply State.setFrame_wf
                 | with_reducible apply State.setStream_wf | with_reducible apply commitRefs_wf
                 | with_reducible apply nextEncode_wf | with_reducible apply raise_wf
                 | with_reducible apply storeFrame_wf | split)

theorem putPicture_wf (n : Nat) (k : Nat) (planes : List (List Nat)) {s : State} (h : s.mem.wf = true) :
    (putPicture n k planes s).mem.wf = true := by
  unfold putPicture
  try simp only []
  repeat' (first | with_reducible exact h | with_reducible apply chargeHbm_wf | with_reducible apply writeCodes_wf
                 | (with_reducible apply foldl_memWf; intro s x h) | split)

theorem repeatPicture_wf (n : Nat) (k : Nat) {s : State} (h : s.mem.wf = true) :
    (repeatPicture n k s).mem.wf = true := by
  unfold repeatPicture
  try simp only []
  repeat' (first | with_reducible exact h | with_reducible apply putPicture_wf | split)

theorem flagDamaged_wf (number : Nat) {s : State} (h : s.mem.wf = true) : (flagDamaged number s).mem.wf = true := by
  unfold flagDamaged
  try simp only []
  repeat' (first | with_reducible exact h | with_reducible apply State.setFrame_wf | split)

theorem pictureStaged_wf (n : Nat) (number : Nat) (damaged : Bool) {s : State} (h : s.mem.wf = true) :
    (pictureStaged n number damaged s).mem.wf = true := by
  unfold pictureStaged
  try simp only []
  repeat' (first | with_reducible exact h | with_reducible apply State.setStream_wf
                 | with_reducible apply flagDamaged_wf | split)

theorem concealFrame_wf (n : Nat) (number : Nat) (k : Nat) {s : State} (h : s.mem.wf = true) :
    (concealFrame n number k s).mem.wf = true := by
  unfold concealFrame
  try simp only []
  repeat' (first | with_reducible exact h | with_reducible apply pictureStaged_wf
                 | with_reducible apply putPicture_wf | split)

theorem startDecode_wf (n : Nat) (k : Nat) (f : Frame) (segs : List Segment) {s : State} (h : s.mem.wf = true) :
    (startDecode n k f segs s).mem.wf = true := by
  unfold startDecode
  try simp only []
  repeat' (first | with_reducible exact h | with_reducible apply State.setStream_wf
                 | with_reducible apply allocate_wf | with_reducible apply concealFrame_wf
                 | with_reducible apply flagDamaged_wf | with_reducible apply repeatPicture_wf
                 | (intro u h; try simp only []) | split)

theorem startDecodes_wf (k : Nat) (f : Frame) (segs : List Segment) {s : State} (h : s.mem.wf = true) :
    (startDecodes k f segs s).mem.wf = true := by
  unfold startDecodes
  try simp only []
  repeat' (first | with_reducible exact h | with_reducible apply startDecode_wf
                 | (with_reducible apply foldl_memWf; intro s x h) | split)

theorem replayDecodes_wf (k : Nat) {s : State} (h : s.mem.wf = true) : (replayDecodes k s).mem.wf = true := by
  unfold replayDecodes
  try simp only []
  repeat' (first | with_reducible exact h | with_reducible apply startDecodes_wf | split)

theorem placePicture_wf (n : Nat) (k : Nat) (d : Decoded) {s : State} (h : s.mem.wf = true) :
    (placePicture n k d s).mem.wf = true := by
  unfold placePicture
  try simp only []
  repeat' (first | with_reducible exact h | with_reducible apply putPicture_wf
                 | with_reducible apply repeatPicture_wf | with_reducible apply storeFrame_wf
                 | (intro u h; try simp only []) | split)

theorem stagePicture_wf (n : Nat) {s : State} (h : s.mem.wf = true) : (stagePicture n s).mem.wf = true := by
  unfold stagePicture
  try simp only []
  repeat' (first | with_reducible exact h | with_reducible apply State.setStream_wf
                 | with_reducible apply pictureStaged_wf | with_reducible apply placePicture_wf
                 | with_reducible apply raise_wf | split)

theorem commitPictures_wf {s : State} (h : s.mem.wf = true) : (commitPictures s).mem.wf = true := by
  unfold commitPictures
  try simp only []
  repeat' (first | with_reducible exact h | with_reducible apply State.setStream_wf
                 | (with_reducible apply foldl_memWf; intro s x h) | split)

theorem resetMedia_wf {s : State} (h : s.mem.wf = true) : (resetMedia s).mem.wf = true := by
  unfold resetMedia
  try simp only []
  repeat' (first | with_reducible exact h | with_reducible apply concealFrame_wf
                 | with_reducible apply fillPartition_wf | with_reducible apply freePool_wf
                 | with_reducible apply restartControllers_wf | (with_reducible apply foldl_memWf; intro s x h)
                 | split)

theorem startMedia_wf {s : State} (h : s.mem.wf = true) : (startMedia s).mem.wf = true := by
  unfold startMedia
  try simp only []
  repeat' (first | with_reducible exact h | with_reducible apply freePool_wf
                 | with_reducible apply restartControllers_wf | split)

theorem writeCheckpoint_wf (c : Nat) {s : State} (h : s.mem.wf = true) : (writeCheckpoint c s).mem.wf = true := by
  unfold writeCheckpoint
  try simp only []
  repeat' (first | with_reducible exact h | with_reducible apply State.writeMem_wf
                 | with_reducible apply chargeCore_wf | (with_reducible apply foldl_memWf; intro s x h) | split)

theorem moveCheckpoint_wf (region : Nat) (c : Nat) (k : Nat) {s : State} (h : s.mem.wf = true) :
    (moveCheckpoint region c k s).mem.wf = true := by
  unfold moveCheckpoint
  try simp only []
  repeat' (first | with_reducible exact h | with_reducible apply State.asVariant_wf
                 | with_reducible apply State.writeMem_wf | (with_reducible apply foldl_memWf; intro s x h) | split)

theorem restoreTensor_wf (t : Tensor) (data : Bytes) {s : State} (h : s.mem.wf = true) :
    (restoreTensor t data s).mem.wf = true := by
  unfold restoreTensor
  try simp only []
  repeat' (first | with_reducible exact h | with_reducible apply writeCodes_wf | with_reducible apply writeScale_wf
                 | (with_reducible apply foldl_memWf; intro s x h) | split)

theorem restoreRecord_wf (v : Nat) (addr : Nat → Nat) (first i : Nat) {s t : State} (h : s.mem.wf = true)
    (e : restoreRecord v addr first i (some s) = some t) : t.mem.wf = true := by
  simp only [restoreRecord] at e
  split at e
  · cases e
  · split at e <;> cases e
    all_goals repeat' (first | with_reducible exact h | with_reducible apply restoreTensor_wf | with_reducible apply raise_wf | split)

theorem foldl_restore_wf (v : Nat) (addr : Nat → Nat) (first : Nat) (l : List Nat) {s t : State} (hs : s.mem.wf = true)
    (h : l.foldl (fun r i => restoreRecord v addr first i r) (some s) = some t) : t.mem.wf = true := by
  induction l generalizing s with
  | nil => cases h; exact hs
  | cons x xs ih =>
    rw [List.foldl_cons] at h
    cases hr : restoreRecord v addr first x (some s) with
    | none => rw [hr, foldl_restore_none] at h; cases h
    | some u =>
      rw [hr] at h
      exact ih (restoreRecord_wf v addr first x hs hr) h

theorem restoreFrom_wf (v : Nat) (d : Option Nat) (c : Nat) {s t : State} (hs : s.mem.wf = true)
    (h : restoreFrom v d c s = some t) : t.mem.wf = true := by
  unfold restoreFrom at h
  simp only [] at h
  split at h
  · cases h
  · refine foldl_restore_wf _ _ _ _ ?_ h
    rename_i die _
    generalize (die == _) = b
    cases b
    · exact raise_wf _ _ hs
    · exact hs

theorem restoreCheckpoint_wf (d : Option Nat) (c : Nat) {s t : State} (hs : s.mem.wf = true)
    (h : restoreCheckpoint d c s = some t) : t.mem.wf = true := restoreFrom_wf _ _ _ hs h

theorem takeCheckpoint_wf (i : Nat) (p : Nat) (b : Bytes) {s : State} (h : s.mem.wf = true) :
    (takeCheckpoint i p b s).mem.wf = true := by
  unfold takeCheckpoint
  try simp only []
  repeat' (first | with_reducible exact h | with_reducible apply State.asVariant_wf
                 | with_reducible apply State.writeMem_wf | (with_reducible apply foldl_memWf; intro s x h) | split)

theorem releaseHeld_wf {s : State} (h : s.mem.wf = true) : (releaseHeld s).mem.wf = true := by
  unfold releaseHeld
  try simp only []
  repeat' (first | with_reducible exact h | split)

theorem writeSegment_wf (g : Segment) (die : Nat) {s : State} (h : s.mem.wf = true) :
    (writeSegment g die s).mem.wf = true := by
  unfold writeSegment
  have k : ∀ (b : Bool) a n, (if b = true then s else chargeHbm 4 a n (s.writeMem .hbm a g.payload)).mem.wf = true := by
    intro b a n
    split
    · exact h
    · exact chargeHbm_wf _ _ _ (State.writeMem_wf _ _ _ h)
  exact k _ _ _

theorem writeConditioning_wf (segs : List Segment) {s : State} (h : s.mem.wf = true) :
    (writeConditioning segs s).mem.wf = true := by
  unfold writeConditioning
  try simp only []
  repeat' (first | with_reducible exact h | with_reducible apply writeSegment_wf
                 | (with_reducible apply foldl_memWf; intro s x h) | split)

theorem acceptFrame_wf (k : Nat) (flywheel : Bool) {s : State} (h : s.mem.wf = true) :
    (acceptFrame k flywheel s).mem.wf = true := by
  unfold acceptFrame
  try simp only []
  repeat' (first | with_reducible exact h | with_reducible apply boundary_wf | with_reducible apply raise_wf
                 | with_reducible apply releaseHeld_wf | with_reducible apply startDecodes_wf
                 | with_reducible apply writeConditioning_wf | split)

theorem nextAk_wf (k : Nat) {s : State} (h : s.mem.wf = true) : (nextAk k s).mem.wf = true := by
  unfold nextAk
  try simp only []
  repeat' (first | with_reducible exact h | split)

theorem applySwitches_wf {s : State} (h : s.mem.wf = true) : (applySwitches s).mem.wf = true := by
  unfold applySwitches
  try simp only []
  repeat' (first | with_reducible exact h | with_reducible apply applyWatchEnd_wf | split)

theorem fitModel_wf {s : State} (h : s.mem.wf = true) : (fitModel s).mem.wf = true := by
  unfold fitModel
  try simp only []
  repeat' (first | with_reducible exact h | with_reducible apply free_wf | split)

theorem startTick_wf (k : Nat) {s : State} (h : s.mem.wf = true) : (startTick k s).mem.wf = true := by
  unfold startTick
  try simp only []
  repeat' (first | with_reducible exact h | with_reducible apply applySwitches_wf
                 | with_reducible apply decidePath_wf | with_reducible apply fetchLists_wf
                 | with_reducible apply fitModel_wf | with_reducible apply startEncodes_wf | split)

theorem noteShortfall_wf {s : State} (h : s.mem.wf = true) : (noteShortfall s).mem.wf = true := by
  unfold noteShortfall
  try simp only []
  repeat' (first | with_reducible exact h | with_reducible apply causeDusk_wf | with_reducible apply raise_wf | split)

theorem duskHere_wf (how : Placed) {s : State} (h : s.mem.wf = true) : (duskHere how s).2.mem.wf = true := by
  simp only [duskHere]
  repeat' (first | with_reducible exact h | with_reducible apply noteShortfall_wf | with_reducible apply raise_wf
                 | split)

theorem jobEndEffect_wf (e : Nat) {s : State} (h : s.mem.wf = true) : (jobEndEffect e s).mem.wf = true := by
  unfold jobEndEffect
  try simp only []
  repeat' (first | with_reducible exact h | split)

theorem startRun_wf (k : Nat) (flywheel : Bool) {s : State} (h : s.mem.wf = true) :
    (startRun k flywheel s).mem.wf = true := by
  unfold startRun
  try simp only []
  repeat' (first | with_reducible exact h | with_reducible apply acceptFrame_wf
                 | with_reducible apply fillBuckets_wf | with_reducible apply moveCheckpoint_wf
                 | with_reducible apply nextAk_wf | with_reducible apply raise_wf
                 | with_reducible apply replayDecodes_wf | with_reducible apply startTick_wf | split)

theorem squallResume_wf (r : Nat) (q : Squall) {s : State} (h : s.mem.wf = true) :
    (squallResume r q s).mem.wf = true := by
  unfold squallResume
  try simp only []
  repeat' (first | with_reducible exact h | with_reducible apply moveCheckpoint_wf | with_reducible apply nextAk_wf
                 | with_reducible apply raise_wf | with_reducible apply releaseFault_wf
                 | with_reducible apply replayDecodes_wf | with_reducible apply shiftRequests_wf
                 | with_reducible apply startTick_wf | split)

theorem runBoundary_wf (k : Nat) (how : Placed) {s : State} (h : s.mem.wf = true) :
    (runBoundary k how s).mem.wf = true := by
  unfold runBoundary
  replace h := duskHere_wf how h
  split <;> rename_i heq <;> rw [heq] at h <;>
    repeat' (first | with_reducible exact h | with_reducible apply duskStop_wf | with_reducible apply nextAk_wf
                   | with_reducible apply startTick_wf | with_reducible apply jobEndEffect_wf
                   | with_reducible apply acceptFrame_wf | split)

theorem squallRecheck_wf {s : State} (h : s.mem.wf = true) : (squallRecheck s).mem.wf = true := by
  unfold squallRecheck
  try simp only []
  repeat' (first | with_reducible exact h | with_reducible apply causeDusk_wf | with_reducible apply raise_wf | split)

theorem forwardTick_wf (how : Placed) (dusk : Bool) (ended : Bool) {s : State} (h : s.mem.wf = true) :
    (forwardTick how dusk ended s).mem.wf = true := by
  unfold forwardTick
  try simp only []
  repeat' (first | with_reducible exact h | with_reducible apply sendBothWays_wf | split)

theorem squallBoundary_wf (k : Nat) (how : Placed) {s : State} (h : s.mem.wf = true) :
    (squallBoundary k how s).mem.wf = true := by
  unfold squallBoundary
  try simp only []
  repeat' (first | with_reducible exact h | with_reducible apply duskStop_wf | with_reducible apply forwardTick_wf
                 | with_reducible apply squallResume_wf | split)

theorem placeBoundary_wf (k : Nat) (how : Placed) {s : State} (h : s.mem.wf = true) :
    (placeBoundary k how s).mem.wf = true := by
  unfold placeBoundary
  try simp only []
  repeat' (first | with_reducible exact h | with_reducible apply boundary_wf | split)

theorem reportFlywheel_wf (how : Placed) (third : Bool) {s : State} (h : s.mem.wf = true) :
    (reportFlywheel how third s).mem.wf = true := by
  unfold reportFlywheel
  try simp only []
  repeat' (first | with_reducible exact h | with_reducible apply raise_wf | split)

theorem unlockSource_wf {s : State} (h : s.mem.wf = true) : (unlockSource s).mem.wf = true := by
  unfold unlockSource
  try simp only []
  repeat' (first | with_reducible exact h | split)

theorem tickLost_wf {s : State} (h : s.mem.wf = true) : (tickLost s).mem.wf = true := by
  unfold tickLost
  try simp only []
  repeat' (first | with_reducible exact h | with_reducible apply duskStop_wf | with_reducible apply forwardTick_wf
                 | with_reducible apply raise_wf | with_reducible apply unlockSource_wf | split)

theorem boundary_wf (how : Placed) {s : State} (h : s.mem.wf = true) : (boundary how s).mem.wf = true := by
  unfold boundary
  try simp only []
  repeat' (first | with_reducible exact h | with_reducible apply causeDusk_wf | with_reducible apply forwardTick_wf
                 | with_reducible apply leaveArmed_wf | with_reducible apply placeBoundary_wf
                 | with_reducible apply raise_wf | with_reducible apply reportFlywheel_wf
                 | with_reducible apply runBoundary_wf | with_reducible apply squallBoundary_wf
                 | with_reducible apply squallRecheck_wf | with_reducible apply startRun_wf
                 | with_reducible apply tickLost_wf | with_reducible apply duskHere_wf | split)

theorem showLock_wf {s : State} (h : s.mem.wf = true) : (showLock s).mem.wf = true := by
  unfold showLock
  try simp only []
  repeat' (first | with_reducible exact h | split)

theorem lockLost_wf {s : State} (h : s.mem.wf = true) : (lockLost s).mem.wf = true := by
  unfold lockLost
  try simp only []
  repeat' (first | with_reducible exact h | with_reducible apply leaveArmed_wf | with_reducible apply raiseAs_wf
                 | split)

theorem pulseInJob_wf {s : State} (h : s.mem.wf = true) : (pulseInJob s).mem.wf = true := by
  unfold pulseInJob
  try simp only []
  repeat' (first | with_reducible exact h | with_reducible apply boundary_wf | with_reducible apply raise_wf | split)

theorem pulseEdge_wf {s : State} (h : s.mem.wf = true) : (pulseEdge s).mem.wf = true := by
  unfold pulseEdge
  try simp only []
  repeat' (first | with_reducible exact h | with_reducible apply boundary_wf | with_reducible apply lockLost_wf
                 | with_reducible apply pulseInJob_wf | with_reducible apply showLock_wf | split)

theorem wordPlaces_wf (inTolerance : Bool) {s : State} (h : s.mem.wf = true) :
    (wordPlaces inTolerance s).mem.wf = true := by
  unfold wordPlaces
  try simp only []
  repeat' (first | with_reducible exact h | with_reducible apply boundary_wf | split)

theorem wordEdge_wf (inTolerance : Bool) {s : State} (h : s.mem.wf = true) :
    (wordEdge inTolerance s).mem.wf = true := by
  unfold wordEdge
  try simp only []
  repeat' (first | with_reducible exact h | with_reducible apply wordPlaces_wf | split)

theorem internalEdge_wf {s : State} (h : s.mem.wf = true) : (internalEdge s).mem.wf = true := by
  unfold internalEdge
  try simp only []
  repeat' (first | with_reducible exact h | with_reducible apply boundary_wf | split)

theorem flywheelEdge_wf {s : State} (h : s.mem.wf = true) : (flywheelEdge s).mem.wf = true := by
  unfold flywheelEdge
  try simp only []
  repeat' (first | with_reducible exact h | with_reducible apply boundary_wf | with_reducible apply lockLost_wf | split)

theorem abortAfterStop_wf (cause : Nat) {s : State} (h : s.mem.wf = true) : (abortAfterStop cause s).mem.wf = true := by
  unfold abortAfterStop
  try simp only []
  repeat' (first | with_reducible exact h | with_reducible apply raiseAs_wf | with_reducible apply sendAbort_wf | split)

theorem forwardTimeout_wf {s : State} (h : s.mem.wf = true) : (forwardTimeout s).mem.wf = true := by
  unfold forwardTimeout
  try simp only []
  repeat' (first | with_reducible exact h | with_reducible apply abortAfterStop_wf
                 | with_reducible apply boundary_wf | with_reducible apply startAbort_wf | split)

theorem lockTimeout_wf {s : State} (h : s.mem.wf = true) : (lockTimeout s).mem.wf = true := by
  unfold lockTimeout
  try simp only []
  repeat' (first | with_reducible exact h | with_reducible apply lockLost_wf | with_reducible apply showLock_wf | split)

theorem setClock_wf (rate : Nat) (locked : Bool) {s : State} (h : s.mem.wf = true) :
    (setClock rate locked s).mem.wf = true := by
  unfold setClock
  try simp only []
  repeat' (first | with_reducible exact h | split)

theorem clockUnlock_wf (rate : Nat) {s : State} (h : s.mem.wf = true) : (clockUnlock rate s).mem.wf = true := by
  unfold clockUnlock
  try simp only []
  repeat' (first | with_reducible exact h | with_reducible apply lockLost_wf | with_reducible apply setClock_wf
                 | with_reducible apply showLock_wf | split)

theorem cutoff_wf {s : State} (h : s.mem.wf = true) : (cutoff s).mem.wf = true := by
  unfold cutoff
  try simp only []
  repeat' (first | with_reducible exact h | with_reducible apply boundary_wf | with_reducible apply enterSquall_wf
                 | with_reducible apply raiseAs_wf | split)

theorem commitDeadline_wf {s : State} (h : s.mem.wf = true) : (commitDeadline s).mem.wf = true := by
  unfold commitDeadline
  try simp only []
  repeat' (first | with_reducible exact h | with_reducible apply boundary_wf | with_reducible apply enterSquall_wf
                 | with_reducible apply raiseAs_wf | split)

theorem advanceFrames_wf (k : Nat) {s : State} (h : s.mem.wf = true) : (advanceFrames k s).mem.wf = true := by
  unfold advanceFrames
  try simp only []
  repeat' (first | with_reducible exact h | split)

theorem sendReady_wf {s : State} (h : s.mem.wf = true) : (sendReady s).mem.wf = true := by
  unfold sendReady
  try simp only []
  repeat' (first | with_reducible exact h | with_reducible apply sendTo_wf
                 | (with_reducible apply foldl_memWf; intro s x h) | split)

theorem commitTick_wf {s : State} (h : s.mem.wf = true) : (commitTick s).mem.wf = true := by
  unfold commitTick
  try simp only []
  repeat' (first | with_reducible exact h | with_reducible apply advanceFrames_wf
                 | with_reducible apply commitPictures_wf | with_reducible apply sendReady_wf
                 | with_reducible apply writeCheckpoint_wf | split)

theorem dropFrame_wf (number : Nat) {s : State} (h : s.mem.wf = true) : (dropFrame number s).mem.wf = true := by
  unfold dropFrame
  try simp only []
  repeat' (first | with_reducible exact h | split)

theorem slotDone_wf {s : State} (h : s.mem.wf = true) : (slotDone s).mem.wf = true := by
  unfold slotDone
  try simp only []
  repeat' (first | with_reducible exact h | split)

theorem deliver_wf {s : State} (h : s.mem.wf = true) : (deliver s).mem.wf = true := by
  unfold deliver
  try simp only []
  repeat' (first | with_reducible exact h | with_reducible apply dropFrame_wf | with_reducible apply dueRecord_wf
                 | with_reducible apply slotDone_wf | split)

theorem drainEnd_wf {s : State} (h : s.mem.wf = true) : (drainEnd s).mem.wf = true := by
  unfold drainEnd
  try simp only []
  repeat' (first | with_reducible exact h | with_reducible apply applyWatchEnd_wf | with_reducible apply boundary_wf
                 | with_reducible apply fillBuckets_wf | with_reducible apply killCompute_wf
                 | with_reducible apply killMedia_wf | with_reducible apply leaveJob_wf | split)

theorem finishRecovery_wf (q : Squall) {s : State} (h : s.mem.wf = true) : (finishRecovery q s).mem.wf = true := by
  unfold finishRecovery
  try simp only []
  repeat' (first | with_reducible exact h | with_reducible apply complete_wf | with_reducible apply raise_wf
                 | with_reducible apply reportNewest_wf | split)

theorem restoreFor_wf (q : Squall) {s : State} (h : s.mem.wf = true) : (restoreFor q s).mem.wf = true := by
  unfold restoreFor
  split
  · split
    · rename_i e; exact finishRecovery_wf _ (restoreCheckpoint_wf _ _ h e)
    · exact stopJob_wf _ _ (raise_wf _ _ h)
  · exact finishRecovery_wf _ h

theorem recoveryComplete_wf (selfTestOk : Bool) (tablesOk : Bool) {s : State} (h : s.mem.wf = true) :
    (recoveryComplete selfTestOk tablesOk s).mem.wf = true := by
  unfold recoveryComplete
  try simp only []
  repeat' (first | with_reducible exact h | with_reducible apply checkPlanRegions_wf
                 | with_reducible apply classify_wf | with_reducible apply complete_wf
                 | with_reducible apply loadBank_wf | with_reducible apply restoreFor_wf | split)

theorem recoveryTimeout_wf {s : State} (h : s.mem.wf = true) : (recoveryTimeout s).mem.wf = true := by
  unfold recoveryTimeout
  try simp only []
  repeat' (first | with_reducible exact h | with_reducible apply duskStop_wf | with_reducible apply raise_wf | split)

theorem sample_wf (r : Readings) {s : State} (h : s.mem.wf = true) : (sample r s).mem.wf = true := by
  unfold sample
  try simp only []
  repeat' (first | with_reducible exact h | with_reducible apply boundary_wf | with_reducible apply free_wf | split)

theorem updateValve_wf {s : State} (h : s.mem.wf = true) : (updateValve s).mem.wf = true := by
  unfold updateValve
  try simp only []
  repeat' (first | with_reducible exact h | with_reducible apply free_wf | split)

theorem safetyDusk_wf (code : Nat) {s : State} (h : s.mem.wf = true) : (safetyDusk code s).mem.wf = true := by
  unfold safetyDusk
  try simp only []
  repeat' (first | with_reducible exact h | with_reducible apply causeDusk_wf | with_reducible apply raiseAs_wf | split)

theorem powerOff_wf {s : State} (h : s.mem.wf = true) : (powerOff s).mem.wf = true := by
  unfold powerOff
  try simp only []
  repeat' (first | with_reducible exact h | with_reducible apply coldReset_wf | split)

theorem evaluatePower_wf {s : State} (h : s.mem.wf = true) : (evaluatePower s).mem.wf = true := by
  unfold evaluatePower
  try simp only []
  repeat' (first | with_reducible exact h | with_reducible apply coldReset_wf | split)

theorem removePower_wf {s : State} (h : s.mem.wf = true) : (removePower s).mem.wf = true := by
  unfold removePower
  try simp only []
  repeat' (first | with_reducible exact h | with_reducible apply powerOff_wf | split)

theorem recordTrip_wf (code : Nat) {s : State} (h : s.mem.wf = true) : (recordTrip code s).mem.wf = true := by
  unfold recordTrip
  try simp only []
  repeat' (first | with_reducible exact h | split)

theorem trip_wf (code : Nat) (opensSwitch : Bool) {s : State} (h : s.mem.wf = true) :
    (trip code opensSwitch s).mem.wf = true := by
  unfold trip
  try simp only []
  repeat' (first | with_reducible exact h | with_reducible apply powerOff_wf | with_reducible apply recordTrip_wf
                 | split)

theorem writeBoot_wf (r : BootRecord) {s : State} (h : s.mem.wf = true) : (writeBoot r s).mem.wf = true := by
  unfold writeBoot
  try simp only []
  repeat' (first | with_reducible exact h | split)

theorem State.setRun_wf (r : Run) {s : State} (h : s.mem.wf = true) : (State.setRun s r).mem.wf = true := by
  unfold State.setRun
  try simp only []
  repeat' (first | with_reducible exact h | split)

theorem dropGuests_wf (core : Nat) (place : Nat) {s : State} (h : s.mem.wf = true) :
    (dropGuests core place s).mem.wf = true := by
  unfold dropGuests
  try simp only []
  repeat' (first | with_reducible exact h | split)

theorem killRun_wf (r : Run) {s : State} (h : s.mem.wf = true) : (killRun r s).mem.wf = true := by
  unfold killRun
  try simp only []
  repeat' (first | with_reducible exact h | with_reducible apply dropGuests_wf | split)

theorem levelOne_wf (r : Run) {s : State} (h : s.mem.wf = true) : (levelOne r s).mem.wf = true := by
  unfold levelOne
  try simp only []
  repeat' (first | with_reducible exact h | with_reducible apply countKind_wf | with_reducible apply enterSquall_wf
                 | with_reducible apply killRun_wf | with_reducible apply raiseAs_wf
                 | with_reducible apply startAbort_wf | split)

theorem poison_wf (addr : Nat) {s : State} (h : s.mem.wf = true) : (poison addr s).mem.wf = true := by
  unfold poison
  try simp only []
  repeat' (first | with_reducible exact h | with_reducible apply setStatus_wf | split)

theorem levelTwo_wf (code : Nat) (unit : BitVec 32) (site : BitVec 32) (die : Option Nat) (arg : Nat) {s : State}
    (h : s.mem.wf = true) :
    (levelTwo code unit site die arg s).mem.wf = true := by
  unfold levelTwo
  try simp only []
  repeat' (first | with_reducible exact h | with_reducible apply countError_wf | with_reducible apply enterSquall_wf
                 | split)

theorem bridgeFault_wf {s : State} (h : s.mem.wf = true) : (bridgeFault s).mem.wf = true := by
  unfold bridgeFault
  try simp only []
  repeat' (first | with_reducible exact h | with_reducible apply classify_wf | with_reducible apply enterHistory_wf
                 | with_reducible apply free_wf | split)

theorem levelThree_wf (code : Nat) (unit : BitVec 32) {s : State} (h : s.mem.wf = true) :
    (levelThree code unit s).mem.wf = true := by
  unfold levelThree
  try simp only []
  repeat' (first | with_reducible exact h | with_reducible apply countError_wf
                 | with_reducible apply forceModuleReset_wf | split)

theorem beginReset_wf (p : Nat) {s : State} (h : s.mem.wf = true) : (beginReset p s).mem.wf = true := by
  unfold beginReset
  try simp only []
  repeat' (first | with_reducible exact h | with_reducible apply assertFault_wf
                 | with_reducible apply fillPartition_wf | with_reducible apply resetMedia_wf
                 | with_reducible apply resetTier_wf | split)

theorem endReset_wf (p : Nat) {s : State} (h : s.mem.wf = true) : (endReset p s).mem.wf = true := by
  unfold endReset
  try simp only []
  repeat' (first | with_reducible exact h | with_reducible apply drainAll_wf | with_reducible apply fillPartition_wf
                 | with_reducible apply raise_wf | with_reducible apply releaseFault_wf
                 | with_reducible apply stopComplete_wf | split)

theorem endComputeReset_wf {s : State} (h : s.mem.wf = true) : (endComputeReset s).mem.wf = true := by
  unfold endComputeReset
  try simp only []
  repeat' (first | with_reducible exact h | with_reducible apply fillPartition_wf
                 | with_reducible apply releaseFault_wf | with_reducible apply reportNewest_wf
                 | with_reducible apply requestStop_wf | split)

theorem historyWrite_wf (ok : Bool) {s : State} (h : s.mem.wf = true) : (historyWrite ok s).mem.wf = true := by
  unfold historyWrite
  try simp only []
  repeat' (first | with_reducible exact h | with_reducible apply countKind_wf | with_reducible apply raise_wf
                 | with_reducible apply State.freeBytes_wf | with_reducible apply free_wf | split)

theorem pickup_wf {s : State} (h : s.mem.wf = true) : (pickup s).mem.wf = true := by
  unfold pickup
  try simp only []
  repeat' (first | with_reducible exact h | with_reducible apply State.publish_wf
                 | with_reducible apply State.setRing_wf | split)

theorem noteRefusal_wf (op : Nat) (c : Nat) {s : State} (h : s.mem.wf = true) : (noteRefusal op c s).mem.wf = true := by
  unfold noteRefusal
  try simp only []
  repeat' (first | with_reducible exact h | split)

theorem serve_wf (op : Nat) (req : Bytes) (checks : List (Bool × Nat)) (work : State → State) {s : State}
    (hwork : ∀ u : State, u.mem.wf = true → (work u).mem.wf = true) (h : s.mem.wf = true) :
    (serve op req checks work s).mem.wf = true := by
  unfold serve
  try simp only []
  repeat' (first | with_reducible exact h | with_reducible apply hwork | with_reducible apply noteRefusal_wf
                 | with_reducible apply pickup_wf | with_reducible apply respond_wf | split)

theorem readRequest_wf (off n : Nat) {s : State} (h : s.mem.wf = true) : (readRequest off n s).2.mem.wf = true := by
  unfold readRequest
  split <;> exact h

theorem storeWrite_wf (req : Bytes) {s : State} (h : s.mem.wf = true) : (storeWrite req s).mem.wf = true := by
  unfold storeWrite
  try simp only []
  repeat' (first | with_reducible exact h | with_reducible apply State.writeMem_wf | with_reducible apply respond_wf
                 | with_reducible apply serve_wf | with_reducible apply readRequest_wf
                 | (intro u h; try simp only []) | split)

theorem selfTestWindow_wf (restore : FunctionBank → FunctionBank) (w : WindowInput) {s : State}
    (h : s.mem.wf = true) : (selfTestWindow restore w s).2.2.mem.wf = true := by
  unfold selfTestWindow
  simp only []
  split
  · exact loadBank_wf _ _ h
  · exact loadBank_wf _ _ (loadBank_wf _ _ h)

theorem failUnit_wf (u : Option (BitVec 32)) {s : State} (h : s.mem.wf = true) : (failUnit u s).mem.wf = true := by
  unfold failUnit
  try simp only []
  repeat' (first | with_reducible exact h | with_reducible apply classify_wf | split)

theorem tableLoad_wf (req : Bytes) (window : WindowInput) {s : State} (h : s.mem.wf = true) :
    (tableLoad req window s).mem.wf = true := by
  unfold tableLoad
  try simp only []
  repeat' (first | with_reducible exact h | with_reducible apply failUnit_wf | with_reducible apply respond_wf
                 | with_reducible apply serve_wf | with_reducible apply selfTestWindow_wf
                 | (intro u h; try simp only []) | split)

theorem selfTest_wf (req : Bytes) (window : WindowInput) {s : State} (h : s.mem.wf = true) :
    (selfTest req window s).mem.wf = true := by
  unfold selfTest
  try simp only []
  repeat' (first | with_reducible exact h | with_reducible apply failUnit_wf | with_reducible apply respond_wf
                 | with_reducible apply serve_wf | with_reducible apply selfTestWindow_wf
                 | (intro u h; try simp only []) | split)

theorem attest_wf (req : Bytes) {s : State} (h : s.mem.wf = true) : (attest req s).mem.wf = true := by
  unfold attest
  try simp only []
  repeat' (first | with_reducible exact h | with_reducible apply State.writeExchange_wf
                 | with_reducible apply respond_wf | with_reducible apply serve_wf | with_reducible apply free_wf
                 | (intro u h; try simp only []) | split)

theorem counterFailure_wf {s : State} (h : s.mem.wf = true) : (counterFailure s).mem.wf = true := by
  unfold counterFailure
  try simp only []
  repeat' (first | with_reducible exact h | with_reducible apply eclipseState_wf | with_reducible apply raiseAs_wf
                 | split)

theorem programSlot_wf (req : Bytes) (kind : Nat) (img : Bytes) (flashOk : Bool) {s : State} (h : s.mem.wf = true) :
    (programSlot req kind img flashOk s).mem.wf = true := by
  unfold programSlot
  try simp only []
  repeat' (first | with_reducible exact h | with_reducible apply respond_wf | with_reducible apply writeBoot_wf
                 | with_reducible apply State.freeBytes_wf | with_reducible apply free_wf | split)

theorem stageImage_wf (req : Bytes) (flashOk : Bool) (authOk : Bool) {s : State} (h : s.mem.wf = true) :
    (stageImage req flashOk authOk s).mem.wf = true := by
  unfold stageImage
  try simp only []
  repeat' (first | with_reducible exact h | with_reducible apply counterFailure_wf
                 | with_reducible apply programSlot_wf | with_reducible apply respond_wf
                 | with_reducible apply serve_wf | with_reducible apply readRequest_wf
                 | (intro u h; try simp only []) | split)

theorem telemetry_wf (req : Bytes) {s : State} (h : s.mem.wf = true) : (telemetry req s).mem.wf = true := by
  unfold telemetry
  try simp only []
  repeat' (first | with_reducible exact h | with_reducible apply State.writeExchange_wf
                 | with_reducible apply respond_wf | with_reducible apply serve_wf | (intro u h; try simp only [])
                 | split)

theorem historyRead_wf (req : Bytes) {s : State} (h : s.mem.wf = true) : (historyRead req s).mem.wf = true := by
  unfold historyRead
  try simp only []
  repeat' (first | with_reducible exact h | with_reducible apply State.writeExchange_wf
                 | with_reducible apply respond_wf | with_reducible apply serve_wf | (intro u h; try simp only [])
                 | split)

theorem moduleReset_wf (req : Bytes) {s : State} (h : s.mem.wf = true) : (moduleReset req s).mem.wf = true := by
  unfold moduleReset
  try simp only []
  repeat' (first | with_reducible exact h | with_reducible apply coldReset_wf | with_reducible apply respond_wf
                 | with_reducible apply serve_wf | (intro u h; try simp only []) | split)

theorem tierRequest_wf (c : Bytes) (ix : Int) (due : Nat) {s : State} (h : s.mem.wf = true) :
    (tierRequest c ix due s).2.mem.wf = true := by
  simp only [tierRequest]
  generalize (tqFirst c + if tqIndirect c = true then ix else 0 : Int) = f
  split
  · exact h
  · exact raise_wf _ _ h

theorem earlyRequests_wf {s : State} (h : s.mem.wf = true) : (earlyRequests s).mem.wf = true := by
  unfold earlyRequests
  try simp only []
  repeat' (first | with_reducible exact h | with_reducible apply addRequest_wf | with_reducible apply tierRequest_wf
                 | (with_reducible apply foldl_memWf; intro s x h) | with_reducible apply free_wf | split)

theorem armFields_wf (req : Bytes) {s : State} (h : s.mem.wf = true) : (armFields req s).mem.wf = true := by
  unfold armFields
  try simp only []
  repeat' (first | with_reducible exact h | (intro u h; try simp only []) | split)

theorem armEngines_wf (rates : List (Nat × Nat × Nat)) (table : Bytes) {s : State} (h : s.mem.wf = true) :
    (armEngines rates table s).mem.wf = true := by
  unfold armEngines
  try simp only []
  repeat' (first | with_reducible exact h | with_reducible apply Mems.wf_putBytes | split)

theorem armTable_wf (req : Bytes) {s : State} (h : s.mem.wf = true) : (armTable req s).2.mem.wf = true := by
  unfold armTable
  split
  · exact readRequest_wf _ _ h
  · exact h

theorem armJob_wf (req : Bytes) {s : State} (h : s.mem.wf = true) : (armJob req s).mem.wf = true := by
  unfold armJob
  try simp only []
  repeat' (first | with_reducible exact h | with_reducible apply armEngines_wf | with_reducible apply armFields_wf
                 | with_reducible apply dropConditioning_wf | with_reducible apply killCompute_wf
                 | with_reducible apply releaseHeld_wf | with_reducible apply startMedia_wf
                 | with_reducible apply armTable_wf | split)

theorem restoreRetained_wf (req : Bytes) {s t : State} (hs : s.mem.wf = true)
    (h : restoreRetained req s = some t) : t.mem.wf = true := by
  unfold restoreRetained at h
  split at h
  · exact restoreFrom_wf _ _ _ hs h
  · cases h; exact hs

theorem resumeLost_wf (req : Bytes) (ckpt : Nat) {s : State} (h : s.mem.wf = true) :
    (resumeLost req ckpt s).mem.wf = true := by
  unfold resumeLost
  try simp only []
  repeat' (first | with_reducible exact h | with_reducible apply dropConditioning_wf
                 | with_reducible apply leaveArmed_wf | with_reducible apply noteRefusal_wf
                 | with_reducible apply raise_wf | with_reducible apply respond_wf | split)

theorem placeStart_wf (req : Bytes) (t0 shown : Time) {s : State} (h : s.mem.wf = true) :
    (placeStart req t0 shown s).mem.wf = true := by
  unfold placeStart
  split
  · exact resumeLost_wf _ _ (armJob_wf _ h)
  · rename_i u e
    have hu : u.mem.wf = true := restoreRetained_wf _ (armJob_wf _ h) e
    exact respond_wf _ _ _ (earlyRequests_wf hu)

theorem chooseStart_wf (req : Bytes) {s : State} (h : s.mem.wf = true) : (chooseStart req s).mem.wf = true := by
  unfold chooseStart
  try simp only []
  repeat' (first | with_reducible exact h | with_reducible apply placeStart_wf | split)

theorem refuseStart_wf (req : Bytes) (code : Nat) {s : State} (h : s.mem.wf = true) :
    (refuseStart req code s).mem.wf = true := by
  unfold refuseStart
  try simp only []
  repeat' (first | with_reducible exact h | with_reducible apply respond_wf | split)

theorem startLoaded_wf (req : Bytes) {s : State} (h : s.mem.wf = true) : (startLoaded req s).mem.wf = true := by
  unfold startLoaded
  try simp only []
  repeat' (first | with_reducible exact h | with_reducible apply chooseStart_wf
                 | with_reducible apply reportToHead_wf | split)

theorem startJob_wf (req : Bytes) (window : WindowInput) (carried : Bytes) {s : State} (h : s.mem.wf = true) :
    (startJob req window carried s).mem.wf = true := by
  unfold startJob
  try simp only []
  repeat' (first | with_reducible exact h | with_reducible apply classify_wf | with_reducible apply noteRefusal_wf
                 | with_reducible apply respond_wf | with_reducible apply startLoaded_wf
                 | with_reducible apply takeCheckpoint_wf | with_reducible apply selfTestWindow_wf
                 | (intro u h; try simp only []) | split)

theorem forwardStart_wf (req : Bytes) (t0 : Nat) {s : State} (h : s.mem.wf = true) :
    (forwardStart req t0 s).mem.wf = true := by
  unfold forwardStart
  try simp only []
  repeat' (first | with_reducible exact h | with_reducible apply sendBothWays_wf | split)

theorem ringDecision_wf (digests : List Bytes) {s : State} (h : s.mem.wf = true) :
    (ringDecision digests s).mem.wf = true := by
  unfold ringDecision
  try simp only []
  repeat' (first | with_reducible exact h | with_reducible apply chooseStart_wf
                 | with_reducible apply forwardStart_wf | with_reducible apply refuseStart_wf | split)

theorem forwardRequest_wf (req : Bytes) {s : State} (h : s.mem.wf = true) : (forwardRequest req s).mem.wf = true := by
  unfold forwardRequest
  try simp only []
  repeat' (first | with_reducible exact h | with_reducible apply sendBothWays_wf | split)

theorem noteEnd_wf {s : State} (h : s.mem.wf = true) : (noteEnd s).mem.wf = true := by
  unfold noteEnd
  try simp only []
  repeat' (first | with_reducible exact h | split)

theorem applyStop_wf (reason : GapReason) {s : State} (h : s.mem.wf = true) : (applyStop reason s).mem.wf = true := by
  unfold applyStop
  try simp only []
  repeat' (first | with_reducible exact h | with_reducible apply leaveArmed_wf | with_reducible apply raise_wf
                 | with_reducible apply requestStop_wf | split)

theorem noteKeys_wf (mask : Nat) {s : State} (h : s.mem.wf = true) : (noteKeys mask s).mem.wf = true := by
  unfold noteKeys
  try simp only []
  repeat' (first | with_reducible exact h | split)

theorem noteSplit_wf (forced : Bool) {s : State} (h : s.mem.wf = true) : (noteSplit forced s).mem.wf = true := by
  unfold noteSplit
  try simp only []
  repeat' (first | with_reducible exact h | split)

theorem takeRecord_wf {s : State} (h : s.mem.wf = true) : (takeRecord s).mem.wf = true := by
  unfold takeRecord
  try simp only []
  repeat' (first | with_reducible exact h | with_reducible apply State.publish_wf
                 | with_reducible apply State.setRing_wf | split)

theorem inputRecord_wf (r : Bytes) (payloads : List (Option Bytes)) {s : State} (h : s.mem.wf = true) :
    (inputRecord r payloads s).mem.wf = true := by
  unfold inputRecord
  try simp only []
  repeat' (first | with_reducible exact h | with_reducible apply raise_wf | with_reducible apply takeRecord_wf | split)

theorem writePointer_wf (n : Nat) (value : Nat) (after : State → State) {s : State}
    (hafter : ∀ u : State, u.mem.wf = true → (after u).mem.wf = true) (h : s.mem.wf = true) :
    (writePointer n value after s).mem.wf = true := by
  unfold writePointer
  try simp only []
  repeat' (first | with_reducible exact h | with_reducible apply hafter | with_reducible apply State.setRing_wf
                 | with_reducible apply raise_wf | split)

theorem afterRoom_wf {s : State} (h : s.mem.wf = true) : (afterRoom s).mem.wf = true := by
  unfold afterRoom
  try simp only []
  repeat' (first | with_reducible exact h | with_reducible apply drainAll_wf | with_reducible apply stopComplete_wf
                 | split)

theorem arriveRecords_wf {s : State} (h : s.mem.wf = true) : (arriveRecords s).mem.wf = true := by
  unfold arriveRecords
  try simp only []
  repeat' (first | with_reducible exact h | split)

theorem enableRing_wf (n : Nat) {s : State} (h : s.mem.wf = true) : (enableRing n s).mem.wf = true := by
  unfold enableRing
  try simp only []
  repeat' (first | with_reducible exact h | with_reducible apply State.publish_wf
                 | with_reducible apply State.setRing_wf | with_reducible apply afterRoom_wf
                 | with_reducible apply raise_wf | split)

theorem disableRing_wf (n : Nat) {s : State} (h : s.mem.wf = true) : (disableRing n s).mem.wf = true := by
  unfold disableRing
  try simp only []
  repeat' (first | with_reducible exact h | with_reducible apply State.setRing_wf | with_reducible apply raise_wf
                 | split)

theorem complete_wf (c : Completion) (data : Bytes) {s : State} (h : s.mem.wf = true) :
    (complete c data s).mem.wf = true := by
  unfold complete
  try simp only []
  repeat' (first | with_reducible exact h | split)

theorem readThrough_wf (f : State → Bytes × State) {s : State} (hf : ∀ u : State, u.mem.wf = true → (f u).2.mem.wf = true)
    (h : s.mem.wf = true) : (readThrough f s).mem.wf = true := by
  unfold readThrough
  split
  · exact complete_wf _ _ (hf s h)
  · exact complete_wf _ _ h

theorem readLow_wf (off value : Nat) {s : State} (h : s.mem.wf = true) : (readLow off value s).2.mem.wf = true := by
  simp only [readLow]
  (repeat' split) <;> first | exact h

theorem readHigh_wf (off value : Nat) {s : State} (h : s.mem.wf = true) : (readHigh off value s).2.mem.wf = true := by
  simp only [readHigh]
  (repeat' split) <;> first | exact h

theorem readErrWord_wf (n w : Nat) {s : State} (h : s.mem.wf = true) : (readErrWord n w s).2.mem.wf = true := by
  simp only [readErrWord]
  (repeat' split) <;> first | exact h

theorem readBarWord_wf (off : Nat) {s : State} (h : s.mem.wf = true) : (readBarWord off s).2.mem.wf = true := by
  unfold readBarWord
  repeat' split
  all_goals first
    | with_reducible exact h | with_reducible exact readErrWord_wf _ _ h | with_reducible exact readLow_wf _ _ h
    | with_reducible exact readHigh_wf _ _ h

theorem readBar0_wf (off size : Nat) {s : State} (h : s.mem.wf = true) : (readBar0 off size s).2.mem.wf = true := by
  unfold readBar0
  repeat' split
  · exact readBarWord_wf _ h
  · exact h
  · exact readBarWord_wf _ (readBarWord_wf _ h)

theorem badAccess_wf (off size : Nat) (write : Bool) {s : State} (h : s.mem.wf = true) :
    (badAccess off size write s).mem.wf = true := by
  unfold badAccess
  repeat' split
  all_goals first
    | with_reducible exact h | with_reducible exact raise_wf _ _ h | with_reducible exact raise_wf _ _ (complete_wf _ _ h)
    | exact readThrough_wf _ (fun _ hu => hu) h

theorem writeTable_wf (off : Nat) (data : Bytes) {s : State} (h : s.mem.wf = true) :
    (writeTable off data s).mem.wf = true := by
  unfold writeTable
  try simp only []
  repeat' (first | with_reducible exact h | (with_reducible apply foldl_memWf; intro s x h) | split)

theorem writeWindow_wf (off : Nat) (data : Bytes) {s : State} (h : s.mem.wf = true) :
    (writeWindow off data s).mem.wf = true := by
  unfold writeWindow
  try simp only []
  repeat' (first | with_reducible exact h | with_reducible apply State.writeMem_wf | split)

theorem configurationWord_wf (offset : Nat) {s : State} (h : s.mem.wf = true) :
    (configurationWord offset s).2.mem.wf = true := by
  simp only [configurationWord, State.free]
  (repeat' split) <;> first | exact h

theorem resetStop_wf {s : State} (h : s.mem.wf = true) : (resetStop s).mem.wf = true := by
  unfold resetStop
  try simp only []
  repeat' (first | with_reducible exact h | with_reducible apply applyStop_wf | with_reducible apply sendAbort_wf
                 | with_reducible apply startAbort_wf | split)

theorem beginFlr_wf {s : State} (h : s.mem.wf = true) : (beginFlr s).mem.wf = true := by
  unfold beginFlr
  try simp only []
  repeat' (first | with_reducible exact h | with_reducible apply resetStop_wf | with_reducible apply stopComplete_wf
                 | split)

theorem linkDown_wf {s : State} (h : s.mem.wf = true) : (linkDown s).mem.wf = true := by
  unfold linkDown
  try simp only []
  repeat' (first | with_reducible exact h | split)

theorem notePort_wf (n : Nat) (code : Nat) {s : State} (h : s.mem.wf = true) : (notePort n code s).mem.wf = true := by
  unfold notePort
  try simp only []
  repeat' (first | with_reducible exact h | with_reducible apply State.setPort_wf | split)

theorem portDown_wf (n : Nat) (lane : Option Nat) {s : State} (h : s.mem.wf = true) :
    (portDown n lane s).mem.wf = true := by
  unfold portDown
  try simp only []
  repeat' (first | with_reducible exact h | with_reducible apply State.setPort_wf
                 | with_reducible apply countError_wf | with_reducible apply notePort_wf
                 | with_reducible apply raiseAs_wf | with_reducible apply startAbort_wf | split)

theorem takeHeader_wf (n : Nat) (f : Bytes) {s : State} (h : s.mem.wf = true) : (takeHeader n f s).mem.wf = true := by
  unfold takeHeader
  try simp only []
  repeat' (first | with_reducible exact h | with_reducible apply State.setPort_wf | with_reducible apply portDown_wf
                 | with_reducible apply pump_wf | split)

theorem passOn_wf (n : Nat) (f : Bytes) {s : State} (h : s.mem.wf = true) : (passOn n f s).mem.wf = true := by
  unfold passOn
  try simp only []
  repeat' (first | with_reducible exact h | with_reducible apply returnCredit_wf
                 | with_reducible apply sendControl_wf | with_reducible apply sendData_wf | split)

theorem hear_wf (n errors : Nat) (f : Bytes) {s : State} (h : s.mem.wf = true) : (hear n errors f s).2.mem.wf = true :=
  State.setPort_wf _ _ h

theorem deliverFlit_wf (n : Nat) (f : Bytes) (fwd : State → Bool) (act : State → State) {s : State}
    (hact : ∀ u : State, u.mem.wf = true → (act u).mem.wf = true) (h : s.mem.wf = true) :
    (deliverFlit n f fwd act s).mem.wf = true := by
  unfold deliverFlit
  try simp only []
  repeat' (first | with_reducible exact h | with_reducible apply hact | with_reducible apply passOn_wf
                 | with_reducible apply returnCredit_wf | with_reducible apply sendPlain_wf | split)

theorem receive_wf (n op : Nat) (f : Bytes) (errors : Nat) (fwd : State → Bool) (act : State → State) {s : State}
    (hact : ∀ u : State, u.mem.wf = true → (act u).mem.wf = true) (h : s.mem.wf = true) :
    (receive n op f errors fwd act s).mem.wf = true := by
  have hh := hear_wf n errors f h
  simp only [receive]
  repeat' (first | with_reducible exact hh | with_reducible apply hact | with_reducible apply sendPlain_wf
                 | with_reducible apply takeHeader_wf | with_reducible apply deliverFlit_wf
                 | with_reducible apply State.setPort_wf | (intro u h) | with_reducible assumption | split)

theorem hearPlain_wf (n errors : Nat) (f : Bytes) (wanted : Bool) (act : State → State) {s : State}
    (hact : ∀ u : State, u.mem.wf = true → (act u).mem.wf = true) (h : s.mem.wf = true) :
    (hearPlain n errors f wanted act s).mem.wf = true := by
  have hh := hear_wf n errors f h
  simp only [hearPlain]
  repeat' (first | with_reducible exact hh | with_reducible apply hact | with_reducible assumption | split)

theorem sendProbe_wf (l : List Nat) {s : State} (h : s.mem.wf = true) : (sendProbe l s).mem.wf = true := by
  unfold sendProbe
  try simp only []
  repeat' (first | with_reducible exact h | with_reducible apply sendPlain_wf | split)

theorem bringUpPort_wf (n : Nat) {s : State} (h : s.mem.wf = true) : (bringUpPort n s).mem.wf = true := by
  unfold bringUpPort
  try simp only []
  repeat' (first | with_reducible exact h | with_reducible apply State.setPort_wf
                 | with_reducible apply sendPlain_wf | split)

theorem takeIdent_wf (n : Nat) (f : Bytes) (delayNs : Nat) {s : State} (h : s.mem.wf = true) :
    (takeIdent n f delayNs s).mem.wf = true := by
  unfold takeIdent
  try simp only []
  repeat' (first | with_reducible exact h | with_reducible apply State.setPort_wf
                 | with_reducible apply formFails_wf | with_reducible apply notePort_wf
                 | with_reducible apply raiseAs_wf | with_reducible apply sendProbe_wf
                 | (with_reducible apply foldl_memWf; intro s x h) | split)

theorem closeRing_wf (l : List Nat) {s : State} (h : s.mem.wf = true) : (closeRing l s).mem.wf = true := by
  unfold closeRing
  try simp only []
  repeat' (first | with_reducible exact h | with_reducible apply formFails_wf
                 | (with_reducible apply foldl_memWf; intro s x h) | with_reducible apply Mems.wf_putBytes | split)

theorem tryClose_wf {s : State} (h : s.mem.wf = true) : (tryClose s).mem.wf = true := by
  unfold tryClose
  try simp only []
  repeat' (first | with_reducible exact h | with_reducible apply closeRing_wf | split)

theorem takeProbe_wf (f : Bytes) {s : State} (h : s.mem.wf = true) : (takeProbe f s).mem.wf = true := by
  unfold takeProbe
  try simp only []
  repeat' (first | with_reducible exact h | with_reducible apply formFails_wf | with_reducible apply sendProbe_wf
                 | with_reducible apply tryClose_wf | split)

theorem trainingFlit_wf (n : Nat) (f : Bytes) (errors : Nat) (delayNs : Nat) {s : State} (h : s.mem.wf = true) :
    (trainingFlit n f errors delayNs s).mem.wf = true := by
  unfold trainingFlit
  try simp only []
  repeat' (first | with_reducible exact h | with_reducible apply hearPlain_wf | with_reducible apply takeIdent_wf
                 | with_reducible apply takeProbe_wf | (intro u h; try simp only []) | split)

theorem tickDelay_wf (n hops : Nat) {s : State} (h : s.mem.wf = true) : (tickDelay n hops s).2.mem.wf = true := by
  unfold tickDelay
  generalize List.range hops = l
  generalize ns (s.port n).delayNs = d
  induction l generalizing s d with
  | nil => exact h
  | cons x xs ih => rw [List.foldl_cons]; exact ih (free_wf h) _

theorem takeTick_wf (n : Nat) (f : Bytes) {s : State} (h : s.mem.wf = true) : (takeTick n f s).mem.wf = true := by
  unfold takeTick
  simp only []
  repeat' split
  all_goals first
    | with_reducible exact h | with_reducible exact boundary_wf _ (tickDelay_wf n _ h) | with_reducible exact duskStop_wf _ h

theorem takeReady_wf (f : Bytes) {s : State} (h : s.mem.wf = true) : (takeReady f s).mem.wf = true := by
  unfold takeReady
  try simp only []
  repeat' (first | with_reducible exact h | split)

theorem takeAbortFlit_wf (f : Bytes) {s : State} (h : s.mem.wf = true) : (takeAbortFlit f s).mem.wf = true := by
  unfold takeAbortFlit
  try simp only []
  repeat' (first | with_reducible exact h | with_reducible apply applyStop_wf | with_reducible apply raiseAs_wf
                 | with_reducible apply takeAbort_wf | split)

theorem adoptTick_wf (c : Option Nat) {s : State} (h : s.mem.wf = true) : (adoptTick c s).mem.wf = true := by
  unfold adoptTick
  split
  · exact h
  · simp only []
    split
    · exact h
    · split
      · exact h
      · split
        · rename_i e; refine restoreCheckpoint_wf _ _ ?_ e; exact h
        · exact stopJob_wf _ _ (raise_wf _ _ h)

theorem ringRestored_wf {s : State} (h : s.mem.wf = true) : (ringRestored s).mem.wf = true := by
  unfold ringRestored
  try simp only []
  repeat' (first | with_reducible exact h | with_reducible apply adoptTick_wf | with_reducible apply boundary_wf
                 | with_reducible apply complete_wf | with_reducible apply sendBothWays_wf
                 | (with_reducible apply foldl_memWf; intro s x h) | split)

theorem takeResume_wf (f : Bytes) {s : State} (h : s.mem.wf = true) : (takeResume f s).mem.wf = true := by
  unfold takeResume
  try simp only []
  repeat' (first | with_reducible exact h | with_reducible apply adoptTick_wf | split)

theorem takeStart_wf (b : Bytes) {s : State} (h : s.mem.wf = true) : (takeStart b s).mem.wf = true := by
  unfold takeStart
  try simp only []
  repeat' (first | with_reducible exact h | with_reducible apply placeStart_wf | with_reducible apply refuseStart_wf
                 | split)

theorem takeRequest_wf (f : Bytes) {s : State} (h : s.mem.wf = true) : (takeRequest f s).mem.wf = true := by
  unfold takeRequest
  try simp only []
  repeat' (first | with_reducible exact h | with_reducible apply applyStop_wf | with_reducible apply noteEnd_wf
                 | with_reducible apply noteKeys_wf | with_reducible apply noteSplit_wf
                 | with_reducible apply takeStart_wf | split)

theorem writeOut_wf (cx : Access) (o : Out) {s : State} (h : s.mem.wf = true) : (writeOut cx o s).mem.wf = true := by
  unfold writeOut
  try simp only []
  repeat' (first | with_reducible exact h | with_reducible apply writeCode_wf | with_reducible apply writeScale_wf
                 | (with_reducible apply foldl_memWf; intro s x h) | split)

theorem signal_wf (ev : Nat) (core : Nat) (idx : Nat) {s : State} (h : s.mem.wf = true) :
    (signal ev core idx s).mem.wf = true := by
  unfold signal
  try simp only []
  repeat' (first | with_reducible exact h | with_reducible apply commandFault_wf | split)

theorem requestEdge_wf (core : Nat) {s : State} (h : s.mem.wf = true) : (requestEdge core s).mem.wf = true := by
  unfold requestEdge
  try simp only []
  repeat' (first | with_reducible exact h | split)

theorem takeEdge_wf (core : Nat) {s : State} (h : s.mem.wf = true) : (takeEdge core s).mem.wf = true := by
  unfold takeEdge
  try simp only []
  repeat' (first | with_reducible exact h | split)

theorem waitIssue_wf (core : Nat) (c : Bytes) {s : State} (h : s.mem.wf = true) :
    (waitIssue core c s).mem.wf = true := by
  unfold waitIssue
  try simp only []
  repeat' (first | with_reducible exact h | with_reducible apply requestEdge_wf | split)

theorem startGuest_wf (g : Guest) {s : State} (h : s.mem.wf = true) : (startGuest s g).mem.wf = true := by
  unfold startGuest
  try simp only []
  repeat' (first | with_reducible exact h | with_reducible apply requestEdge_wf | with_reducible apply takeEdge_wf
                 | (intro u h; try simp only []) | split)

theorem startGuests_wf {s : State} (h : s.mem.wf = true) : (startGuests s).mem.wf = true := by
  unfold startGuests
  try simp only []
  repeat' (first | with_reducible exact h | with_reducible apply startGuest_wf
                 | (with_reducible apply foldl_memWf; intro s x h) | split)

theorem addGuest_wf (host : Nat) (core : Nat) (place : Nat) (c : Bytes) (arbiter : Bool) {s : State}
    (h : s.mem.wf = true) :
    (addGuest host core place c arbiter s).mem.wf = true := by
  unfold addGuest
  try simp only []
  repeat' (first | with_reducible exact h | split)

theorem selectCirrus_wf (core place : Nat) (c : Bytes) (agreed : Option (Nat × Nat)) {s : State} (h : s.mem.wf = true) :
    (selectCirrus core place c agreed s).2.mem.wf = true := by
  unfold selectCirrus
  repeat' split
  all_goals first
    | with_reducible exact h | with_reducible exact countKind_wf _ h | exact addGuest_wf _ _ _ _ _ h

theorem markIssued_wf (core : Nat) (place : Nat) {s : State} (h : s.mem.wf = true) :
    (markIssued core place s).mem.wf = true := by
  unfold markIssued
  try simp only []
  repeat' (first | with_reducible exact h | with_reducible apply refillBuffer_wf | split)

theorem chargeTensor_wf (core : Nat) (i : Nat) {s : State} (h : s.mem.wf = true) :
    (chargeTensor core s i).mem.wf = true := by
  unfold chargeTensor
  try simp only []
  repeat' (first | with_reducible exact h | with_reducible apply chargeCore_wf | split)

theorem launch_wf (core : Nat) (place : Nat) (c : Bytes) (cx : Access) (w : Work) (complete : Bool) {s : State}
    (h : s.mem.wf = true) :
    (launch core place c cx w complete s).mem.wf = true := by
  unfold launch
  try simp only []
  repeat' (first | with_reducible exact h | with_reducible apply commandFault_wf | with_reducible apply complete_wf
                 | with_reducible apply markIssued_wf | with_reducible apply raise_wf
                 | with_reducible apply startGuests_wf | with_reducible apply takeEdge_wf
                 | with_reducible apply touchEntries_wf | with_reducible apply writeOut_wf
                 | with_reducible apply selectCirrus_wf | (with_reducible apply foldl_memWf; intro s x h) | split)

theorem applyAtomic_wf (op : AtomicOp) (wide : Bool) (addr : Nat) (v : Nat) (cmp : Nat) (result : Option
    (Space × Nat)) {s : State} (h : s.mem.wf = true) :
    (applyAtomic op wide addr v cmp result s).mem.wf = true := by
  unfold applyAtomic
  try simp only []
  repeat' (first | with_reducible exact h | with_reducible apply State.writeMem_wf | split)

theorem contribute_wf (core : Nat) (idx : Nat) (o : OrderedSlot) {s : State} (h : s.mem.wf = true) :
    (contribute core idx o s).mem.wf = true := by
  unfold contribute
  try simp only []
  repeat' (first | with_reducible exact h | with_reducible apply commandFault_wf | split)

theorem applyStaged_wf (r : Run) (e : Staged) {s : State} (h : s.mem.wf = true) :
    (applyStaged r e s).mem.wf = true := by
  unfold applyStaged
  try simp only []
  repeat' (first | with_reducible exact h | with_reducible apply addRequest_wf | with_reducible apply applyAtomic_wf
                 | with_reducible apply contribute_wf | split)

theorem commitOne_wf (r : Run) {s : State} (h : s.mem.wf = true) : (commitOne r s).mem.wf = true := by
  unfold commitOne
  try simp only []
  repeat' (first | with_reducible exact h | with_reducible apply applyStaged_wf | with_reducible apply signal_wf
                 | (with_reducible apply foldl_memWf; intro s x h) | split)

theorem commitRun_wf (r : Run) {s : State} (h : s.mem.wf = true) : (commitRun r s).mem.wf = true := by
  unfold commitRun
  try simp only []
  repeat' (first | with_reducible exact h | with_reducible apply commitOne_wf | with_reducible apply sendReady_wf
                 | split)

theorem commitIfReady_wf (r : Run) {s : State} (h : s.mem.wf = true) : (commitIfReady r s).mem.wf = true := by
  unfold commitIfReady
  try simp only []
  repeat' (first | with_reducible exact h | with_reducible apply commitRun_wf | split)

theorem commitCovered_wf (r : Run) {s : State} (h : s.mem.wf = true) : (commitCovered r s).mem.wf = true := by
  unfold commitCovered
  try simp only []
  repeat' (first | with_reducible exact h | with_reducible apply commitRun_wf
                 | (with_reducible apply foldl_memWf; intro s x h) | split)

theorem cirrusLost_wf (r : Run) {s : State} (h : s.mem.wf = true) : (cirrusLost r s).mem.wf = true := by
  unfold cirrusLost
  try simp only []
  repeat' (first | with_reducible exact h | with_reducible apply levelTwo_wf | split)

theorem finishRun_wf (r : Run) (err : BitVec 64) {s : State} (h : s.mem.wf = true) :
    (finishRun r err s).mem.wf = true := by
  unfold finishRun
  try simp only []
  repeat' (first | with_reducible exact h | with_reducible apply State.setRun_wf
                 | with_reducible apply cirrusLost_wf | with_reducible apply commitCovered_wf
                 | with_reducible apply commitIfReady_wf | with_reducible apply startGuests_wf | split)

theorem finish_wf (core : Nat) (idx : Nat) (err : BitVec 64) {s : State} (h : s.mem.wf = true) :
    (finish core idx err s).mem.wf = true := by
  unfold finish
  try simp only []
  repeat' (first | with_reducible exact h | with_reducible apply finishRun_wf | split)

theorem deadlinePassed_wf (core : Nat) (idx : Nat) {s : State} (h : s.mem.wf = true) :
    (deadlinePassed core idx s).mem.wf = true := by
  unfold deadlinePassed
  try simp only []
  repeat' (first | with_reducible exact h | with_reducible apply commandFault_wf
                 | with_reducible apply startAbort_wf | split)

theorem beginArbitration_wf (r : Run) (d0 : Nat × Nat) (d1 : Nat × Nat) {s : State} (h : s.mem.wf = true) :
    (beginArbitration r d0 d1 s).mem.wf = true := by
  unfold beginArbitration
  try simp only []
  repeat' (first | with_reducible exact h | with_reducible apply State.setRun_wf | with_reducible apply addGuest_wf
                 | with_reducible apply countKind_wf | with_reducible apply enterSquall_wf
                 | with_reducible apply raiseAs_wf | with_reducible apply startGuests_wf | split)

theorem endGuests_wf (r : Run) {s : State} (h : s.mem.wf = true) : (endGuests r s).mem.wf = true := by
  unfold endGuests
  try simp only []
  repeat' (first | with_reducible exact h | with_reducible apply dropGuests_wf | with_reducible apply startGuests_wf
                 | split)

theorem compareDigests_wf (core : Nat) (idx : Nat) (err : BitVec 64) {s : State} (h : s.mem.wf = true) :
    (compareDigests core idx err s).mem.wf = true := by
  unfold compareDigests
  try simp only []
  repeat' (first | with_reducible exact h | with_reducible apply State.setRun_wf
                 | with_reducible apply beginArbitration_wf | with_reducible apply commitIfReady_wf
                 | with_reducible apply countKind_wf | with_reducible apply endGuests_wf | split)

theorem arbitrate_wf (core : Nat) (idx : Nat) (err : BitVec 64) {s : State} (h : s.mem.wf = true) :
    (arbitrate core idx err s).mem.wf = true := by
  unfold arbitrate
  try simp only []
  repeat' (first | with_reducible exact h | with_reducible apply State.setRun_wf
                 | with_reducible apply cirrusLost_wf | with_reducible apply commitIfReady_wf
                 | with_reducible apply countError_wf | with_reducible apply endGuests_wf
                 | with_reducible apply killRun_wf | with_reducible apply startAbort_wf | split)

theorem parityFault_wf (core : Nat) (idx : Nat) (duplicate : Bool) {s : State} (h : s.mem.wf = true) :
    (parityFault core idx duplicate s).mem.wf = true := by
  unfold parityFault
  try simp only []
  repeat' (first | with_reducible exact h | with_reducible apply State.setRun_wf
                 | with_reducible apply commitIfReady_wf | with_reducible apply countError_wf
                 | with_reducible apply countKind_wf | with_reducible apply endGuests_wf
                 | with_reducible apply levelOne_wf | split)

theorem control_wf (op : Nat) (core : Nat) {s : State} (h : s.mem.wf = true) : (control op core s).mem.wf = true := by
  unfold control
  try simp only []
  repeat' (first | with_reducible exact h | with_reducible apply finish_wf | with_reducible apply launch_wf | split)

theorem setTransfer_wf (t : Transfer) {s : State} (h : s.mem.wf = true) : (setTransfer t s).mem.wf = true := by
  unfold setTransfer
  try simp only []
  repeat' (first | with_reducible exact h | split)

theorem sendMessage_wf (op : Nat) (c : Bytes) (dst : Nat) (b : Bytes) {s : State} (h : s.mem.wf = true) :
    (sendMessage op c dst b s).mem.wf = true := by
  unfold sendMessage
  try simp only []
  repeat' (first | with_reducible exact h | with_reducible apply sendData_wf
                 | (with_reducible apply foldl_memWf; intro s x h) | split)

theorem sendCollControl_wf (op : Nat) (c : Bytes) (dst : Nat) (payload : Bytes) {s : State} (h : s.mem.wf = true) :
    (sendCollControl op c dst payload s).mem.wf = true := by
  unfold sendCollControl
  try simp only []
  repeat' (first | with_reducible exact h | with_reducible apply sendControl_wf | split)

theorem setLocalDone_wf (c : Bytes) {s : State} (h : s.mem.wf = true) : (setLocalDone c s).mem.wf = true := by
  unfold setLocalDone
  try simp only []
  repeat' (first | with_reducible exact h | with_reducible apply setTransfer_wf | split)

theorem mmFinish_wf (core : Nat) (c : Bytes) {s : State} (h : s.mem.wf = true) : (mmFinish core c s).mem.wf = true := by
  unfold mmFinish
  try simp only []
  repeat' (first | with_reducible exact h | with_reducible apply commandFault_wf
                 | with_reducible apply setLocalDone_wf | with_reducible apply writeOut_wf
                 | (with_reducible apply foldl_memWf; intro s x h) | split)

theorem moveLocal_wf (core : Nat) (c : Bytes) {s : State} (h : s.mem.wf = true) :
    (moveLocal core c s).mem.wf = true := by
  unfold moveLocal
  try simp only []
  repeat' (first | with_reducible exact h | with_reducible apply setLocalDone_wf | with_reducible apply writeOut_wf
                 | (with_reducible apply foldl_memWf; intro s x h) | split)

theorem progressSend_wf (core : Nat) (c : Bytes) (q : Nat × Nat) {s : State} (h : s.mem.wf = true) :
    (progressSend core c q s).mem.wf = true := by
  unfold progressSend
  try simp only []
  repeat' (first | with_reducible exact h | with_reducible apply sendMessage_wf
                 | with_reducible apply setTransfer_wf | split)

theorem landData_wf (core : Nat) (c : Bytes) (q : Nat × Nat) {s : State} (h : s.mem.wf = true) :
    (landData core c q s).mem.wf = true := by
  unfold landData
  simp only []
  split
  · exact writeOut_wf _ _ h
  · have step : ∀ (f : State × Nat → Tensor × Tensor → State × Nat) (l : List (Tensor × Tensor)) (p : State × Nat),
        (∀ p x, p.1.mem.wf = true → (f p x).1.mem.wf = true) → p.1.mem.wf = true → (l.foldl f p).1.mem.wf = true := by
      intro f l
      induction l with
      | nil => intro p _ hp; exact hp
      | cons x xs ih => intro p hf hp; exact ih _ hf (hf p x hp)
    exact step _ _ _ (fun p x hp => writeOut_wf _ _ hp) h

theorem progressReceive_wf (core : Nat) (c : Bytes) (q : Nat × Nat) {s : State} (h : s.mem.wf = true) :
    (progressReceive core c q s).mem.wf = true := by
  unfold progressReceive
  try simp only []
  repeat' (first | with_reducible exact h | with_reducible apply landData_wf
                 | with_reducible apply sendCollControl_wf | with_reducible apply setTransfer_wf | split)

theorem progress_wf (r : Run) {s : State} (h : s.mem.wf = true) : (progress r s).mem.wf = true := by
  unfold progress
  try simp only []
  repeat' (first | with_reducible exact h | with_reducible apply State.setRun_wf | with_reducible apply mmFinish_wf
                 | with_reducible apply progressReceive_wf | with_reducible apply progressSend_wf
                 | (with_reducible apply foldl_memWf; intro s x h) | split)

theorem chargeLink_wf (i : Nat) {s : State} (h : s.mem.wf = true) : (chargeLink s i).mem.wf = true := by
  unfold chargeLink
  try simp only []
  repeat' (first | with_reducible exact h | with_reducible apply chargeHbm_wf | split)

theorem takeClear_wf (f : Bytes) {s : State} (h : s.mem.wf = true) : (takeClear f s).mem.wf = true := by
  unfold takeClear
  try simp only []
  repeat' (first | with_reducible exact h | with_reducible apply progress_wf | with_reducible apply setTransfer_wf
                 | split)

theorem takeColl_wf (change : Transfer → Transfer) (f : Bytes) {s : State} (h : s.mem.wf = true) :
    (takeColl change f s).mem.wf = true := by
  unfold takeColl
  try simp only []
  repeat' (first | with_reducible exact h | with_reducible apply progress_wf | with_reducible apply setTransfer_wf
                 | split)

theorem setDynamic_wf (target : Target) (address : BitVec 7) {s : State} (h : s.mem.wf = true) :
    (setDynamic target address s).mem.wf = true := by
  unfold setDynamic
  try simp only []
  repeat' (first | with_reducible exact h | split)

theorem answer_wf (target : Target) (b : Bytes) {s : State} (h : s.mem.wf = true) :
    (answer target b s).mem.wf = true := by
  unfold answer
  try simp only []
  repeat' (first | with_reducible exact h | split)

theorem dropRecord_wf {s : State} (h : s.mem.wf = true) : (dropRecord s).mem.wf = true := by
  unfold dropRecord
  try simp only []
  repeat' (first | with_reducible exact h | split)

theorem dawnRaise_wf (code : Nat) (arg : Nat) {s : State} (h : s.mem.wf = true) :
    (dawnRaise code arg s).mem.wf = true := by
  unfold dawnRaise
  try simp only []
  repeat' (first | with_reducible exact h | with_reducible apply raise_wf | split)

theorem dawnEclipse_wf (code : Nat) (arg : Nat) {s : State} (h : s.mem.wf = true) :
    (dawnEclipse code arg s).mem.wf = true := by
  unfold dawnEclipse
  try simp only []
  repeat' (first | with_reducible exact h | with_reducible apply dawnRaise_wf | with_reducible apply eclipseState_wf
                 | split)

theorem dawnStep_wf (f : State → State) {s : State} (hf : ∀ u : State, u.mem.wf = true → (f u).mem.wf = true)
    (h : s.mem.wf = true) :
    (dawnStep f s).mem.wf = true := by
  unfold dawnStep
  try simp only []
  repeat' (first | with_reducible exact h | with_reducible apply hf | split)

theorem writeMarks_wf (kind : Nat) (pending : Bool) (tries : Bool) {s : State} (h : s.mem.wf = true) :
    (writeMarks kind pending tries s).mem.wf = true := by
  unfold writeMarks
  try simp only []
  repeat' (first | with_reducible exact h | with_reducible apply writeBoot_wf | split)

theorem beginTrial_wf (kind : Nat) {s : State} (h : s.mem.wf = true) : (beginTrial kind s).mem.wf = true := by
  unfold beginTrial
  try simp only []
  repeat' (first | with_reducible exact h | with_reducible apply dawnRaise_wf | with_reducible apply writeMarks_wf
                 | split)

theorem slotVerifies_wf (kind slot : Nat) {s : State} (h : s.mem.wf = true) :
    (slotVerifies kind slot s).2.mem.wf = true := by
  simp only [slotVerifies]
  generalize (!verifyImage _ _ _ _) = a
  generalize (kind == 1 && _) = b
  cases a <;> cases b
  · exact h
  · exact dawnRaise_wf _ _ h
  · exact h
  · exact h

theorem activeSlot_wf (kind : Nat) (other : Bool) {s : State} (h : s.mem.wf = true) :
    (activeSlot kind other s).2.mem.wf = true := by
  simp only [activeSlot]
  split
  · exact slotVerifies_wf _ _ h
  · split
    · split
      · exact dawnRaise_wf _ _ (slotVerifies_wf _ _ (slotVerifies_wf _ _ h))
      · exact slotVerifies_wf _ _ (slotVerifies_wf _ _ h)
    · exact slotVerifies_wf _ _ h

theorem chooseSlot_wf (kind : Nat) (trial : Bool) {s : State} (h : s.mem.wf = true) :
    (chooseSlot kind trial s).2.mem.wf = true := by
  simp only [chooseSlot]
  split
  · have h1 := slotVerifies_wf kind (1 - (bootRecord s.flash).slot kind) h
    split
    · rename_i heq; rw [heq] at h1; exact h1
    · rename_i u heq
      rw [heq] at h1
      exact activeSlot_wf _ _ (dawnRaise_wf _ _ (writeMarks_wf kind false false h1))
  · exact activeSlot_wf _ _ h

theorem recoveryBoot_wf (puf : Bytes) {s : State} (h : s.mem.wf = true) : (recoveryBoot puf s).mem.wf = true := by
  unfold recoveryBoot
  try simp only []
  repeat' (first | with_reducible exact h | with_reducible apply dawnRaise_wf | split)

theorem pickFirmware_wf (trial : Bool) (puf : Bytes) {s : State} (h : s.mem.wf = true) :
    (pickFirmware trial puf s).mem.wf = true := by
  unfold pickFirmware
  replace h := chooseSlot_wf 0 trial h
  split <;> rename_i heq <;> rw [heq] at h <;> repeat' (first | with_reducible exact h | with_reducible apply recoveryBoot_wf | split)

theorem pickPlanImage_wf (trial : Bool) {s : State} (h : s.mem.wf = true) : (pickPlanImage trial s).mem.wf = true := by
  unfold pickPlanImage
  replace h := chooseSlot_wf 1 trial h
  split <;> rename_i heq <;> rw [heq] at h <;> repeat' (first | with_reducible exact h | with_reducible apply dawnRaise_wf | split)

theorem checkSafety_wf {s : State} (h : s.mem.wf = true) : (checkSafety s).mem.wf = true := by
  unfold checkSafety
  try simp only []
  repeat' (first | with_reducible exact h | with_reducible apply dawnEclipse_wf | split)

theorem deriveIdentity_wf (puf : Bytes) {s : State} (h : s.mem.wf = true) : (deriveIdentity puf s).mem.wf = true := by
  unfold deriveIdentity
  try simp only []
  repeat' (first | with_reducible exact h | with_reducible apply dawnEclipse_wf | with_reducible apply dawnRaise_wf
                 | split)

theorem checkCounters_wf (ok : Bool) {s : State} (h : s.mem.wf = true) : (checkCounters ok s).mem.wf = true := by
  unfold checkCounters
  try simp only []
  repeat' (first | with_reducible exact h | with_reducible apply dawnEclipse_wf | split)

theorem retried_wf (step : Nat) (failures : Nat) (code : Nat) (arg : Nat) {s : State} (h : s.mem.wf = true) :
    (retried step failures code arg s).mem.wf = true := by
  unfold retried
  try simp only []
  repeat' (first | with_reducible exact h | with_reducible apply dawnEclipse_wf | with_reducible apply dawnRaise_wf
                 | split)

theorem trainMemory_wf (failures : Nat) {s : State} (h : s.mem.wf = true) : (trainMemory failures s).mem.wf = true := by
  unfold trainMemory
  try simp only []
  repeat' (first | with_reducible exact h | with_reducible apply dawnStep_wf | with_reducible apply retried_wf
                 | (intro u h; try simp only []) | split)

theorem admitPlan_wf (cx : LoadContext) (raws : List Bytes) (i : Nat) {s : State} (h : s.mem.wf = true) :
    (admitPlan cx raws s i).mem.wf = true := by
  unfold admitPlan
  try simp only []
  repeat' (first | with_reducible exact h | with_reducible apply dawnRaise_wf
                 | (with_reducible apply foldl_memWf; intro s x h) | split)

theorem admitPlans_wf {s : State} (h : s.mem.wf = true) : (admitPlans s).mem.wf = true := by
  unfold admitPlans
  try simp only []
  repeat' (first | with_reducible exact h | with_reducible apply admitPlan_wf
                 | (with_reducible apply foldl_memWf; intro s x h) | split)

theorem copyBody_wf {s : State} (h : s.mem.wf = true) : (copyBody s).mem.wf = true := by
  unfold copyBody
  try simp only []
  repeat' (first | with_reducible exact h | with_reducible apply State.writeMem_wf | split)

theorem copyContents_wf {s : State} (h : s.mem.wf = true) : (copyContents s).mem.wf = true := by
  unfold copyContents
  try simp only []
  repeat' (first | with_reducible exact h | with_reducible apply State.writeMem_wf
                 | (with_reducible apply foldl_memWf; intro s x h) | split)

theorem pinFill_wf (entry : Nat) {s : State} (h : s.mem.wf = true) : (pinFill s entry).mem.wf = true := by
  unfold pinFill
  try simp only []
  repeat' (first | with_reducible exact h | with_reducible apply beginFill_wf | with_reducible apply endFill_wf
                 | with_reducible apply free_wf | split)

theorem fillPinned_wf {s : State} (h : s.mem.wf = true) : (fillPinned s).mem.wf = true := by
  unfold fillPinned
  try simp only []
  repeat' (first | with_reducible exact h | with_reducible apply dawnStep_wf | with_reducible apply fillBuckets_wf
                 | with_reducible apply pinFill_wf | (with_reducible apply foldl_memWf; intro s x h)
                 | (intro u h; try simp only []) | split)

theorem loadTables_wf (ok : Bool) {s : State} (h : s.mem.wf = true) : (loadTables ok s).mem.wf = true := by
  unfold loadTables
  try simp only []
  repeat' (first | with_reducible exact h | with_reducible apply dawnRaise_wf | with_reducible apply swapBanks_wf
                 | with_reducible apply writeInactive_wf | split)

theorem newTrackers_wf {s : State} (h : s.mem.wf = true) : (newTrackers s).mem.wf = true := by
  unfold newTrackers
  try simp only []
  repeat' (first | with_reducible exact h | split)

theorem loadPlans_wf (tablesOk : Bool) {s : State} (h : s.mem.wf = true) : (loadPlans tablesOk s).mem.wf = true := by
  unfold loadPlans
  try simp only []
  repeat' (first | with_reducible exact h | with_reducible apply admitPlans_wf | with_reducible apply copyBody_wf
                 | with_reducible apply copyContents_wf | with_reducible apply fillPinned_wf
                 | with_reducible apply loadTables_wf | with_reducible apply newTrackers_wf | split)

theorem readHistory_wf (bad : Bool) {s : State} (h : s.mem.wf = true) : (readHistory bad s).mem.wf = true := by
  unfold readHistory
  try simp only []
  repeat' (first | with_reducible exact h | split)

theorem judgeHistory_wf (bad : Bool) {s : State} (h : s.mem.wf = true) : (judgeHistory bad s).mem.wf = true := by
  unfold judgeHistory
  try simp only []
  repeat' (first | with_reducible exact h | with_reducible apply dawnEclipse_wf | with_reducible apply dawnRaise_wf
                 | split)

theorem advanceBoot_wf {s : State} (h : s.mem.wf = true) : (advanceBoot s).mem.wf = true := by
  unfold advanceBoot
  try simp only []
  repeat' (first | with_reducible exact h | with_reducible apply writeBoot_wf | split)

theorem raiseCounters_wf {s : State} (h : s.mem.wf = true) : (raiseCounters s).mem.wf = true := by
  unfold raiseCounters
  try simp only []
  repeat' (first | with_reducible exact h | split)

theorem formRing_wf (i : DawnInput) {s : State} (h : s.mem.wf = true) : (formRing i s).mem.wf = true := by
  unfold formRing
  try simp only []
  repeat' (first | with_reducible exact h | with_reducible apply bringUpPort_wf
                 | with_reducible apply trainingFlit_wf | (with_reducible apply foldl_memWf; intro s x h) | split)

theorem passDawn_wf {s : State} (h : s.mem.wf = true) : (passDawn s).mem.wf = true := by
  unfold passDawn
  try simp only []
  repeat' (first | with_reducible exact h | with_reducible apply advanceBoot_wf
                 | with_reducible apply raiseCounters_wf | split)

theorem powerRails_wf (ga : BitVec 4) {s : State} (h : s.mem.wf = true) : (powerRails ga s).mem.wf = true := by
  unfold powerRails
  try simp only []
  repeat' (first | with_reducible exact h | split)

theorem drawKey_wf {s : State} (h : s.mem.wf = true) : (drawKey s).mem.wf = true := by
  unfold drawKey
  try simp only []
  repeat' (first | with_reducible exact h | with_reducible apply free_wf | split)

theorem bootImages_wf (puf : Bytes) {s : State} (h : s.mem.wf = true) : (bootImages puf s).mem.wf = true := by
  unfold bootImages
  try simp only []
  repeat' (first | with_reducible exact h | with_reducible apply beginTrial_wf | with_reducible apply checkSafety_wf
                 | with_reducible apply dawnStep_wf | with_reducible apply pickFirmware_wf
                 | with_reducible apply pickPlanImage_wf | (intro u h; try simp only []) | split)

theorem bringUp_wf (i : DawnInput) {s : State} (h : s.mem.wf = true) : (bringUp i s).mem.wf = true := by
  unfold bringUp
  try simp only []
  repeat' (first | with_reducible exact h | with_reducible apply bootImages_wf
                 | with_reducible apply checkCounters_wf | with_reducible apply dawnStep_wf
                 | with_reducible apply deriveIdentity_wf | with_reducible apply drawKey_wf
                 | with_reducible apply formRing_wf | with_reducible apply judgeHistory_wf
                 | with_reducible apply loadPlans_wf | with_reducible apply passDawn_wf
                 | with_reducible apply powerRails_wf | with_reducible apply readHistory_wf
                 | with_reducible apply retried_wf | with_reducible apply trainMemory_wf
                 | (intro u h; try simp only []) | split)

theorem reportTrips_wf {s : State} (h : s.mem.wf = true) : (reportTrips s).mem.wf = true := by
  unfold reportTrips
  try simp only []
  repeat' (first | with_reducible exact h | with_reducible apply raise_wf
                 | (with_reducible apply foldl_memWf; intro s x h) | split)

theorem coldDawn_wf (i : DawnInput) {s : State} (h : s.mem.wf = true) : (coldDawn i s).mem.wf = true := by
  unfold coldDawn
  try simp only []
  repeat' (first | with_reducible exact h | with_reducible apply bringUp_wf | with_reducible apply reportTrips_wf
                 | with_reducible apply trip_wf | split)

theorem dawnOverrun_wf (step : Nat) {s : State} (h : s.mem.wf = true) : (dawnOverrun step s).mem.wf = true := by
  unfold dawnOverrun
  try simp only []
  repeat' (first | with_reducible exact h | with_reducible apply coldReset_wf | with_reducible apply dawnEclipse_wf
                 | split)

theorem missedRecords_wf (n : Nat) {s : State} (h : s.mem.wf = true) : (missedRecords n s).mem.wf = true := by
  induction n generalizing s with
  | zero => exact h
  | succ n ih =>
    simp only [missedRecords]
    split
    · exact ih (deliver_wf h)
    · exact h

theorem passWarm_wf {s : State} (h : s.mem.wf = true) : (passWarm s).mem.wf = true := by
  unfold passWarm
  try simp only []
  repeat' (first | with_reducible exact h | with_reducible apply drawKey_wf
                 | with_reducible apply endComputeReset_wf | with_reducible apply endReset_wf
                 | with_reducible apply loadBank_wf | with_reducible apply missedRecords_wf | split)

theorem warmDawn_wf (selfTestOk : Bool) (tablesOk : Bool) {s : State} (h : s.mem.wf = true) :
    (warmDawn selfTestOk tablesOk s).mem.wf = true := by
  unfold warmDawn
  try simp only []
  repeat' (first | with_reducible exact h | with_reducible apply coldReset_wf | with_reducible apply passWarm_wf
                 | split)

theorem issue_wf {core : Nat} {host : Bytes} {asked : Bytes → Bool} {tensors : State → Bytes → List Nat}
    {work : Access → Bytes → State → Work} {s t : State} (hs : s.mem.wf = true)
    (h : issue core host asked tensors work s = .next t) : t.mem.wf = true := by
  unfold issue at h
  simp only [] at h
  repeat' split at h
  all_goals first | cases h | skip
  · exact hs
  · exact hs
  · exact waitIssue_wf _ _ hs
  · exact launch_wf _ _ _ _ _ _ (foldl_memWf _ _ (fun _ _ h => chargeTensor_wf _ _ h) hs)

theorem issueColl_wf {asked : Bytes → Bool} {core : Nat} {s t : State} (hs : s.mem.wf = true)
    (h : issueColl asked core s = .next t) : t.mem.wf = true := by
  unfold issueColl at h
  simp only [] at h
  repeat' split at h
  all_goals first | cases h | skip
  all_goals
    repeat' (first | with_reducible assumption | with_reducible apply waitIssue_wf | with_reducible apply progress_wf
                   | with_reducible apply launch_wf | with_reducible apply moveLocal_wf
                   | with_reducible apply sendCollControl_wf | with_reducible apply chargeLink_wf
                   | (with_reducible apply foldl_memWf; intro s x h) | split)

end Sys2Proof.Machine
end

