-- ==== Sys2Proof/Laws/Events.lean ====
section
/-! SUPPORT. What reporting leaves alone: raising an event, answering a request and publishing an entry touch the host
interface, the host memory and the sideband queue only, beside the registers that hold the latest codes. -/

namespace Sys2Proof.Machine

/-- Every part of the state that an entry written to the host leaves alone. -/
def State.still (s : State) :=
  (s.pending, s.now, s.tick, s.job, s.compute, s.tier, s.media, s.link, s.flash, s.dawn, s.integrity, s.nimbus, s.stratus,
    s.mem.hbm, s.mem.cache, s.mem.scratch, s.mem.acc, s.mem.halo, s.mem.store, s.host.log)

/-- Every part of the state that an event leaves alone. -/
def State.calm (s : State) :=
  (s.pending, s.now, s.tick, s.compute, s.tier, s.media, s.link, s.flash, s.dawn, s.nimbus, s.stratus,
    s.mem.hbm, s.mem.cache, s.mem.scratch, s.mem.acc, s.mem.halo, s.mem.store)

theorem calm_of_still {s t : State} (h : t.still = s.still) : t.calm = s.calm := by
  simp only [State.still, Prod.mk.injEq] at h
  simp only [State.calm, h]

@[simp] theorem State.produce_still (s : State) (n : Nat) (b : Bytes) : (s.produce n b).still = s.still := rfl

theorem writeHost_still (s : State) (a : Nat) (b : Bytes) : (s.writeMem .host a b).still = s.still := rfl

@[simp] theorem State.publish_still (s : State) (v : Option Nat) : (s.publish v).still = s.still := by
  unfold State.publish
  generalize s.statusPage = p
  cases v <;> (split <;> simp only [State.still, State.writeMem, Mems.put])

theorem drainEvents_still (n : Nat) (s : State) : (drainEvents n s).still = s.still := by
  induction n generalizing s with
  | zero => rfl
  | succ n ih =>
    unfold drainEvents
    cases s.host.evQueue with
    | nil => rfl
    | cons e rest =>
      simp only []
      split
      · rw [ih, State.publish_still, State.produce_still]; rfl
      · rfl

theorem drainResponses_still (n : Nat) (s : State) : (drainResponses n s).still = s.still := by
  induction n generalizing s with
  | zero => rfl
  | succ n ih =>
    unfold drainResponses
    cases s.host.responses with
    | nil => rfl
    | cons b rest =>
      simp only []
      split
      · rw [ih, State.publish_still, State.produce_still]; rfl
      · rfl

theorem respond_still (req : Bytes) (status : Nat) (body : Bytes) (s : State) :
    (respond req status body s).still = s.still := by
  unfold respond
  exact drainResponses_still ..

/-- The event that `emit` enters in the log. -/
theorem emit_log (code severity source arg : Nat) (oob : Bool) (s : State) :
    (emit code severity source arg oob s).host.log
      = (⟨code, severity, source, oob, s.host.nextSeq, toNs s.now, s.eventTick, arg⟩ :: s.host.log).take 256 := by
  unfold emit
  have h := drainEvents_still 1025
  simp only [State.still, Prod.mk.injEq] at h
  simp only [h]

theorem emit_calm (code severity source arg : Nat) (oob : Bool) (s : State) :
    (emit code severity source arg oob s).calm = s.calm := by
  unfold emit
  exact (calm_of_still (drainEvents_still ..)).trans rfl

theorem emit_job (code severity source arg : Nat) (oob : Bool) (s : State) :
    (emit code severity source arg oob s).job = s.job := by
  unfold emit
  have h := drainEvents_still 1025
  simp only [State.still, Prod.mk.injEq] at h
  simp only [h]

theorem emit_integrity (code severity source arg : Nat) (oob : Bool) (s : State) :
    (emit code severity source arg oob s).integrity = s.integrity := by
  unfold emit
  have h := drainEvents_still 1025
  simp only [State.still, Prod.mk.injEq] at h
  simp only [h]

theorem reportDropped_calm (s : State) : (reportDropped s).calm = s.calm := by
  unfold reportDropped
  split
  · exact (emit_calm ..).trans rfl
  · rfl

@[simp] theorem reportDropped_job (s : State) : (reportDropped s).job = s.job := by
  unfold reportDropped
  split
  · exact emit_job ..
  · rfl

@[simp] theorem reportDropped_integrity (s : State) : (reportDropped s).integrity = s.integrity := by
  unfold reportDropped
  split
  · exact emit_integrity ..
  · rfl

theorem raiseAs_calm (code : Nat) (alt : Bool) (d : Source) (oob : Bool) (arg : Nat) (s : State) :
    (raiseAs code alt d oob arg s).calm = s.calm := by
  unfold raiseAs State.free
  simp only []
  rw [emit_calm]
  split <;> split <;> exact (Eq.trans rfl (reportDropped_calm s))

/-- The registers that hold the latest job code and the latest integrity code. -/
theorem raiseAs_job (code : Nat) (alt : Bool) (d : Source) (oob : Bool) (arg : Nat) (s : State) :
    (raiseAs code alt d oob arg s).job
      = if code / 256 == 0x19 || (code == 0x1803 && alt) then { s.job with lastCode := code } else s.job := by
  unfold raiseAs State.free
  simp only []
  rw [emit_job]
  split <;> split <;> simp

theorem raiseAs_integrity (code : Nat) (alt : Bool) (d : Source) (oob : Bool) (arg : Nat) (s : State) :
    (raiseAs code alt d oob arg s).integrity
      = if code / 4096 == 4 then { s.integrity with lastCode := code } else s.integrity := by
  unfold raiseAs State.free
  simp only []
  rw [emit_integrity]
  split <;> split <;> simp

/-- The newest entry of the log after an event is that event. -/
@[simp] theorem raiseAs_newest (code : Nat) (alt : Bool) (d : Source) (oob : Bool) (arg : Nat) (s : State) :
    (raiseAs code alt d oob arg s).host.log.head?.map (·.code) = some code := by
  unfold raiseAs
  simp only [emit_log]
  rfl

@[simp] theorem raise_newest (code arg : Nat) (s : State) :
    (raise code arg s).host.log.head?.map (·.code) = some code := raiseAs_newest ..

@[simp] theorem raise_phase (code arg : Nat) (s : State) : (raise code arg s).job.phase = s.job.phase := by
  unfold raise
  rw [raiseAs_job]
  split <;> rfl

@[simp] theorem raiseAs_phase (code : Nat) (alt : Bool) (d : Source) (oob : Bool) (arg : Nat) (s : State) :
    (raiseAs code alt d oob arg s).job.phase = s.job.phase := by
  rw [raiseAs_job]
  split <;> rfl

theorem raise_job {code : Nat} (h : (code / 256 == 0x19) = false) (arg : Nat) (s : State) :
    (raise code arg s).job = s.job := by
  unfold raise
  rw [raiseAs_job, h]
  simp

theorem raise_integrity {code : Nat} (h : (code / 4096 == 4) = false) (arg : Nat) (s : State) :
    (raise code arg s).integrity = s.integrity := by
  unfold raise
  rw [raiseAs_integrity, h]
  rfl

@[simp] theorem raiseAs_pending (code : Nat) (alt : Bool) (d : Source) (oob : Bool) (arg : Nat) (s : State) :
    (raiseAs code alt d oob arg s).pending = s.pending := by
  have h := raiseAs_calm code alt d oob arg s
  simp only [State.calm, Prod.mk.injEq] at h
  exact h.1

@[simp] theorem raiseAs_now (code : Nat) (alt : Bool) (d : Source) (oob : Bool) (arg : Nat) (s : State) :
    (raiseAs code alt d oob arg s).now = s.now := by
  have h := raiseAs_calm code alt d oob arg s
  simp only [State.calm, Prod.mk.injEq] at h
  exact h.2.1

@[simp] theorem raiseAs_tick (code : Nat) (alt : Bool) (d : Source) (oob : Bool) (arg : Nat) (s : State) :
    (raiseAs code alt d oob arg s).tick = s.tick := by
  have h := raiseAs_calm code alt d oob arg s
  simp only [State.calm, Prod.mk.injEq] at h
  exact h.2.2.1

@[simp] theorem raiseAs_compute (code : Nat) (alt : Bool) (d : Source) (oob : Bool) (arg : Nat) (s : State) :
    (raiseAs code alt d oob arg s).compute = s.compute := by
  have h := raiseAs_calm code alt d oob arg s
  simp only [State.calm, Prod.mk.injEq] at h
  exact h.2.2.2.1

@[simp] theorem raiseAs_tier (code : Nat) (alt : Bool) (d : Source) (oob : Bool) (arg : Nat) (s : State) :
    (raiseAs code alt d oob arg s).tier = s.tier := by
  have h := raiseAs_calm code alt d oob arg s
  simp only [State.calm, Prod.mk.injEq] at h
  exact h.2.2.2.2.1

@[simp] theorem raiseAs_media (code : Nat) (alt : Bool) (d : Source) (oob : Bool) (arg : Nat) (s : State) :
    (raiseAs code alt d oob arg s).media = s.media := by
  have h := raiseAs_calm code alt d oob arg s
  simp only [State.calm, Prod.mk.injEq] at h
  exact h.2.2.2.2.2.1

@[simp] theorem raiseAs_link (code : Nat) (alt : Bool) (d : Source) (oob : Bool) (arg : Nat) (s : State) :
    (raiseAs code alt d oob arg s).link = s.link := by
  have h := raiseAs_calm code alt d oob arg s
  simp only [State.calm, Prod.mk.injEq] at h
  exact h.2.2.2.2.2.2.1

@[simp] theorem raiseAs_flash (code : Nat) (alt : Bool) (d : Source) (oob : Bool) (arg : Nat) (s : State) :
    (raiseAs code alt d oob arg s).flash = s.flash := by
  have h := raiseAs_calm code alt d oob arg s
  simp only [State.calm, Prod.mk.injEq] at h
  exact h.2.2.2.2.2.2.2.1

@[simp] theorem raiseAs_dawn (code : Nat) (alt : Bool) (d : Source) (oob : Bool) (arg : Nat) (s : State) :
    (raiseAs code alt d oob arg s).dawn = s.dawn := by
  have h := raiseAs_calm code alt d oob arg s
  simp only [State.calm, Prod.mk.injEq] at h
  exact h.2.2.2.2.2.2.2.2.1

@[simp] theorem raiseAs_nimbus (code : Nat) (alt : Bool) (d : Source) (oob : Bool) (arg : Nat) (s : State) :
    (raiseAs code alt d oob arg s).nimbus = s.nimbus := by
  have h := raiseAs_calm code alt d oob arg s
  simp only [State.calm, Prod.mk.injEq] at h
  exact h.2.2.2.2.2.2.2.2.2.1

@[simp] theorem raiseAs_stratus (code : Nat) (alt : Bool) (d : Source) (oob : Bool) (arg : Nat) (s : State) :
    (raiseAs code alt d oob arg s).stratus = s.stratus := by
  have h := raiseAs_calm code alt d oob arg s
  simp only [State.calm, Prod.mk.injEq] at h
  exact h.2.2.2.2.2.2.2.2.2.2.1

@[simp] theorem raiseAs_hbm (code : Nat) (alt : Bool) (d : Source) (oob : Bool) (arg : Nat) (s : State) :
    (raiseAs code alt d oob arg s).mem.hbm = s.mem.hbm := by
  have h := raiseAs_calm code alt d oob arg s
  simp only [State.calm, Prod.mk.injEq] at h
  exact h.2.2.2.2.2.2.2.2.2.2.2.1

@[simp] theorem raiseAs_cache (code : Nat) (alt : Bool) (d : Source) (oob : Bool) (arg : Nat) (s : State) :
    (raiseAs code alt d oob arg s).mem.cache = s.mem.cache := by
  have h := raiseAs_calm code alt d oob arg s
  simp only [State.calm, Prod.mk.injEq] at h
  exact h.2.2.2.2.2.2.2.2.2.2.2.2.1

@[simp] theorem raiseAs_scratch (code : Nat) (alt : Bool) (d : Source) (oob : Bool) (arg : Nat) (s : State) :
    (raiseAs code alt d oob arg s).mem.scratch = s.mem.scratch := by
  have h := raiseAs_calm code alt d oob arg s
  simp only [State.calm, Prod.mk.injEq] at h
  exact h.2.2.2.2.2.2.2.2.2.2.2.2.2.1

@[simp] theorem raiseAs_acc (code : Nat) (alt : Bool) (d : Source) (oob : Bool) (arg : Nat) (s : State) :
    (raiseAs code alt d oob arg s).mem.acc = s.mem.acc := by
  have h := raiseAs_calm code alt d oob arg s
  simp only [State.calm, Prod.mk.injEq] at h
  exact h.2.2.2.2.2.2.2.2.2.2.2.2.2.2.1

@[simp] theorem raiseAs_halo (code : Nat) (alt : Bool) (d : Source) (oob : Bool) (arg : Nat) (s : State) :
    (raiseAs code alt d oob arg s).mem.halo = s.mem.halo := by
  have h := raiseAs_calm code alt d oob arg s
  simp only [State.calm, Prod.mk.injEq] at h
  exact h.2.2.2.2.2.2.2.2.2.2.2.2.2.2.2.1

@[simp] theorem raiseAs_store (code : Nat) (alt : Bool) (d : Source) (oob : Bool) (arg : Nat) (s : State) :
    (raiseAs code alt d oob arg s).mem.store = s.mem.store := by
  have h := raiseAs_calm code alt d oob arg s
  simp only [State.calm, Prod.mk.injEq] at h
  exact h.2.2.2.2.2.2.2.2.2.2.2.2.2.2.2.2

@[simp] theorem raise_pending (code arg : Nat) (s : State) :
    (raise code arg s).pending = s.pending := by
  have h := raiseAs_calm code false .compute false arg s
  simp only [State.calm, Prod.mk.injEq] at h
  exact h.1

@[simp] theorem raise_now (code arg : Nat) (s : State) :
    (raise code arg s).now = s.now := by
  have h := raiseAs_calm code false .compute false arg s
  simp only [State.calm, Prod.mk.injEq] at h
  exact h.2.1

@[simp] theorem raise_tick (code arg : Nat) (s : State) :
    (raise code arg s).tick = s.tick := by
  have h := raiseAs_calm code false .compute false arg s
  simp only [State.calm, Prod.mk.injEq] at h
  exact h.2.2.1

@[simp] theorem raise_compute (code arg : Nat) (s : State) :
    (raise code arg s).compute = s.compute := by
  have h := raiseAs_calm code false .compute false arg s
  simp only [State.calm, Prod.mk.injEq] at h
  exact h.2.2.2.1

@[simp] theorem raise_tier (code arg : Nat) (s : State) :
    (raise code arg s).tier = s.tier := by
  have h := raiseAs_calm code false .compute false arg s
  simp only [State.calm, Prod.mk.injEq] at h
  exact h.2.2.2.2.1

@[simp] theorem raise_media (code arg : Nat) (s : State) :
    (raise code arg s).media = s.media := by
  have h := raiseAs_calm code false .compute false arg s
  simp only [State.calm, Prod.mk.injEq] at h
  exact h.2.2.2.2.2.1

@[simp] theorem raise_link (code arg : Nat) (s : State) :
    (raise code arg s).link = s.link := by
  have h := raiseAs_calm code false .compute false arg s
  simp only [State.calm, Prod.mk.injEq] at h
  exact h.2.2.2.2.2.2.1

@[simp] theorem raise_flash (code arg : Nat) (s : State) :
    (raise code arg s).flash = s.flash := by
  have h := raiseAs_calm code false .compute false arg s
  simp only [State.calm, Prod.mk.injEq] at h
  exact h.2.2.2.2.2.2.2.1

@[simp] theorem raise_dawn (code arg : Nat) (s : State) :
    (raise code arg s).dawn = s.dawn := by
  have h := raiseAs_calm code false .compute false arg s
  simp only [State.calm, Prod.mk.injEq] at h
  exact h.2.2.2.2.2.2.2.2.1

@[simp] theorem raise_nimbus (code arg : Nat) (s : State) :
    (raise code arg s).nimbus = s.nimbus := by
  have h := raiseAs_calm code false .compute false arg s
  simp only [State.calm, Prod.mk.injEq] at h
  exact h.2.2.2.2.2.2.2.2.2.1

@[simp] theorem raise_stratus (code arg : Nat) (s : State) :
    (raise code arg s).stratus = s.stratus := by
  have h := raiseAs_calm code false .compute false arg s
  simp only [State.calm, Prod.mk.injEq] at h
  exact h.2.2.2.2.2.2.2.2.2.2.1

@[simp] theorem raise_hbm (code arg : Nat) (s : State) :
    (raise code arg s).mem.hbm = s.mem.hbm := by
  have h := raiseAs_calm code false .compute false arg s
  simp only [State.calm, Prod.mk.injEq] at h
  exact h.2.2.2.2.2.2.2.2.2.2.2.1

@[simp] theorem raise_cache (code arg : Nat) (s : State) :
    (raise code arg s).mem.cache = s.mem.cache := by
  have h := raiseAs_calm code false .compute false arg s
  simp only [State.calm, Prod.mk.injEq] at h
  exact h.2.2.2.2.2.2.2.2.2.2.2.2.1

@[simp] theorem raise_scratch (code arg : Nat) (s : State) :
    (raise code arg s).mem.scratch = s.mem.scratch := by
  have h := raiseAs_calm code false .compute false arg s
  simp only [State.calm, Prod.mk.injEq] at h
  exact h.2.2.2.2.2.2.2.2.2.2.2.2.2.1

@[simp] theorem raise_acc (code arg : Nat) (s : State) :
    (raise code arg s).mem.acc = s.mem.acc := by
  have h := raiseAs_calm code false .compute false arg s
  simp only [State.calm, Prod.mk.injEq] at h
  exact h.2.2.2.2.2.2.2.2.2.2.2.2.2.2.1

@[simp] theorem raise_halo (code arg : Nat) (s : State) :
    (raise code arg s).mem.halo = s.mem.halo := by
  have h := raiseAs_calm code false .compute false arg s
  simp only [State.calm, Prod.mk.injEq] at h
  exact h.2.2.2.2.2.2.2.2.2.2.2.2.2.2.2.1

@[simp] theorem raise_store (code arg : Nat) (s : State) :
    (raise code arg s).mem.store = s.mem.store := by
  have h := raiseAs_calm code false .compute false arg s
  simp only [State.calm, Prod.mk.injEq] at h
  exact h.2.2.2.2.2.2.2.2.2.2.2.2.2.2.2.2

@[simp] theorem respond_pending (req : Bytes) (status : Nat) (body : Bytes) (s : State) :
    (respond req status body s).pending = s.pending := by
  have h := calm_of_still (respond_still req status body s)
  simp only [State.calm, Prod.mk.injEq] at h
  exact h.1

@[simp] theorem respond_now (req : Bytes) (status : Nat) (body : Bytes) (s : State) :
    (respond req status body s).now = s.now := by
  have h := calm_of_still (respond_still req status body s)
  simp only [State.calm, Prod.mk.injEq] at h
  exact h.2.1

@[simp] theorem respond_tick (req : Bytes) (status : Nat) (body : Bytes) (s : State) :
    (respond req status body s).tick = s.tick := by
  have h := calm_of_still (respond_still req status body s)
  simp only [State.calm, Prod.mk.injEq] at h
  exact h.2.2.1

@[simp] theorem respond_compute (req : Bytes) (status : Nat) (body : Bytes) (s : State) :
    (respond req status body s).compute = s.compute := by
  have h := calm_of_still (respond_still req status body s)
  simp only [State.calm, Prod.mk.injEq] at h
  exact h.2.2.2.1

@[simp] theorem respond_tier (req : Bytes) (status : Nat) (body : Bytes) (s : State) :
    (respond req status body s).tier = s.tier := by
  have h := calm_of_still (respond_still req status body s)
  simp only [State.calm, Prod.mk.injEq] at h
  exact h.2.2.2.2.1

@[simp] theorem respond_media (req : Bytes) (status : Nat) (body : Bytes) (s : State) :
    (respond req status body s).media = s.media := by
  have h := calm_of_still (respond_still req status body s)
  simp only [State.calm, Prod.mk.injEq] at h
  exact h.2.2.2.2.2.1

@[simp] theorem respond_link (req : Bytes) (status : Nat) (body : Bytes) (s : State) :
    (respond req status body s).link = s.link := by
  have h := calm_of_still (respond_still req status body s)
  simp only [State.calm, Prod.mk.injEq] at h
  exact h.2.2.2.2.2.2.1

@[simp] theorem respond_flash (req : Bytes) (status : Nat) (body : Bytes) (s : State) :
    (respond req status body s).flash = s.flash := by
  have h := calm_of_still (respond_still req status body s)
  simp only [State.calm, Prod.mk.injEq] at h
  exact h.2.2.2.2.2.2.2.1

@[simp] theorem respond_dawn (req : Bytes) (status : Nat) (body : Bytes) (s : State) :
    (respond req status body s).dawn = s.dawn := by
  have h := calm_of_still (respond_still req status body s)
  simp only [State.calm, Prod.mk.injEq] at h
  exact h.2.2.2.2.2.2.2.2.1

@[simp] theorem respond_nimbus (req : Bytes) (status : Nat) (body : Bytes) (s : State) :
    (respond req status body s).nimbus = s.nimbus := by
  have h := calm_of_still (respond_still req status body s)
  simp only [State.calm, Prod.mk.injEq] at h
  exact h.2.2.2.2.2.2.2.2.2.1

@[simp] theorem respond_stratus (req : Bytes) (status : Nat) (body : Bytes) (s : State) :
    (respond req status body s).stratus = s.stratus := by
  have h := calm_of_still (respond_still req status body s)
  simp only [State.calm, Prod.mk.injEq] at h
  exact h.2.2.2.2.2.2.2.2.2.2.1

@[simp] theorem respond_hbm (req : Bytes) (status : Nat) (body : Bytes) (s : State) :
    (respond req status body s).mem.hbm = s.mem.hbm := by
  have h := calm_of_still (respond_still req status body s)
  simp only [State.calm, Prod.mk.injEq] at h
  exact h.2.2.2.2.2.2.2.2.2.2.2.1

@[simp] theorem respond_cache (req : Bytes) (status : Nat) (body : Bytes) (s : State) :
    (respond req status body s).mem.cache = s.mem.cache := by
  have h := calm_of_still (respond_still req status body s)
  simp only [State.calm, Prod.mk.injEq] at h
  exact h.2.2.2.2.2.2.2.2.2.2.2.2.1

@[simp] theorem respond_scratch (req : Bytes) (status : Nat) (body : Bytes) (s : State) :
    (respond req status body s).mem.scratch = s.mem.scratch := by
  have h := calm_of_still (respond_still req status body s)
  simp only [State.calm, Prod.mk.injEq] at h
  exact h.2.2.2.2.2.2.2.2.2.2.2.2.2.1

@[simp] theorem respond_acc (req : Bytes) (status : Nat) (body : Bytes) (s : State) :
    (respond req status body s).mem.acc = s.mem.acc := by
  have h := calm_of_still (respond_still req status body s)
  simp only [State.calm, Prod.mk.injEq] at h
  exact h.2.2.2.2.2.2.2.2.2.2.2.2.2.2.1

@[simp] theorem respond_halo (req : Bytes) (status : Nat) (body : Bytes) (s : State) :
    (respond req status body s).mem.halo = s.mem.halo := by
  have h := calm_of_still (respond_still req status body s)
  simp only [State.calm, Prod.mk.injEq] at h
  exact h.2.2.2.2.2.2.2.2.2.2.2.2.2.2.2.1

@[simp] theorem respond_store (req : Bytes) (status : Nat) (body : Bytes) (s : State) :
    (respond req status body s).mem.store = s.mem.store := by
  have h := calm_of_still (respond_still req status body s)
  simp only [State.calm, Prod.mk.injEq] at h
  exact h.2.2.2.2.2.2.2.2.2.2.2.2.2.2.2.2

@[simp] theorem respond_job (req : Bytes) (status : Nat) (body : Bytes) (s : State) :
    (respond req status body s).job = s.job := by
  have h := respond_still req status body s
  simp only [State.still, Prod.mk.injEq] at h
  exact h.2.2.2.1

@[simp] theorem respond_integrity (req : Bytes) (status : Nat) (body : Bytes) (s : State) :
    (respond req status body s).integrity = s.integrity := by
  have h := respond_still req status body s
  simp only [State.still, Prod.mk.injEq] at h
  exact h.2.2.2.2.2.2.2.2.2.2.1

end Sys2Proof.Machine
end

