-- ==== Sys2Proof/WellFormed.lean ====
section
/-! DEFINITION. Which commands are well formed: the ranges that the manual gives their operands. A model of a block is
given commands by the hardware around it; one that is not well formed is no command of the module. -/

namespace Sys2Proof

/-- A core of the module, 0 to 63 (R51). -/
def coreOk (core : Nat) : Bool := core < 64

/-- A Kenum port, 0 to 3 (R313). -/
def portOk (port : Nat) : Bool := port < 4

/-- A CMD_INDEX of 32 bits (Table 2.6). -/
def indexOk (idx : Nat) : Bool := idx < 4294967296

/-- A mailbox request is 256 bytes (R365). -/
def requestOk (req : Bytes) : Bool := req.length == 256

/-- A flit is 256 bytes (R317). -/
def flitOk (flit : Bytes) : Bool := flit.length == 256

/-- A step of a cold Dawn, 1 to 13 (Table 14.1). -/
def stepOk (step : Nat) : Bool := 1 ≤ step && step ≤ 13

/-- A trip that Stratus decides by itself (Table 16.6); 0x5A01 is the comparator's and 0x5A0C the escalation's. -/
def tripOk (code : Nat) : Bool := 0x5A02 ≤ code && code ≤ 0x5A0B

/-- A Dusk condition of Table 16.3. -/
def duskOk (code : Nat) : Bool := 0x5901 ≤ code && code ≤ 0x5909

/-- The host-exchange region that BAR2 shows, 4 GiB (R344). -/
def windowFits (offset len : Nat) : Bool := 0 < len && offset + len ≤ 4294967296

/-- Whether a word of BAR0 belongs to a register of Table 13.5, whose writes have rows of their own. -/
def hostWritable (offset : Nat) : Bool :=
  (0x20000 ≤ offset && offset < 0x200C0 && offset % 0x20 < 0x10) || offset == 0x20100 || offset == 0x20104
    || offset == 0x21000 || offset == 0x21004 || offset == 0x21008 || offset == 0x30000 || offset == 0x30004
    || offset == 0x40000

/-- A write of 4 or 8 aligned bytes of BAR0 that meets no register of Table 13.5, or of the window of BAR2 (R344, R349). -/
def writeOk (bar : Bar) (offset : Nat) (data : Bytes) : Bool := match bar with
  | .bar0 => (data.length == 4 || data.length == 8) && offset % data.length == 0 && offset < 16777216
    && !hostWritable offset && !(data.length == 8 && hostWritable (offset + 4))
  | .bar2 => windowFits offset data.length

/-- A read of 4 or 8 aligned bytes of BAR0, or of the window of BAR2 (R344, R349). -/
def readOk (bar : Bar) (offset size : Nat) : Bool := match bar with
  | .bar0 => (size == 4 || size == 8) && offset % size == 0 && offset < 16777216
  | .bar2 => windowFits offset size

/-- Whether a command is well formed. -/
def Instr.wf : Instr → Bool
  | .framePulseEdge _ => true
  | .wordClockEdge _ _ => true
  | .internalBoundary _ => true
  | .flywheelBoundary _ => true
  | .boundaryForwardTimeout _ => true
  | .lockLossTimeout _ => true
  | .wordClockLock rate => rate.val < 3
  | .wordClockUnlock rate => rate.val < 3
  | .computeCutoff _ => true
  | .tickCommitDeadline _ => true
  | .tickCommit _ => true
  | .deliverySlot _ => true
  | .drainEnd _ => true
  | .recoveryComplete _ _ _ => true
  | .recoveryTimeout _ => true
  | .tileMm _ core => coreOk core
  | .tileConv _ core => coreOk core
  | .forward _ core => coreOk core
  | .attnPart _ core => coreOk core
  | .merge _ core => coreOk core
  | .bwdDq _ core => coreOk core
  | .bwdDk _ core => coreOk core
  | .bwdDv _ core => coreOk core
  | .map _ core => coreOk core
  | .scan _ core => coreOk core
  | .reduce _ core => coreOk core
  | .copy _ core _ => coreOk core
  | .convert _ core _ => coreOk core
  | .atomicIadd _ core => coreOk core
  | .atomicSmin _ core => coreOk core
  | .atomicSmax _ core => coreOk core
  | .atomicUmin _ core => coreOk core
  | .atomicUmax _ core => coreOk core
  | .atomicAnd _ core => coreOk core
  | .atomicOr _ core => coreOk core
  | .atomicXor _ core => coreOk core
  | .exch _ core => coreOk core
  | .cas _ core => coreOk core
  | .fsumAdd _ core => coreOk core
  | .fsumRead _ core => coreOk core
  | .gather _ core => coreOk core
  | .allreduce _ core => coreOk core
  | .reduceScatter _ core => coreOk core
  | .collReduce _ core => coreOk core
  | .shift _ core => coreOk core
  | .broadcast _ core => coreOk core
  | .allgather _ core => coreOk core
  | .collGather _ core => coreOk core
  | .wait _ core => coreOk core
  | .signal _ core => coreOk core
  | .commit _ core => coreOk core
  | .tierReq _ core => coreOk core
  | .convolution _ core => coreOk core
  | .maximumPool _ core => coreOk core
  | .averagePool _ core => coreOk core
  | .bilinearResampling _ core => coreOk core
  | .argmax _ core => coreOk core
  | .topK _ core => coreOk core
  | .rngFill _ core => coreOk core
  | .commandFinish _ core idx _ => coreOk core && indexOk idx
  | .commandDeadline _ core idx => coreOk core && indexOk idx
  | .cirrusCompare _ core idx _ => coreOk core && indexOk idx
  | .cirrusArbitration _ core idx _ => coreOk core && indexOk idx
  | .parityFault _ core idx _ => coreOk core && indexOk idx
  | .eccCorrected _ _ partition => partition < 5
  | .uncorrectableError _ _ _ _ => true
  | .mpLockstepFault _ => true
  | .clockLockLoss _ _ => true
  | .partitionFault _ partition _ _ => partition < 5
  | .historyWrite _ _ => true
  | .watchPeriodEnd _ => true
  | .fillStart _ => true
  | .fillComplete _ _ _ => true
  | .accessUnitStaged _ entry _ _ => entry < 4
  | .decodedPictureStaged _ entry _ k set => entry < 6 && set == k % 2
  | .data _ port flit _ => portOk port && flitOk flit
  | .part _ port flit _ => portOk port && flitOk flit
  | .clear _ port flit _ => portOk port && flitOk flit
  | .done _ port flit _ => portOk port && flitOk flit
  | .tick _ port flit _ => portOk port && flitOk flit
  | .ready _ port flit _ => portOk port && flitOk flit
  | .abort _ port flit _ => portOk port && flitOk flit
  | .resume _ port flit _ => portOk port && flitOk flit
  | .request _ port flit _ => portOk port && flitOk flit
  | .ident _ port flit _ delayNs => portOk port && flitOk flit && delayNs < 65536
  | .probe _ port flit _ => portOk port && flitOk flit
  | .idleFlit _ port flit _ => portOk port && flitOk flit
  | .nak _ port flit _ => portOk port && flitOk flit
  | .replayStallTimeout _ port => portOk port
  | .fecLockLoss _ port lane => portOk port && lane < 4
  | .portUp _ port => portOk port
  | .portTrainingTimeout _ port => portOk port
  | .readyTimeout _ => true
  | .ringRestored _ => true
  | .ringRecoveryTimeout _ => true
  | .ringT0Decision _ => true
  | .jobStart _ req _ => requestOk req
  | .jobEnd _ req => requestOk req
  | .jobPreempt _ req => requestOk req
  | .jobAbort _ req => requestOk req
  | .keyframe _ req => requestOk req
  | .splitExact _ req => requestOk req
  | .maintEnter _ req => requestOk req
  | .maintExit _ req => requestOk req
  | .storeWrite _ req => requestOk req
  | .tableLoad _ req _ => requestOk req
  | .selftest _ req _ => requestOk req
  | .attest _ req => requestOk req
  | .stageImage _ req _ _ => requestOk req
  | .telemetry _ req => requestOk req
  | .historyRead _ req => requestOk req
  | .moduleReset _ req => requestOk req
  | .mailboxUnknownOpcode _ req => requestOk req
  | .inputRecord _ record payloads => record.length == 64 && payloads.length ≤ 255
  | .hqInTail _ _ => true
  | .hqOutHead _ _ => true
  | .hqDataHead _ _ => true
  | .mbxReqTail _ _ => true
  | .mbxRspHead _ _ => true
  | .evtHead _ _ => true
  | .hqBase _ ring _ => ring < 6
  | .hqSize _ ring _ => ring < 6
  | .hqStatusBase _ _ => true
  | .ringEnable _ ring => ring < 6
  | .ringDisable _ ring => ring < 6
  | .registerWrite _ addr written => writeOk addr.bar addr.offset written
  | .unsupportedBar0Access _ offset _ _ => offset < 16777216
  | .register64LowRead _ read => readOk read.bar read.offset read.size
  | .errEntryRead _ n => n < 256
  | .msixSignal _ vector => vector < 64
  | .dmaCompletionError _ ring => ring.all (· < 6)
  | .configurationRequest offset => offset.val < 4096 && offset.val % 4 == 0
  | .functionLevelReset _ => true
  | .flrComplete _ => true
  | .conventionalReset _ => true
  | .pcieLinkLoss _ => true
  | .pwrEnAssert _ => true
  | .pwrEnDeassert _ => true
  | .senseNOpen _ => true
  | .senseNClosed _ => true
  | .coldDawn _ input => input.puf.length == 32
  | .dawnStepOverrun _ step => stepOk step
  | .warmDawn _ _ _ => true
  | .stratusTrip _ input => tripOk input.code
  | .hwOvercurrentTrip _ => true
  | .powerStageConducting _ => true
  | .safeStateExit _ => true
  | .sensorImplausible _ _ => true
  | .nimbusSample _ _ => true
  | .valveCommandUpdate _ => true
  | .nimbusDuskRequest _ code => duskOk code
  | .watchdogService _ _ _ => true
  | .watchdogMiss _ => true
  | .stratusAnswerMissing _ => true
  | .i3cSetdasa _ _ _ => true
  | .i3cEntdaa _ _ _ => true
  | .i3cStatus _ => true
  | .i3cEvent _ => true
  | .i3cTelemetry _ => true
  | .i3cSafety _ => true
  | .i3cTrip _ arg => arg < 256
  | .i3cUnknownCommand _ _ => true
  | .inBandInterruptRetry _ _ => true
  | .partitionResetComplete _ partition => partition < 5
  | .memberDuskCause _ position code => position < 16 && code < 65536
  | .newestCommittedTickReport _ position _ _ => position < 16
  | .stratusSupplyLoss _ => true
  | .stratusSupplyReturn _ _ _ => true
  | .perstNDeassert _ => true
  | .pcieLinkTrained _ _ => true
  | .register64HighRead _ offset => offset < 16777216
  | .errEntryLastRead _ n => n < 256
  | .i3cSetmrl _ _ => true

end Sys2Proof
end

