-- ==== Sys2Proof/Tests/Slice0.lean ====
section
/-! SUPPORT. Tests of single steps on small states, the well-formedness smoke test, and for every statement with hypotheses
a state that meets them: named test_can_<statement>. -/

namespace Sys2Proof.Tests

set_option Elab.async false

open Sys2Proof.Machine

/-! ### Small states -/

/-- The module in service: every host ring enabled with 16 entries and one entry of rings 0 and 4 published, link 2,000 MB/s. -/
def service : State := { State.reset with
  dawn := { State.reset.dawn with phase := .passed },
  stratus := { State.reset.stratus with phase := .on, pwrEn := true, pwrLow := none, stage := true, switch := true },
  integrity := { State.reset.integrity with since := some 0 },
  nimbus := { State.reset.nimbus with sampled := some 0 },
  host := { State.reset.host with
    linkUp := true, enumOpen := true, perstN := true, mbps := 2000, statusBase := 0x100000,
    rings := (List.range 6).map fun n =>
      { base := 0x200000 * (n + 1), size := 16, enable := true, host := if hostProduces n then 1 else 0 } } }

/-- A job in RUNNING in tick 5 of 1 ms, with boundary 5 at 5 ms and now a little after it. -/
def running : State := { service with
  now := ms 5 + us 1,
  job := { service.job with phase := .running, committed := some 4, ckptTick := some 4, nextFrame := 6, nextSlot := 4 },
  tick := { service.tick with source := 0, tp := ms 1, index := 5, boundary := ms 5, placed := true, edgeIndex := 5,
                              edgeTime := ms 5 } }

/-- A state with another phase of the job. -/
def phased (p : JobPhase) (s : State) : State := { s with job := { s.job with phase := p } }

/-- A state with another phase of Dawn. -/
def dawned (p : DawnPhase) (s : State) : State := { s with dawn := { s.dawn with phase := p } }

/-- A running job on a ring of two, at a position. -/
def ringed (pos : Nat) : State := { running with
  job := { running.job with variant := 2, position := pos },
  link := { running.link with ringSize := 2, position := pos, formed := true, members := [0, 1],
                              ports := List.replicate 4 { phase := .up, identified := true, dataCredits := 224,
                                                          ctrlCredits := 32 } } }

/-- A plan whose path 0 gives core 0 a list of descriptors and whose tensor table is given. -/
def planOf (cmds : List Bytes) (tensors : Bytes) : Plan :=
  ⟨zeros 128,
    [⟨0x01, 0, 0xFF, 0, toLe 4 512 ++ toLe 4 cmds.length ++ zeros 504 ++ cmds.flatMap id, 0⟩,
     ⟨0x02, 0, 0xFF, 0, tensors, 0⟩]⟩

/-- A state with one plan, admissible, whose command lists the sequencers have fetched; core 0 has issued so many. -/
def planned (p : Plan) (s : State) (n : Nat := 0) : State :=
  let s := { s with dawn := { s.dawn with plans := [⟨p, true, 0⟩] } }
  { s with compute := { s.compute with
      issued := s.compute.issued.set 0 n, totals := (List.range 64).map fun core => (s.list core).length,
      buffers := (List.range 64).map fun core => if core == 0 then (s.list core).drop n else s.list core } }

/-- A descriptor: opcode, flags, deadline, wait and signal events, accumulator slots, index, and the bytes from 16 on. -/
def descriptor (op flags deadline wait signal slots idx : Nat) (rest : Bytes) : Bytes :=
  slice ([BitVec.ofNat 8 op, BitVec.ofNat 8 flags] ++ toLe 2 deadline ++ toLe 2 wait ++ toLe 2 signal ++ toLe 2 slots
    ++ [0, 0] ++ toLe 4 idx ++ rest) 0 64

/-- A mailbox request: opcode and the body from byte 8 on. -/
def request (op : Nat) (body : Bytes) : Bytes := slice (toLe 2 op ++ zeros 6 ++ body) 0 256

/-! ### Hypotheses that can be met: the whole machine and the tick -/

theorem test_can_StepRunsFrontCommand :
    (service.push (.wordClockLock ⟨1, 0⟩)).pending = [.wordClockLock ⟨1, 0⟩] ∧ service.pending = [] := by decide

theorem shaped_service : service.shaped := by unfold State.shaped; decide

theorem test_can_StepKeepsShape : service.shaped ∧ service.mem.wf = true := ⟨shaped_service, rfl⟩

theorem test_can_CommandsKeepWhatTheyDoNotConcern :
    (∃ u, exec (.i3cStatus 1) State.reset = .next u) ∧ (Instr.i3cStatus 1).restarts = false
      ∧ (Instr.i3cStatus 1).drives = false := ⟨⟨_, rfl⟩, rfl, rfl⟩

/-- An edge exactly at either end of its window, and one 1 unit before it. -/
theorem test_can_EdgesPlaceBoundaries :
    let s := { running with tick := { running.tick with source := 1 } }
    let c := { running with tick := { running.tick with source := 2 } }
    let w := windowHalf (ms 1)
    s.dawn.phase = .passed ∧ s.followsRing = false ∧ s.job.phase = .running ∧ s.tick.placed = true
      ∧ s.tick.boundary + s.tick.tp ≤ max s.now (ms 6 - w) + windowHalf s.tick.tp
      ∧ max s.now (ms 6 + w) ≤ s.tick.boundary + s.tick.tp + windowHalf s.tick.tp
      ∧ s.tick.boundary < max s.now (ms 6 - w - 1)
      ∧ max s.now (ms 6 - w - 1) + windowHalf s.tick.tp < s.tick.boundary + s.tick.tp
      ∧ c.followsRing = false
      ∧ c.tick.edgeTime + 1 * c.tick.tp ≤ max c.now (ms 6 - w) + (1 * c.tick.tp / 10000 + us 1)
      ∧ max c.now (ms 6 + w) ≤ c.tick.edgeTime + 1 * c.tick.tp + (1 * c.tick.tp / 10000 + us 1)
      ∧ 1 = c.tick.index + 1 - c.tick.edgeIndex
      ∧ running.followsRing = false ∧ max running.now (ms 6) = running.tick.boundary + running.tick.tp
      ∧ let a := { phased .armed service with tick := { service.tick with start := some (ms 6) } }
        a.job.phase = .armed ∧ a.tick.source = 0 ∧ a.inRing = false ∧ a.job.resume = false ∧ a.tick.placed = false
          ∧ a.tick.start = some (max a.now (ms 6)) ∧ linkShort a = false := by decide +kernel

theorem test_can_ReferencePlacesFlywheelBoundaries :
    let s := { running with tick := { running.tick with source := 1, flywheel := 2 } }
    let w := windowHalf (ms 1)
    (s.followsRing = false ∧ max s.now (ms 6 + w) = s.tick.boundary + s.tick.tp + windowHalf s.tick.tp)
      ∧ (ringed 1).followsRing = true ∧ (ringed 1).tick.placed = true ∧ (ringed 1).job.phase = .running
      ∧ (ringed 1).tick.boundary + (ringed 1).tick.tp + windowHalf (ringed 1).tick.tp + us 4
          ≤ max (ringed 1).now (ms 6 + w + us 4) := by decide +kernel

theorem test_can_LockFollowsTheSource :
    let tr : Tracker := ⟨ms 1, some 0, 3, true⟩
    let s := { service with tick := { service.tick with trackers := [tr] } }
    let w := planned ⟨slice (zeros 16 ++ [2]) 0 128, []⟩ { running with tick := { running.tick with source := 2 } }
    s.job.phase ≠ .running ∧ s.job.phase ≠ .draining ∧ s.tick.trackers[0]? = some tr ∧ s.dawn.phase = .passed
      ∧ 0 + tr.tp + windowHalf tr.tp ≤ max s.now (ms 1 + windowHalf (ms 1)) ∧ running.job.phase = .running
      ∧ (∃ rate < 4, ownClock rate w = true) ∧ w.job.phase = .running := by
  decide +kernel

/-- A plan with one NOP-like WAIT on core 0: a tick in which it has not committed. -/
def oneWait : State := planned (planOf [descriptor 0x09 0x04 1 0 0 0 7 []] []) running

theorem test_can_SquallBeginsAndEnds :
    (running.job.phase = .running ∧ running.dawn.phase ≠ .eclipse ∧ running.job.dusk = none
        ∧ running.tickCommitted = false ∧ oneWait.tickCommitted = false ∧ allCommitted oneWait = false
        ∧ oneWait.tick.boundary + oneWait.tick.tp * 94 / 100 ≤ max oneWait.now (ms 5 + us 940)
        ∧ running.tick.boundary + running.tick.tp * 98 / 100 ≤ max running.now (ms 5 + us 980))
      ∧ let q : Squall := ⟨ms 5, 5, none, 2, true, none, none, none, false⟩
        let s := { phased .squall running with job := { running.job with phase := .squall, squall := some q } }
        let r := { q with complete := some (ms 6) }
        let v := { s with job := { s.job with squall := some r }, tick := { s.tick with locked := true } }
        (s.job.phase = .squall ∧ s.job.squall = some q ∧ s.dawn.phase ≠ .warm ∧ q.ring = false ∧ q.resetDone = true
          ∧ q.complete = none ∧ q.c = none ∧ q.detected + sec 3 ≤ max s.now (ms 5 + sec 3))
          ∧ v.job.squall = some r ∧ r.complete ≠ none ∧ v.tick.locked = true := by decide +kernel

theorem test_can_TickCommitsWhenComplete :
    running.tickCommitted = false ∧ running.compute.inReset = false ∧ running.compute.abandoned = false
      ∧ allCommitted running = true ∧ running.inRing = false
      ∧ let r := { ringed 0 with link := { (ringed 0).link with ready := [(1, 5)] } }
        r.inRing = true ∧ r.tickCommitted = false ∧ allCommitted r = true ∧ r.link.readySent ≠ some r.tick.index
          ∧ ∀ p < r.job.variant, p ≠ r.job.position → (p, r.tick.index) ∈ r.link.ready := by decide +kernel

theorem test_can_DeliveryAndDrainingEndTheJob :
    let f : Frame := ⟨2, 2, {}, [], [], true, false⟩
    let s := { running with job := { running.job with frames := [f] } }
    (s.job.nextSlot ≤ s.tick.index ∧ s.latency ≤ s.job.nextSlot ∧ s.job.endTick = none
        ∧ f.accepted + s.latency = s.job.nextSlot ∧ unitsCommitted s f = true
        ∧ s.job.frames.find? (fun f => f.accepted + s.latency == s.job.nextSlot) = some f)
      ∧ let d := { running with job := { running.job with phase := .draining, endTick := some 4 } }
        d.job.phase = .draining ∧ d.tick.index = 4 + d.latency - 1
          ∧ d.tick.boundary + ms 2 ≤ max d.now (ms 7) := by decide +kernel

/-! ### The mailbox and the job -/

/-- A request that the mailbox of a state serves. -/
def servesB (s : State) (op : Nat) (req : Bytes) : Bool :=
  mailboxOpen s && reqOpcode req == op && (stateRefusal s op req).isNone

theorem serves_of {s : State} {op : Nat} {req : Bytes} (h : servesB s op req = true) : s.serves op req := by
  simpa [servesB, State.serves, and_assoc, Option.isNone_iff_eq_none] using h

theorem test_can_RequestsAreAnswered :
    service.served 5 = true ∧ 0 < service.room 5 ∧ service.host.responses = [] ∧ State.reset.served 5 = false
      ∧ mailboxOpen service = true ∧ knownOpcodes.contains (reqOpcode (request 0x7777 [])) = false
      ∧ reqOpcode (request 0x0002 []) = 0x0002
      ∧ (stateRefusal service 0x0002 (request 0x0002 [])).or (firstFailure [(false, 0x1801)]) = some 0x1801 := by
  decide +kernel

/-- A plan with an empty list for position 0 of a single module. -/
def emptyPlan : Plan := planOf [] []

theorem test_can_JobStartArmsTheJob :
    let s := planned emptyPlan service
    let req := request 0x0001 []
    let s' := formationDue (s.arrive 1)
    servesB s' 0x0001 req = true ∧ (∀ c ∈ startChecks req [] s', c.1 = true)
      ∧ (s.planAt (byteAt req 8)).map (·.plan) = some emptyPlan
      ∧ s'.activeBank.holdsSet (planTables s (byteAt req 8)) = true ∧ reqResume req = false ∧ ringNow s' < 2
      ∧ planSource emptyPlan ≠ 1 := by decide +kernel

/-- A JOB_START that resumes from a retained checkpoint of its plan, which the empty memory does not hold. -/
theorem test_can_JobStartArmsTheJob_resume :
    let r : Retained := ⟨0, service.dawn.planMeasure, 0, 4, 4, 5, .preemption, none, 6, 1, [], [], none, 0, 0, 0⟩
    let s := planned emptyPlan { service with job := { service.job with retained := some r } }
    let req := request 0x0001 [0, 1]
    let s' := formationDue (s.arrive 1)
    servesB s' 0x0001 req = true ∧ (∀ c ∈ startChecks req [] s', c.1 = true) ∧ reqResume req = true ∧ ringNow s' < 2
      ∧ s'.activeBank.holdsSet (planTables s (byteAt req 8)) = true := by decide +kernel

/-- Position 0 of a ring of two whose JOB_START waits, and the digest of the other member: its own, or another one. -/
theorem test_can_JobStartArmsTheJob_decision :
    let req := request 0x0001 []
    let i := planned emptyPlan { ringed 0 with job := { service.job with startReq := some req } }
    i.job.startReq = some req ∧ i.job.phase = .idle ∧ i.link.position = 0 ∧ i.ringUp = true
      ∧ [jobDigest req i].length + 1 = i.link.ringSize ∧ reqResume req = false
      ∧ (i.planAt (byteAt req 8)).map (·.plan) = some emptyPlan := ⟨rfl, rfl, rfl, rfl, rfl, rfl, rfl⟩

theorem test_can_JobStartArmsTheJob_digests (req : Bytes) (s : State) :
    (∀ d ∈ [jobDigest req s], d = jobDigest req s) ∧ ∃ d ∈ [0 :: jobDigest req s], d ≠ jobDigest req s := by simp

/-- A JOB_START at position 0 of a formed ring passes its checks too. -/
theorem test_can_JobStartArmsTheRing :
    let s := planned emptyPlan (phased .idle { ringed 0 with job := service.job })
    let req := request 0x0001 []
    let s' := formationDue (s.arrive 1)
    servesB s' 0x0001 req = true ∧ (∀ c ∈ startChecks req [] s', c.1 = true) ∧ 2 ≤ ringNow s' ∧ reqResume req = false
      ∧ s'.activeBank.holdsSet (planTables s (byteAt req 8)) = true := by decide +kernel

theorem test_can_SwitchesAreNotedForTheBoundary :
    let s := planned ⟨slice (zeros 23 ++ [1]) 0 128, []⟩ running
    atHead s = true
      ∧ (servesB s 0x0002 (request 0x0002 []) = true ∧ s.job.phase = .running ∧ bodyClear (request 0x0002 []) [] = true)
      ∧ (servesB s 0x0005 (request 0x0005 [15]) = true ∧ bodyClear (request 0x0005 [15]) [(8, 1)] = true
          ∧ byteAt (request 0x0005 [15]) 8 < 16)
      ∧ (servesB s 0x0006 (request 0x0006 [1]) = true ∧ bodyClear (request 0x0006 [1]) [(8, 1)] = true
          ∧ byteAt (request 0x0006 [1]) 8 < 2 ∧ planSwitchable s.plan = true) := by decide +kernel

theorem test_can_StopRequestsStopTheJob :
    let q : Squall := ⟨ms 5, 5, none, 2, false, none, none, none, false⟩
    let sq := { running with job := { running.job with phase := .squall, squall := some q },
                             compute := { running.compute with inReset := true } }
    atHead running = true ∧ bodyClear (request 0x0003 []) [] = true ∧ bodyClear (request 0x0004 []) [] = true
      ∧ servesB running 0x0003 (request 0x0003 []) = true ∧ servesB running 0x0004 (request 0x0004 []) = true
      ∧ running.job.phase = .running
      ∧ (atHead sq = true ∧ servesB sq 0x0003 (request 0x0003 []) = true ∧ sq.job.phase = .squall
          ∧ sq.compute.inReset = true)
      ∧ (atHead (phased .armed service) = true ∧ servesB (phased .armed service) 0x0004 (request 0x0004 []) = true) := by
  decide +kernel

theorem test_can_MaintenanceWritesTheStore :
    let m := phased .maintenance service
    let req := request 0x0012 (zeros 8 ++ toLe 8 4096 ++ toLe 8 16384 ++ toLe 8 16384)
    (servesB service 0x0010 (request 0x0010 []) = true ∧ service.job.phase = .idle ∧ service.job.startReq = none
        ∧ bodyClear (request 0x0010 []) [] = true)
      ∧ (servesB m 0x0011 (request 0x0011 []) = true ∧ m.job.phase = .maintenance
        ∧ bodyClear (request 0x0011 []) [] = true)
      ∧ m.mem.wf = true ∧ servesB m 0x0012 req = true ∧ bodyClear req [(16, 24)] = true ∧ le req 32 8 % 16384 = 0
      ∧ 0 < le req 32 8 ∧ le req 24 8 + le req 32 8 ≤ 0x40000000000
      ∧ exchangeOk (le req 16 8) (le req 32 8) = true ∧ m.host.windowWrites = [] := by decide +kernel

/-- A window in which every special-function unit answers as the active reference tables of a state do. -/
def goodWindow (s : State) : WindowInput :=
  { results := (List.range 64).flatMap fun core => (List.range 9).flatMap fun fn => (List.range 4096).map fun i =>
      (core, fn, i, tblEval .rne (s.activeBank.tables.getD fn []) (Config.selfTestArgument fn i)) }

theorem beyondTol_self (tol : Nat) (a : Word) : beyondTol tol a a = false := by
  unfold beyondTol ulpsApart
  cases isNan32 a <;> simp

theorem goodWindow_answer (s : State) {core fn i : Nat} (hc : core < 64) (hf : fn < 9) (hi : i < 4096) :
    unitAnswer (goodWindow s) core fn i
      = tblEval .rne (s.activeBank.tables.getD fn []) (Config.selfTestArgument fn i) := by
  unfold unitAnswer
  split
  · rename_i r h
    have hr := List.find?_some h
    have hm := List.mem_of_find?_eq_some h
    simp only [goodWindow, List.mem_flatMap, List.mem_map] at hm
    obtain ⟨c, -, f, -, j, -, rfl⟩ := hm
    simp only [Bool.and_eq_true, beq_iff_eq] at hr
    rw [hr.1.2, hr.2]
  · rename_i h
    rw [List.find?_eq_none] at h
    have hm : (core, fn, i, tblEval .rne (s.activeBank.tables.getD fn []) (Config.selfTestArgument fn i))
        ∈ (goodWindow s).results := by
      unfold goodWindow
      simp only [List.mem_flatMap, List.mem_map, List.mem_range]
      exact ⟨core, hc, fn, hf, i, hi, rfl⟩
    have hn := h _ hm
    simp only [beq_self_eq_true, Bool.and_self, not_true_eq_false] at hn

/-- Such a window passes: both writes read back and no unit fails. -/
theorem goodWindow_passes (s : State) :
    windowPasses s (goodWindow (loadBank true (fun b => { b with tables := referenceTables s }) s)) = true := by
  have h : ∀ v : State, failedUnit v (goodWindow v) = none := by
    intro v
    unfold failedUnit
    rw [show (goodWindow v).failed = none from rfl, Option.none_or, Option.map_eq_none_iff, List.find?_eq_none]
    intro core hc
    rw [List.mem_range] at hc
    simp only [unitFails, List.any_eq_true, List.mem_range]
    rintro ⟨fn, hf, i, hi, hb⟩
    rw [goodWindow_answer v hc hf hi, beyondTol_self] at hb
    cases hb
  unfold windowPasses
  rw [h]
  rfl

theorem test_can_TablesLoadAndSelfTestJudges_window (s : State) : ∃ w, windowPasses s w = true := ⟨_, goodWindow_passes s⟩

theorem test_can_TablesLoadAndSelfTestJudges :
    let s := planned emptyPlan service
    let bad : WindowInput := { firstOk := false }
    let unit : WindowInput := { failed := some 0x01000000 }
    (bad.firstOk = false ∧ bad.failed = none ∧ unit.firstOk = true ∧ unit.failed = some 0x01000000
      ∧ s.job.startReq = none) ∧ servesB s 0x0013 (request 0x0013 []) = true ∧ bodyClear (request 0x0013 []) [(8, 1)] = true
      ∧ planReady s (byteAt (request 0x0013 []) 8) = true ∧ s.compute.bank = 0 ∧ s.job.phase = .idle
      ∧ servesB s 0x0014 (request 0x0014 []) = true ∧ bodyClear (request 0x0014 []) [] = true
      ∧ s.dawn.phase ≠ .eclipse := by decide +kernel

theorem test_can_ReportsAreWrittenToTheExchangeArea :
    let s := { service with dawn := { service.dawn with secret := [1], certOk := true } }
    s.mem.wf = true
      ∧ (servesB s 0x0022 (request 0x0022 []) = true ∧ bodyClear (request 0x0022 []) [(16, 8)] = true
          ∧ exchangeOk (le (request 0x0022 []) 16 8) (telemetryBytes (s.arrive 1)).length = true)
      ∧ (servesB s 0x0023 (request 0x0023 []) = true ∧ bodyClear (request 0x0023 []) [(16, 8)] = true
          ∧ exchangeOk (le (request 0x0023 []) 16 8) 0x400000 = true)
      ∧ servesB s 0x0020 (request 0x0020 []) = true ∧ bodyClear (request 0x0020 []) [(16, 40)] = true
      ∧ exchangeOk (le (request 0x0020 []) 48 8) 12288 = true ∧ s.dawn.secret ≠ [] ∧ s.dawn.certOk = true := by
  decide +kernel

theorem test_can_StageImageProgramsTheInactiveSlot :
    let req := request 0x0021 ([1] ++ zeros 7 ++ toLe 8 4096 ++ toLe 8 4096)
    servesB service 0x0021 req = true ∧ service.job.phase = .idle ∧ bodyClear req [(8, 1), (16, 16)] = true
      ∧ byteAt req 8 ≤ 1 ∧ exchangeOk (le req 16 8) (le req 24 8) = true ∧ le req 24 8 ≤ slotSize 1
      ∧ (bootRecord service.flash).seq + 2 < 4294967296 ∧ service.host.windowWrites = [] := by decide +kernel

theorem test_can_ModuleResetRestartsDawn :
    servesB service 0x0024 (request 0x0024 []) = true ∧ service.job.phase = .idle
      ∧ bodyClear (request 0x0024 []) [] = true ∧ servesB (dawned .recoveryBoot service) 0x0024 (request 0x0024 []) = true :=
  by decide +kernel

/-! ### The host interface -/

theorem test_can_PointerWritesTakeEffect :
    barOpen service = true
      ∧ (∀ n < 6, ringExists service n = true ∧ (service.ring n).enable = true
          ∧ ({ service.ring n with host := (service.ring n).mine } : Ring).count n ≤ (service.ring n).size
          ∧ (service.ring n).size < ({ service.ring n with host := (service.ring n).mine
              + (if hostProduces n then 17 else 4294967296 - 17) } : Ring).count n)
      ∧ ∃ n < 6, (({ service with host := { service.host with rings := List.replicate 6 {} } } : State).ring n).enable
          = false := by decide +kernel

theorem test_can_RingSetupFollowsTheRules :
    let s := { service with host := { service.host with rings := List.replicate 6 { base := 0x10000, size := 16 } } }
    let d := { service with host := { service.host with rings := List.replicate 6 { base := 0x10000, size := 0x100000 } } }
    barOpen s = true ∧ ringExists s 0 = true ∧ (∀ m < 6, (s.ring m).enable = false)
      ∧ (0x10000 : BitVec 64).toNat % 4096 = 0 ∧ sizeValid 0 16 = true ∧ sizeValid 0 0x100000 = true
      ∧ enableMayChange s = true ∧ (s.ring 0).error = false ∧ sizeValid 0 (s.ring 0).size = true
      ∧ baseValid 0 (s.ring 0) = true ∧ s.host.statusBase ≠ 0 ∧ sizeValid 2 (d.ring 2).size = true
      ∧ (service.ring 0).enable = true ∧ enableMayChange service = true ∧ barOpen service = true := by decide +kernel

theorem test_can_RegistersAreReadConsistently :
    let f := { service with host := { service.host with flr := true } }
    (barOpen running = true ∧ 0x10008 % 8 = 0 ∧ readRegister (running.arrive 1) 0x10008 = some (8, 5)
        ∧ readRegister (running.arrive 2) (0x10008 + 4) = none)
      ∧ (service.dawn.phase ≠ .recoveryBoot ∧ 255 < 256)
      ∧ (barOpen service = true ∧ accessOk 0xEFFF8 (zeros 8).length = true ∧ 0xEFFF8 + (zeros 8).length ≤ 0xF0000
        ∧ accessOk 0xF03F8 (zeros 8).length = true ∧ 0xF03F8 + (zeros 8).length ≤ 0xF0400
        ∧ service.host.msixTable.length = 256 ∧ accessOk 4 (zeros 8).length = false ∧ service.mem.wf = true
        ∧ 4294967292 + (zeros 4).length ≤ exchangeSize)
      ∧ f.host.flr = true ∧ f.host.linkUp = true ∧ accessOk 8 4 = true := by decide +kernel

theorem test_can_InterruptsAndDmaErrorsConcernTheirRing :
    let s := { service with host := { service.host with msixDue := [true, true, false, false],
                                                        msixLast := [none, some 0, none, none] } }
    s.host.msixDue[0]? = some true ∧ s.host.linkUp = true ∧ s.host.msixLast[0]? = some none
      ∧ s.host.msixDue[1]? = some true ∧ s.host.msixLast[1]? = some (some 0) ∧ 0 + us 50 ≤ max s.now (us 50)
      ∧ max s.now (us 50 - 1) < 0 + us 50
      ∧ (∀ n < 6, (s.ring n).enable = true ∧ (s.ring n).error = false) ∧ ∃ r ∈ s.host.rings, r.enable = true := by
  decide +kernel

theorem test_can_TheLinkComesAndGoes :
    service.host.perstN = true ∧ service.host.linkUp = true ∧ service.dawn.phase ≠ .unpowered
      ∧ service.host.enumOpen = true ∧ service.host.flr = false ∧ State.reset.host.perstN = false := by decide

theorem test_can_FunctionResetsDisableTheRings :
    service.dawn.phase = .passed ∧ service.host.linkUp = true ∧ running.job.phase = .running
      ∧ running.dawn.phase = .passed
      ∧ let s := { service with host := { service.host with flr := true } }
        s.dawn.phase = .passed ∧ s.host.flr = true ∧ s.job.deferred = none := by decide +kernel

/-- A record of a frame, with no segment. -/
def recordFor (n : Nat) : Bytes := slice (toLe 4 n) 0 64

theorem test_can_InputRecordsArePairedWithFrames :
    takesInput running = true ∧ ptrDiff (recFrame (recordFor 21)) running.job.nextFrame = 15
      ∧ ptrDiff (recFrame (recordFor 22)) running.job.nextFrame = 16
      ∧ ptrDiff (recFrame (recordFor 0x80000005)) running.job.nextFrame = 0x7FFFFFFF
      ∧ ptrDiff (recFrame (recordFor 0x80000006)) running.job.nextFrame = 0x80000000
      ∧ ptrDiff (recFrame (recordFor 5)) running.job.nextFrame = 0xFFFFFFFF := by decide +kernel

/-! ### Commands of the engines -/

/-- One FP32 element in the scratchpad of the core. -/
def oneElement : Bytes := slice [0, 0, 0, 0, 0, 0, 0x10, 2] 0 32

/-- A running job whose core 0 has one command to issue, over one-element tensors. -/
def withCommand (c : Bytes) : State := planned (planOf [c] (oneElement ++ oneElement)) { running with
  compute := { running.compute with ordered := [⟨0, 0, [], 0, .moments, some ([], [zero32])⟩] } }

/-- Whether an engine command is the next of its core, may issue, stays in its spaces and does not kill itself. -/
def issues (i : Instr) (s : State) : Bool := match issueOf i with
  | some e => match nextCommand (s.arrive i.time) e.core with
    | some (_, c) => e.asked c && canIssue (s.arrive i.time) e.core c
        && (e.tensors (s.arrive i.time) c).all (fun x => ((s.arrive i.time).tensor x).inside)
        && (e.work (accessFor (s.arrive i.time) e.core c e.host) c (s.arrive i.time)).kill.isNone
    | none => false
  | none => false

/-- A descriptor of an opcode with its bytes from 16 on. -/
def engine (op : Nat) (rest : Bytes) : Bytes := descriptor op 0x04 1 0 0 0 7 rest

/-- Bytes 16 on: zeros but for some bytes at their places. -/
def restWith (ps : List (Nat × Byte)) : Bytes := ps.foldl (fun b p => b.set (p.1 - 16) p.2) (zeros 48)

/-- Bytes 16 on of a descriptor that names no program in two fields from a place on. -/
def noProgram (at0 : Nat) (ps : List (Nat × Byte)) : Bytes :=
  restWith ([(at0, 0xFF), (at0 + 1, 0xFF), (at0 + 2, 0xFF), (at0 + 3, 0xFF)] ++ ps)

/-- Every engine command with a descriptor for it. -/
def engineCases : List (Instr × Bytes) :=
  [(.tileMm 1 0, engine 0x01 (noProgram 26 [(30, 0xFF), (31, 0xFF)])), (.tileConv 1 0, engine 0x02 (noProgram 26 [])),
   (.forward 1 0, engine 0x03 (noProgram 34 [])), (.attnPart 1 0, engine 0x03 (noProgram 34 [(32, 0x20)])),
   (.merge 1 0, engine 0x03 (noProgram 34 [(32, 0x40)])), (.bwdDq 1 0, engine 0x03 (noProgram 34 [(32, 0x60)])),
   (.bwdDk 1 0, engine 0x03 (noProgram 34 [(32, 0x80)])), (.bwdDv 1 0, engine 0x03 (noProgram 34 [(32, 0xA0)])),
   (.map 1 0, engine 0x04 (restWith [(16, 0xFF), (17, 0xFF)])),
   (.scan 1 0, engine 0x04 (restWith [(16, 0xFF), (17, 0xFF), (22, 1)])),
   (.reduce 1 0, engine 0x04 (restWith [(16, 0xFF), (17, 0xFF), (22, 2)])),
   (.copy 1 0 none, engine 0x05 (restWith [(20, 0x00)])), (.convert 1 0 none, engine 0x05 (restWith [(20, 0x01)])),
   (.atomicIadd 1 0, engine 0x05 (restWith [(20, 0x10)])), (.atomicSmin 1 0, engine 0x05 (restWith [(20, 0x11)])),
   (.atomicSmax 1 0, engine 0x05 (restWith [(20, 0x12)])), (.atomicUmin 1 0, engine 0x05 (restWith [(20, 0x13)])),
   (.atomicUmax 1 0, engine 0x05 (restWith [(20, 0x14)])), (.atomicAnd 1 0, engine 0x05 (restWith [(20, 0x15)])),
   (.atomicOr 1 0, engine 0x05 (restWith [(20, 0x16)])), (.atomicXor 1 0, engine 0x05 (restWith [(20, 0x17)])),
   (.exch 1 0, engine 0x05 (restWith [(20, 0x18)])), (.cas 1 0, engine 0x05 (restWith [(20, 0x19)])),
   (.fsumAdd 1 0, engine 0x05 (restWith [(20, 0x20)])), (.fsumRead 1 0, engine 0x05 (restWith [(20, 0x21)])),
   (.gather 1 0, engine 0x06 (restWith [])), (.tierReq 1 0, engine 0x0C (restWith [])),
   (.convolution 1 0, engine 0x0D (noProgram 26 [])), (.maximumPool 1 0, engine 0x0D (noProgram 26 [(24, 1)])),
   (.averagePool 1 0, engine 0x0D (noProgram 26 [(24, 2)])),
   (.bilinearResampling 1 0, engine 0x0D (noProgram 26 [(24, 3)])), (.argmax 1 0, engine 0x0E (restWith [])),
   (.topK 1 0, engine 0x0E (restWith [(22, 1)])), (.rngFill 1 0, engine 0x0F (restWith []))]

/-- The hypotheses of the statement hold for each engine command. -/
theorem test_can_EngineCommandsIssue : ∀ p ∈ engineCases, issues p.1 (withCommand p.2) = true := by decide +kernel

/-- What `issues` checks is what the statement asks. -/
theorem issues_hypotheses {i : Instr} {s : State} {e : Issue} (he : issueOf i = some e) (h : issues i s = true) :
    ∃ place c, nextCommand (s.arrive i.time) e.core = some (place, c) ∧ e.asked c = true
      ∧ canIssue (s.arrive i.time) e.core c = true
      ∧ (∀ x ∈ e.tensors (s.arrive i.time) c, ((s.arrive i.time).tensor x).inside = true)
      ∧ (e.work (accessFor (s.arrive i.time) e.core c e.host) c (s.arrive i.time)).kill = none := by
  unfold issues at h
  rw [he] at h
  simp only [] at h
  split at h
  · rename_i place c hn
    simp only [Bool.and_eq_true, List.all_eq_true, Option.isNone_iff_eq_none] at h
    exact ⟨place, c, hn, h.1.1.1, h.1.1.2, h.1.2, h.2⟩
  · cases h

theorem test_can_EngineCommandsWaitOrFault :
    issueOf (.gather 1 0) ≠ none ∧ nextCommand (running.arrive 1) 0 = none
      ∧ (let s := (withCommand (engine 0x06 (restWith []))).arrive 1
         (nextCommand s 0).isSome = true ∧ (nextCommand s 0).any (fun p => isMove 0 p.2) = false)
      ∧ (let s := planned (planOf [engine 0x06 (restWith [])] []) running
         (nextCommand (s.arrive 1) 0).any (fun p => cmdOpcode p.2 == 0x06 && canIssue (s.arrive 1) 0 p.2) = true)
      ∧ let s := (withCommand (engine 0x0D (noProgram 26 []))).arrive 1
        let b := { s with compute := { s.compute with edge := s.compute.edge.set 0 (some 3) } }
        (nextCommand b 0).any (fun p => isEdge 0 p.2 && mayIssue b 0 p.2 && !edgeFree b 0 p.2) = true := by
  decide +kernel

theorem test_can_CommandsThatFailBeginSquall :
    (let s := planned (planOf [engine 0x05 (restWith [(20, 0x21)])] (oneElement ++ oneElement)) running
     let c := engine 0x05 (restWith [(20, 0x21)])
     nextCommand (s.arrive 1) 0 = some (0, c) ∧ isMove 0x21 c = true ∧ canIssue (s.arrive 1) 0 c = true
       ∧ (moveTensors (s.arrive 1) c).all (fun x => ((s.arrive 1).tensor x).inside) = true
       ∧ (fsumReadWork (accessFor (s.arrive 1) 0 c []) c (s.arrive 1)).kill = some 0x2909
       ∧ s.job.dusk = none ∧ s.dawn.phase ≠ .eclipse ∧ s.inRing = false)
      ∧ (let s := withCommand (engine 0x06 (restWith []))
         (overdue (s.arrive (ms 5 + us 2)) 0 7).isSome = true ∧ s.inRing = false ∧ s.job.dusk = none)
      ∧ let s := planned (planOf [engine 0x08 (restWith [])] []) (ringed 1)
        (overdue (s.arrive (ms 5 + us 2)) 0 7).any (fun c => cmdOpcode c == 0x08) = true ∧ s.inRing = true
          ∧ s.aborted = false := by decide +kernel

/-- Whether a collective is the next of its core and may issue, inside its spaces and not in flight. -/
def launches (i : Instr) (s : State) : Bool := match collectiveOf i with
  | some (core, asked) => match nextCommand (s.arrive i.time) core with
    | some (_, c) => asked c && canIssue (s.arrive i.time) core c
        && (collTensors (s.arrive i.time) c).all (fun x => ((s.arrive i.time).tensor x).inside)
        && ((s.arrive i.time).run core (cmdIndex c)).isNone
        && (cmdOpcode c == 0x08 || (collPeers (s.arrive i.time) c).any (fun q => !arrived (s.arrive i.time) c q false))
    | none => false
  | none => false

/-- Every collective with a descriptor for it. -/
def collectiveCases : List (Instr × Bytes) :=
  [(.allreduce 1 0, engine 0x07 (restWith [(24, 0), (28, 0xFF), (29, 0xFF)])),
   (.reduceScatter 1 0, engine 0x07 (restWith [(24, 1), (28, 0xFF), (29, 0xFF)])),
   (.collReduce 1 0, engine 0x07 (restWith [(24, 2), (28, 0xFF), (29, 0xFF)])),
   (.shift 1 0, engine 0x08 (restWith [(16, 0)])), (.broadcast 1 0, engine 0x08 (restWith [(16, 1)])),
   (.allgather 1 0, engine 0x08 (restWith [(16, 2)])), (.collGather 1 0, engine 0x08 (restWith [(16, 3)]))]

/-- 256 FP32 elements in the scratchpad of the core: two N-tiles of a collective's output. -/
def twoTiles : Bytes := slice [0, 0, 0, 0, 0, 0, 0x10, 2, 255] 0 32

/-- A running job on a ring of two, group 0 of both members, whose core 0 has one command to issue. -/
def withCollective (pos : Nat) (c : Bytes) : State :=
  let p := planOf [c] (twoTiles ++ twoTiles)
  planned { p with sections := p.sections ++ [⟨0x0C, 0, 0xFF, 0, slice [2, 0, 0, 0, 0, 1] 0 32, 0⟩] } (ringed pos)

theorem test_can_CollectivesIssue : ∀ p ∈ collectiveCases, launches p.1 (withCollective 0 p.2) = true := by decide +kernel

/-- A WAIT or SIGNAL on core 0 that names an event whose target is 2, with its count. -/
def withEvent (op : Nat) (first : List Bytes) (count : Nat) : State :=
  let p := planOf (first ++ [descriptor op 0x04 1 0 0 0 7 (toLe 2 0x12)]) []
  planned { p with sections := p.sections ++ [⟨0x07, 0, 0xFF, 0, toLe 2 0x12 ++ [2, 0], 0⟩] } { running with
    compute := { running.compute with counts := [((0x12, 0), count)] } }

/-- What the statements ask of the command at the head of core 0: it may issue, commits at its finish, and its signals stay
within their targets. -/
def controls (s : State) (op : Nat) : Bool := match nextCommand s 0 with
  | some (place, c) => canIssue s 0 c && cmdOpcode c == op && cmdCommitOnFinish c && !cirrusSelects s c
      && s.compute.agreed.isEmpty && s.compute.runs.isEmpty && !s.compute.done.contains (0, place)
      && (commitSignals c).all fun ev => ev == 0
          || eventCount s ev 0 + (commitSignals c).count ev ≤ eventTarget s.plan s.job.path ev (eventScope ev 0)
  | none => false

theorem test_can_WaitAndSignalFollowTheirEvents :
    (controls (withEvent 0x09 [] 2) 0x09 = true ∧ eventSet (withEvent 0x09 [] 2) 0x12 0 = true)
      ∧ (controls (withEvent 0x0A [] 1) 0x0A = true
          ∧ (nextCommand (withEvent 0x0A [] 1) 0).any (fun p => p.1 == 0 && cmdEvents p.2 == [0x12]) = true)
      ∧ (controls (withEvent 0x09 [] 1) 0x09 = true ∧ eventSet (withEvent 0x09 [] 1) 0x12 0 = false
          ∧ (withEvent 0x09 [] 1).run 0 7 = none)
      ∧ let w := descriptor 0x09 0x04 1 0 0 0 6 (toLe 2 0x12)
        let s := withEvent 0x0A [w] 1
        let i := planned ((s.planAt 0).elim emptyPlan (·.plan)) s 1
        canIssue i 0 (descriptor 0x0A 0x04 1 0 0 0 7 (toLe 2 0x12)) = true ∧ i.run 0 7 = none
          ∧ (nextCommand i 0).any (fun p => p.1 == 1 && cmdOpcode p.2 == 0x0A) = true ∧ (0, 0) ∉ i.compute.done := by
  decide +kernel

theorem test_can_CommitCoversItsRange :
    let w := descriptor 0x09 0x00 1 0 0 0 6 []
    let c := descriptor 0x0B 0x04 1 0 0 0 7 (toLe 4 6 ++ toLe 4 6)
    let s := planned (planOf [w, c] []) { running with compute := { running.compute with done := [(0, 0)] } } 1
    nextCommand s 0 = some (1, c) ∧ controls s 0x0B = true ∧ commitRange s 0 c = [(0, w)] ∧ cmdSignalEvent c = 0
      ∧ (∀ p ∈ commitRange s 0 c, (0, p.1) ∈ s.compute.done) ∧ ∀ p ∈ commitRange s 0 c, p.1 ≠ 1 := by decide +kernel

/-- A command in flight on core 0, with its Cirrus side and staging queue. -/
def inFlight (c : Bytes) (cirrus : CirrusPhase) (staged : List Staged) (phase : RunPhase) : State := { running with
  compute := { running.compute with runs := [⟨0, 0, c, phase, [], staged, [], [], cirrus, true, none⟩] } }

/-- The same command without COMMIT_ON_FINISH. -/
def held (op : Nat) : Bytes := descriptor op 0x00 1 0 0 0 7 []

theorem test_can_FinishedCommandsCommitOrStay :
    (let s := inFlight (engine 0x06 []) .none [] .running
     (s.run 0 7).any (fun r => r.phase == .running && workDone s r && cmdCommitOnFinish r.cmd && r.staged == []
       && commitSignals r.cmd == [0]) = true ∧ s.compute.abandoned = false)
      ∧ (let s := inFlight (held 0x06) .none [] .running
         (s.run 0 7).any (fun r => workDone s r && !cmdCommitOnFinish r.cmd) = true)
      ∧ let s := inFlight (engine 0x06 []) (.selected none) [] .running
        (s.run 0 7).any (fun r => workDone s r && r.cirrus == .selected none) = true := by decide +kernel

theorem test_can_AtomicsFollowTheTable :
    let s := inFlight (engine 0x05 []) .none [.atomic .iadd true 0x40 1 0 (some (.scratch, 0))] .running
    s.mem.wf = true ∧ (s.run 0 7).any (fun r => r.phase == .running && workDone s r && r.cirrus == .none
        && cmdCommitOnFinish r.cmd && commitSignals r.cmd == [0] && r.cmd.length == 64 && cmdOpcode r.cmd == 0x05
        && r.staged == [.atomic .iadd true 0x40 1 0 (some (.scratch, 0))]) = true
      ∧ s.compute.abandoned = false ∧ 0 < 8 ∧ 5 < 2 ^ (8 * 8) := by decide +kernel

/-- A finished command on core 0 with its duplicate on core 1 and its arbiter run on core 2. -/
def guarded (c : CirrusPhase) : State :=
  let s := inFlight (held 0x06) c [] .finished
  { s with compute := { s.compute with
      guests := [⟨1, 0, 0, held 0x06, false, true, []⟩, ⟨2, 0, 0, held 0x06, true, true, []⟩] } }

theorem test_can_RedundancyCatchesFaults :
    let r := ((inFlight (held 0x06) .none [] .running).run 0 7).map digestOf
    (∀ d ∈ r, ∀ l1 : Bool,
        let s := guarded (.selected (some d))
        let v := { s with job := { s.job with level1Used := l1 } }
        (v.run 0 7).any (fun x => withError (digestOf x) 0 == d && withError (digestOf x) 1 != d && x.phase == .finished
          && x.place == 0 && !cmdCommitOnFinish x.cmd && classOf (cmdOpcode x.cmd) != .link) = true
          ∧ guestRuns v 0 0 false = true ∧ v.job.phase = .running ∧ v.job.dusk = none ∧ v.dawn.phase ≠ .eclipse)
      ∧ (∀ d ∈ r,
        let s := guarded (.arbitrating d (d.1 + 1, d.2))
        (s.run 0 7).any (fun x => withError (digestOf x) 0 == d && withError (digestOf x) 1 != d) = true
          ∧ s.inRing = false ∧ guestRuns s 0 0 true = true)
      ∧ (∀ d ∈ r,
        let s := guarded (.arbitrating (d.1 + 1, d.2) d)
        (s.run 0 7).any (fun x => withError (digestOf x) 0 == d && withError (digestOf x) 0 != (d.1 + 1, d.2)) = true)
      ∧ (∀ d ∈ r,
        let s := guarded (.arbitrating (d.1 + 1, d.2) (d.1 + 2, d.2))
        (s.run 0 7).any (fun x => withError (digestOf x) 0 != (d.1 + 1, d.2) && withError (digestOf x) 0 != (d.1 + 2, d.2))
          = true) ∧ r.isSome = true := by decide +kernel

/-! ### Numbers, integrity, memory tiers and media -/

theorem test_can_UniformValuesAreExact : (⟨0xFFFFFFFF, 0, 0, 0⟩ : Draw).w0 < 2 ^ 32 := by decide

/-- Parts [0, 4), [4, 5) of five blocks. -/
theorem test_can_DividedReductionsGiveTheSameBits :
    0 < 5 ∧ (∀ p ∈ [(0, 4), (4, 5)], isNode 5 p.1 p.2 = true)
      ∧ (∀ i, i < 5 → ∃ p ∈ [(0, 4), (4, 5)], p.1 ≤ i ∧ i < p.2)
      ∧ ∀ p ∈ [(0, 4), (4, 5)], ∀ q ∈ [(0, 4), (4, 5)], ∀ i, p.1 ≤ i → i < p.2 → q.1 ≤ i → i < q.2 → p = q := by
  refine ⟨by decide, by decide, by decide, ?_⟩
  intro p hp q hq i h1 h2 h3 h4
  simp only [List.mem_cons, List.not_mem_nil, or_false] at hp hq
  rcases hp with rfl | rfl <;> rcases hq with rfl | rfl <;> first | rfl | (simp only [] at h1 h2 h3 h4; omega)

theorem test_can_ContributionsMergeInIndexOrder :
    let l : List (Nat × List StatRec × List Word) := [(3, [], [zero32]), (1, [], [one32])]
    (l.map (·.1)).Nodup ∧ [(1, [], [one32]), (3, [], [zero32])].Perm l
      ∧ [((1 : Nat), ([] : List StatRec), [one32]), (3, [], [zero32])].Pairwise (fun a b => a.1 < b.1) := by decide +kernel

/-- A Compute core in Squall after an uncorrectable error, with a Media reset in progress. -/
def faulted : State :=
  let q : Squall := ⟨ms 5, 5, none, 2, false, none, none, none, false⟩
  { running with job := { running.job with phase := .squall, squall := some q },
                 compute := { running.compute with inReset := true },
                 integrity := { running.integrity with resets := [(1, 0), (3, 0), (4, 0)] } }

theorem test_can_FaultsTakeTheirLevels :
    running.dawn.phase = .passed ∧ running.job.phase = .running ∧ running.job.dusk = none ∧ running.inRing = false
      ∧ service.job.phase = .idle ∧ faulted.job.phase = .squall ∧ faulted.job.squall.isSome = true
      ∧ faulted.job.deferred = none ∧ faulted.compute.inReset = true
      ∧ ∀ p ∈ [1, 3, 4], faulted.integrity.resets.find? (·.1 == p) = some (p, 0) := by decide +kernel

/-- Histories in which rule 1, 2, 3 or 4 is the first that holds. -/
theorem test_can_LowestRuleIsRecorded :
    let u : BitVec 32 := 0x07000001
    let e : Nat → BitVec 32 → HistEntry := fun h site => ⟨u, site, 0x4201, h, 0⟩
    let a := [e 0 0xFFFFFFFF, e 72000 0xFFFFFFFF, e 36000 0xFFFFFFFF]
    let b := [e 0 3, e 72001 3]
    (ruleOne u a = true) ∧ (ruleOne u b = false ∧ ruleTwo u b = true)
      ∧ (ruleOne u [] = false ∧ ruleTwo u [] = false)
      ∧ (ruleOne u [e 0 3] = false ∧ ruleTwo u [e 0 3] = false
          ∧ (u.toNat / 0x1000000 == 7 && [e 0 3].any (·.unit == u)) = true)
      ∧ service.dawn.phase ≠ .eclipse := by decide +kernel

theorem test_can_HistoryPagesAndTheWatchPeriod :
    let s := { service with integrity := { service.integrity with pageDue := some 0 } }
    let w := { service with integrity := { service.integrity with watch := true, baseHours := 24000 } }
    historyDue (s.arrive 1) = true ∧ historyDue (service.arrive (sec 600)) = true
      ∧ historyDue (service.arrive (sec 600 - 1)) = false
      ∧ w.integrity.watch = true ∧ w.integrity.watchEnds = false ∧ 24000 ≤ (w.arrive 1).millihours := by decide +kernel

/-- A directory entry. -/
def entryOf (status : Residency) (frame lastUse : Nat) : DirEntry := ⟨false, false, 21, 0, status, frame, lastUse, 0⟩

/-- A stored segment of one raw block of zeros for entry 2, at the start of the weight store, being read into frame 0. -/
def filling : State :=
  let seg := toLe 4 2 ++ toLe 2 1 ++ [0, 0] ++ toLe 4 0x7705753D ++ zeros 4 ++ toLe 4 1040
  let blk := [0, 0] ++ toLe 2 4096 ++ toLe 4 0x98F94189
  { service with
    mem := { service.mem with store := (service.mem.store.writeBytes 0 seg).writeBytes 1040 blk },
    tier := { service.tier with entries := [(2, entryOf .filling 0 0)], fill := some ⟨2, 0, 0, 0⟩, frames := 1 } }

set_option maxRecDepth 65536 in
theorem test_can_FillsBringSegmentsIn_data :
    filling.mem.wf = true ∧ filling.dirEntry 2 = some (entryOf .filling 0 0)
      ∧ (match decodeSegment 2 (filling.readMem .store 0 (21 * 256)) with | .data _ => true | _ => false) = true := by
  decide +kernel

theorem test_can_FillsBringSegmentsIn :
    (let s := { service with tier := { service.tier with entries := [(2, entryOf .absent 0 0)], queue := [⟨0, 0, 2⟩],
                                                         frames := 1 } }
     s.tier.fill = none ∧ s.tier.inReset = false ∧ queueHead s = some ⟨0, 0, 2⟩ ∧ takeFrame s = some (0, none)
       ∧ s.dirEntry 2 = some (entryOf .absent 0 0))
      ∧ (let s := { service with tier := { service.tier with
           entries := [(2, entryOf .absent 0 0), (3, entryOf .resident 0 0)], queue := [⟨0, 0, 2⟩], frames := 1 } }
         takeFrame s = some (0, some 3) ∧ (3 : Nat) ≠ 2 ∧ s.dirEntry 3 = some (entryOf .resident 0 0))
      ∧ (let s := { service with tier := { service.tier with entries := [(2, entryOf .absent 0 0)], queue := [⟨0, 0, 2⟩] } }
         takeFrame s = none ∧ s.tier.starved ≠ some s.tick.index)
      ∧ filling.tier.fill = some ⟨2, 0, 0, 0⟩
      ∧ (let s := { filling with tier := { filling.tier with fill := some ⟨2, 0, 1, 0⟩ } }
         s.tier.fill = some ⟨2, 0, 1, 0⟩ ∧ s.dirEntry 2 = some (entryOf .filling 0 0)) := by decide +kernel

/-- A plan whose media table has an encode entry 0 and a decode entry 4. -/
def mediaPlan : Plan := ⟨zeros 128, [⟨0x0B, 0, 0xFF, 0, ([1] ++ zeros 255) ++ ([2] ++ zeros 127), 0⟩]⟩

/-- A running job in which encode entry 0 and decode entry 4 work on frame 3. -/
def mediaBusy : State := planned mediaPlan { running with
  job := { running.job with frames := [⟨3, 3, {}, [], [], false, false⟩] },
  media := { running.media with
    streams := [{ busy := some (3, 5), key := true, out := some ⟨[1], true, 30, [2], [3]⟩ }, {}, {}, {}, { busy := some (3, 5) }, {}] } }

theorem test_can_MediaUnitsAndPicturesCommit :
    (mediaBusy.stream 0).busy = some (3, 5) ∧ isEncoder mediaBusy 0 = true
      ∧ (mediaBusy.stream 0).out = some ⟨[1], true, 30, [2], [3]⟩ ∧ (mediaBusy.stream 0).queue = []
      ∧ (mediaBusy.stream 4).busy = some (3, 5) ∧ 4 ∈ decodeEntries mediaBusy
      ∧ mediaBusy.job.frames.all (fun f => f.number == 3) = true := by decide +kernel

theorem shaped_mediaBusy : mediaBusy.shaped := by unfold State.shaped; decide

/-! ### The links -/

/-- A transaction flit for any member, next in order, with a payload. -/
def transaction (op src idx : Nat) (payload : Bytes) : Bytes :=
  flitOf 1 0 0 false false 0 0 (flitBody op 0 src 0xFF idx 0 32 5 payload)

/-- Whether a flit is heard, next in order and meant for this member. -/
def acceptsB (i : Instr) (s : State) : Bool := match arrivalOf i with
  | some a => portUp s a.port && (hear a.port a.errors a.flit s).1 && flitKind a.flit == 1 && flitOp a.flit == a.op
      && flitSeq a.flit == ((s.port a.port).lastSeq + 1) % 4096 && !flitNak a.flit && (s.port a.port).retrans.all (· < 8)
      && forMe s a.flit
  | none => false

/-- What `acceptsB` checks is that a shaped state accepts the flit. -/
theorem accepts_of {i : Instr} {s : State} {a : Arrival} (hs : s.shaped) (ha : arrivalOf i = some a)
    (h : acceptsB i s = true) : s.accepts a := by
  unfold acceptsB at h
  rw [ha] at h
  simp only [Bool.and_eq_true, beq_iff_eq, decide_eq_true_eq, Bool.not_eq_true', List.all_eq_true] at h
  exact ⟨⟨hs, h.1.1.1.1.1.1.1, h.1.1.1.1.1.1.2, h.1.1.1.1.1.2, h.1.1.1.1.2⟩, h.1.1.1.2, h.1.1.2, h.1.2, h.2⟩

theorem shaped_ringed (pos : Nat) : (ringed pos).shaped :=
  ⟨rfl, rfl, rfl, rfl, rfl, rfl, rfl, rfl, rfl, rfl, rfl, Nat.zero_le 1⟩

/-- One flit that is next in order, one that is not, one in a codeword with 16 symbol errors. -/
theorem test_can_FlitsAreAcceptedInOrder :
    acceptsB (.ready 1 0 (transaction 0x21 1 0 (toLe 8 5)) 15) (ringed 0) = true
      ∧ (let f := flitOf 1 7 0 false false 0 0 (flitBody 0x21 0 1 0xFF 0 0 32 5 [])
         (hear 0 0 f (ringed 0)).1 = true ∧ flitKind f = 1 ∧ flitOp f = 0x21
           ∧ flitSeq f ≠ (((ringed 0).port 0).lastSeq + 1) % 4096 ∧ flitNak f = false)
      ∧ (hear 0 16 (transaction 0x21 1 0 []) (ringed 0)).1 = false := by decide +kernel

/-- A collective in flight, for the pieces of another member. -/
def collecting : State := { ringed 1 with
  compute := { (ringed 1).compute with
    runs := [⟨0, 0, engine 0x07 (restWith [(28, 0xFF), (29, 0xFF)]), .running, [], [], [], [], .none, false, none⟩] } }

theorem test_can_FlitsActWhereTheyAreMeant :
    (∀ i ∈ [Instr.data 1 0 (transaction 0x01 0 7 []) 0, .part 1 0 (transaction 0x02 0 7 []) 0,
        .done 1 0 (transaction 0x11 0 7 []) 0, .clear 1 0 (transaction 0x10 0 7 []) 0,
        .tick 1 0 (transaction 0x20 0 0 (toLe 8 6)) 0, .ready 1 0 (transaction 0x21 0 0 (toLe 8 5)) 0,
        .abort 1 0 (transaction 0x22 0 0 (toLe 8 5)) 0, .request 1 0 (transaction 0x24 0 0 (toLe 2 0x0002)) 0],
      acceptsB i collecting = true)
      ∧ (collOfFlit collecting (transaction 0x01 0 7 [])).isSome = true
      ∧ clearConcerns collecting (transaction 0x10 0 7 []) = true ∧ collecting.followsRing = true
      ∧ collecting.job.phase = .running ∧ collecting.inRing = true ∧ collecting.inJob = true
      ∧ le (flitPayload (transaction 0x20 0 0 (toLe 8 6))) 0 8 = collecting.nextIndex
      ∧ byteAt (flitPayload (transaction 0x20 0 0 (toLe 8 6))) 9 = 0 ∧ 2 ≤ collecting.link.ringSize
      ∧ collecting.tick.index ≤ le (flitPayload (transaction 0x21 0 0 (toLe 8 5))) 0 8
      ∧ collecting.aborted = false ∧ collecting.job.dusk = none
      ∧ le (flitPayload (transaction 0x22 0 0 (toLe 8 5))) 0 8 = collecting.tick.index
      ∧ le (flitPayload (transaction 0x22 0 0 (toLe 8 5))) 8 2 ≠ 0x3A08
      ∧ le (flitPayload (transaction 0x24 0 0 (toLe 2 0x0002))) 0 2 = 0x0002 := by decide +kernel

/-- RESUME in Squall, and a REQUEST that decides T(0) of an ARMED member. -/
theorem test_can_FlitsActWhereTheyAreMeant_resume :
    let q : Squall := ⟨ms 5, 5, some 4, 2, true, none, none, none, true⟩
    let s := { ringed 1 with job := { (ringed 1).job with phase := .squall, squall := some q } }
    let f := transaction 0x23 0 0 (toLe 8 4 ++ toLe 8 9)
    acceptsB (.resume 1 0 f 0) s = true ∧ s.followsRing = true ∧ s.link.resumeAt = none
      ∧ q.c = tickOfCode (le (flitPayload f) 0 8)
      ∧ let a := { ringed 1 with job := { service.job with startReq := some (request 0x0001 []) } }
        let g := transaction 0x24 0 0 (request 0x0001 (zeros 208 ++ toLe 8 6000000))
        let d := transaction 0x24 0 0 (request 0x0001 (zeros 208 ++ toLe 8 noStart))
        acceptsB (.request 1 0 g 0) a = true ∧ acceptsB (.request 1 0 d 0) a = true ∧ a.link.position ≠ 0
          ∧ reqResume (request 0x0001 []) = false ∧ le (flitPayload g) 0 2 = 0x0001 ∧ le (flitPayload d) 0 2 = 0x0001
          ∧ le (flitPayload g) 216 8 ≠ noStart ∧ le (flitPayload d) 216 8 = noStart := by
  decide +kernel

/-- A NAK of port 0 that acknowledges nothing held, an idle flit, and IDENT flits of a good and of a wrong cable. -/
def nakFlit : Bytes := flitOf 0 0 9 false true 0 0 []
/-- An idle flit with credits, acknowledging SEQ 0. -/
def idleFlit : Bytes := flitOf 0 0 0 false false 3 1 []
/-- An IDENT that names a port of the peer. -/
def identFlit (peer : Byte) : Bytes := flitOf 2 0 0 false false 0 0 (flitBody 0x30 0 0 0 0 0 32 0 [1, peer])

theorem test_can_PortsCarryTrainAndIdentify :
    let s := ringed 0
    let tr := { service with link := { service.link with ports := List.replicate 4 { phase := .training } } }
    ((hear 0 15 idleFlit s).1 = true ∧ flitKind idleFlit = 0 ∧ flitNak idleFlit = false
        ∧ (hear 0 0 nakFlit s).1 = true ∧ flitKind nakFlit ≠ 1 ∧ flitNak nakFlit = true)
      ∧ (∀ n ∈ [2, 3], (hear 0 0 (identFlit n) s).1 = true ∧ flitKind (identFlit n) = 2 ∧ flitOp (identFlit n) = 0x30)
      ∧ byteAt (flitPayload (identFlit 2)) 1 = (0 + 2) % 4 ∧ byteAt (flitPayload (identFlit 3)) 1 ≠ (0 + 2) % 4
      ∧ (service.port 0).phase = .down ∧ service.dawn.phase = .passed
      ∧ (tr.port 0).phase = .training ∧ tr.link.formBy = none := by decide +kernel

theorem test_can_PortsCarryTrainAndIdentify_replay :
    let p : Port := { phase := .up, replay := [zeros 256], retrans := [6] }
    p.waiting = [] ∧ (∀ r ∈ p.retrans, r < 7) ∧ p.replay = [] ++ zeros 256 :: []
      ∧ flitSeq (zeros 256) = flitAck idleFlit ∧ (∀ y ∈ p.replay, flitSeq y ≠ flitAck nakFlit) := by decide +kernel

/-- A port whose replay buffer is full and that has had no ACK, outside a job and in a job of a ring. -/
def stalled (s : State) : State := { s with link := { s.link with
  ports := s.link.ports.set 0 { phase := .up, replay := List.replicate 512 [] } } }

theorem test_can_PortsCarryTrainAndIdentify_stall :
    (let s := stalled service
     s.dawn.phase ≠ .eclipse ∧ (s.port 0).phase = .up ∧ s.inRing = false ∧ s.job.phase = .idle
       ∧ 512 ≤ (s.port 0).replay.length ∧ (s.port 0).ackAt = none)
      ∧ let s := stalled (ringed 0)
        s.dawn.phase ≠ .eclipse ∧ (s.port 0).phase = .up ∧ s.inRing = true ∧ s.job.phase = .running ∧ s.job.dusk = none
          ∧ s.aborted = false ∧ 512 ≤ (s.port 0).replay.length ∧ (s.port 0).ackAt = none :=
  ⟨⟨by decide, rfl, rfl, rfl, Nat.le_of_eq List.length_replicate.symm, rfl⟩,
   ⟨by decide, rfl, rfl, rfl, rfl, rfl, Nat.le_of_eq List.length_replicate.symm, rfl⟩⟩

theorem test_can_RingsFormAndRecoverTogether_probe :
    let s := { service with link := { service.link with
      probes := [[1]],
      ports := List.replicate 4 { phase := .up, identified := true, sameImages := true, peerGa := 1 } } }
    let own := flitOf 2 0 0 false false 0 0 (flitBody 0x31 0 0 0 0 0 32 0 (slice [0, 1] 0 16 ++ toLe 1 2))
    let other := flitOf 2 0 0 false false 0 0 (flitBody 0x31 0 0 0 0 0 32 0 (slice [1] 0 16 ++ toLe 1 1))
    (portUp s 2 = true ∧ (hear 2 0 own s).1 = true ∧ flitKind own = 2 ∧ flitOp own = 0x31 ∧ forming s = true
        ∧ s.link.formed = false ∧ s.dawn.ga = 0 ∧ ∀ m ∈ s.link.probes, m.head? ≠ some 0)
      ∧ (List.range (byteAt (flitPayload own) 16)).map (fun i => byteAt (flitPayload own) i % 16) = [0, 1]
      ∧ passesNeighbours [0, 1] s = true ∧ [0, 1].Nodup ∧ [0, 1].length ≤ s.link.probes.length + 1
      ∧ (∀ m ∈ s.link.probes, m = [0, 1].drop ([0, 1].length - m.length))
      ∧ (hear 2 0 other s).1 = true ∧ flitKind other = 2 ∧ flitOp other = 0x31
      ∧ (List.range (byteAt (flitPayload other) 16)).map (fun i => byteAt (flitPayload other) i % 16) = [1] := by
  decide +kernel

theorem test_can_RingsFormAndRecoverTogether :
    let q : Squall := ⟨ms 5, 5, some 4, 2, true, some (ms 6), none, none, true⟩
    let s := { ringed 0 with job := { (ringed 0).job with phase := .squall, squall := some q },
                             link := { (ringed 0).link with reports := [⟨1, 4, true⟩] } }
    ((ringed 0).inRing = true ∧ (ringed 0).job.phase = .running ∧ (ringed 0).job.dusk = none
        ∧ (ringed 0).tick.boundary + (ringed 0).tick.tp * 95 / 100 ≤ max (ringed 0).now (ms 5 + us 950)
        ∧ readyHeld (ringed 0) = false ∧ (ringed 0).tickCommitted = false ∧ (ringed 0).aborted = false)
      ∧ ((ringed 0).job.position = 0 ∧ 1 < (ringed 0).job.variant ∧ (ringed 0).inJob = true
        ∧ (ringed 0).link.memberDusk = none)
      ∧ (s.inRing = true ∧ s.job.phase = .squall ∧ s.job.squall = some q ∧ q.ring = true ∧ s.link.resumeAt = none
        ∧ q.complete.isSome = true ∧ s.job.position = 0 ∧ s.link.position = 0 ∧ s.ringUp = true
        ∧ s.link.ringSize = s.job.variant ∧ othersRestored s = true ∧ ∀ r ∈ s.link.reports, tickOfCode r.tick = q.c)
      ∧ q.detected + sec 3 ≤ max s.now (ms 5 + sec 3) := by decide +kernel

/-! ### Power, Dawn and the sideband -/

theorem test_can_PowerAndTrips_power :
    (let s := State.reset
     s.stratus.pwrLow = some 0 ∧ s.stratus.supply = true ∧ s.dawn.phase = .unpowered ∧ s.stratus.senseClosed = some 0
       ∧ 0 + ms 100 ≤ max s.now (ms 100) ∧ s.stratus.phase = .standby)
      ∧ (let s := { State.reset with stratus := { State.reset.stratus with phase := .safe } }
         s.stratus.pwrLow = some 0 ∧ s.stratus.supply = true ∧ s.dawn.phase = .unpowered ∧ s.stratus.phase = .safe)
      ∧ (service.dawn.phase ≠ .unpowered ∧ service.stratus.supply = true ∧ service.stratus.pwrEn = true)
      ∧ (let s := { State.reset with stratus := { State.reset.stratus with pwrEn := true, senseClosed := none } }
         s.stratus.supply = true ∧ s.stratus.pwrEn = true ∧ s.stratus.vinOk = true ∧ s.stratus.phase = .standby
           ∧ s.dawn.phase = .unpowered
           ∧ s.stratus.senseClosed = none ∧ ms 100 ≤ max s.now (ms 100))
      ∧ ({ State.reset with stratus := { State.reset.stratus with supply := false } } : State).stratus.supply = false := by
  decide +kernel

/-- Readings in which no trip condition holds: 48 V, 11 V on the intermediate bus, all else at rest. -/
def calm : Readings := { noReadings with voltage := (4800, 4800), bus := (1100, 1100) }

theorem test_can_PowerAndTrips_trips :
    (service.stratus.supply = true ∧ (∀ code ∈ [0x5A04, 0x5A0B], (tripPaths code).isSome = true)
        ∧ tripHolds noReadings 0x5A04 = true ∧ tripHolds calm 0x5A04 = false ∧ noTripHolds calm = true
        ∧ noTripHolds noReadings = false ∧ State.reset.stratus.vinOk = true)
      ∧ (let s := { service with stratus := { service.stratus with stage := false } }
         s.stratus.supply = true ∧ s.stratus.stage = false ∧ s.stratus.switch = true)
      ∧ (let s := { State.reset with stratus := { State.reset.stratus with phase := .safe, tripAt := some 0, pwrEn := true,
                                                                           pwrLow := none, cycled := true } }
         s.stratus.phase = .safe ∧ s.stratus.tripAt = some 0 ∧ s.stratus.cycled = true ∧ s.stratus.pwrEn = true
           ∧ 0 + sec 60 ≤ max s.now (sec 60) ∧ max s.now (sec 60 - 1) < 0 + sec 60 ∧ s.stratus.supply = true
           ∧ s.stratus.senseClosed = some 0 ∧ 0 + ms 100 ≤ max s.now (sec 60) ∧ s.dawn.phase = .unpowered) := by
  decide +kernel

/-- Services at 5 ms and 15 ms after the last one are in time, at one unit before or after they are not. -/
theorem test_can_WatchdogGuardsBothSides :
    let s := { service with stratus := { service.stratus with wdogAt := some 0, wdogSeq := some 3 } }
    (s.stratus.supply = true ∧ s.stratus.phase = .on ∧ s.stratus.wdogAt = some 0 ∧ s.stratus.wdogSeq = some 3
        ∧ 0 + ms 5 ≤ max s.now (ms 5) ∧ max s.now (ms 15) ≤ 0 + ms 15 ∧ ¬ 0 + ms 5 ≤ max s.now (ms 5 - 1)
        ∧ ¬ max s.now (ms 15 + 1) ≤ 0 + ms 15)
      ∧ (2 ≤ missesNow (s.arrive (ms 25)) ∧ s.dawn.phase = .passed ∧ s.job.phase = .idle ∧ running.job.phase = .running
          ∧ running.job.dusk = none)
      ∧ service.stratus.wdogAt = none ∧ service.stratus.wdogMisses < 2 ∧ service.stratus.healthy = true := by
  decide +kernel

theorem test_can_NimbusMeasuresAndWarns :
    let s := { service with nimbus := { service.nimbus with holding := [(0x5903, 0)], readings := { noReadings with
      inlet := (0, 1000) } } }
    s.dawn.phase ≠ .unpowered ∧ s.nimbus.sampled = some 0
      ∧ s.nimbus.holding.find? (·.1 == 0x5903) = some (0x5903, 0)
      ∧ 0 + confirmTime 0x5903 ≤ max s.now (confirmTime 0x5903) ∧ s.nimbus.inForce.contains 0x5903 = false
      ∧ s.dawn.phase = .passed ∧ running.job.phase = .running ∧ s.stratus.phase = .on
      ∧ s.nimbus.inForce.contains 0x5909 = false
      ∧ (pairDiff s.nimbus.readings .inlet).2 < (pairDiff s.nimbus.readings .inlet).1 := by decide +kernel

theorem test_can_DawnsEnd :
    let c := { State.reset with dawn := { State.reset.dawn with phase := .cold } }
    c.dawn.phase = .cold ∧ c.stratus.mpEnable = true ∧ c.dawn.overruns = 0 ∧ c.dawn.code = 0
      ∧ ({ c with dawn := { c.dawn with overruns := 1 } } : State).dawn.overruns ≠ 0
      ∧ (dawned .warm running).dawn.phase = .warm := by decide +kernel

/-- A warm Dawn whose images and plan regions are those in use. -/
def unchanged : State := dawned .warm { running with dawn := { running.dawn with
  fwMeasure := measurement (slotImage running.flash 0 ((bootRecord running.flash).slot 0)),
  regionDigest := Config.sha384 (running.readMem .hbm 0 (imgBody running.dawn.planImage).length) } }

/-- Its checks pass, and fail where the self-test does. -/
theorem test_can_DawnsEnd_warm : warmChecks true true unchanged = true ∧ warmChecks false true unchanged = false := by
  constructor
  · have h : warmChecks true true unchanged
        = (unchanged.dawn.fwMeasure == unchanged.dawn.fwMeasure
          && unchanged.dawn.regionDigest == unchanged.dawn.regionDigest
          && unchanged.dawn.regionDigest == unchanged.dawn.regionDigest && true && true) := rfl
    simp [h]
  · simp [warmChecks]

theorem test_can_SidebandTargetsAnswer :
    let e : EventRec := ⟨0x4202, 0, 0, false, 0, 0, 0, 0⟩
    let s := { service with sideband := { service.sideband with queue := [e] },
                            stratus := { service.stratus with trips := [⟨0x5A02, 0, noReadings, 0, false⟩] } }
    targetAnswers s .management = true ∧ targetAnswers s .stratus = true ∧ service.sideband.queue = []
      ∧ s.sideband.queue = [e] ∧ s.sideband.refusedAt = none ∧ s.sideband.maxRead = 0
      ∧ s.stratus.trips[0]? = some ⟨0x5A02, 0, noReadings, 0, false⟩ ∧ s.stratus.trips[15]? = none
      ∧ targetAnswers State.reset .management = false := by decide +kernel

/-! ### Well-formedness: an ill-formed term for each check, and a well-formed one beside it -/

theorem test_wf_core : (Instr.wait 0 63).wf = true ∧ (Instr.wait 0 64).wf = false ∧ (Instr.tileMm 0 64).wf = false := by decide
theorem test_wf_clock : (Instr.wordClockLock ⟨0, 2⟩).wf = true ∧ (Instr.wordClockUnlock ⟨0, 3⟩).wf = false := by decide
theorem test_wf_index : (Instr.commandFinish 0 63 4294967295 0).wf = true
    ∧ (Instr.commandFinish 0 63 4294967296 0).wf = false ∧ (Instr.commandDeadline 0 64 0).wf = false := by decide
theorem test_wf_partition : (Instr.partitionResetComplete 0 4).wf = true ∧ (Instr.partitionResetComplete 0 5).wf = false
    ∧ (Instr.eccCorrected 0 .sram 5).wf = false := by decide
theorem test_wf_media : (Instr.accessUnitStaged 0 3 7 5).wf = true ∧ (Instr.accessUnitStaged 0 4 7 5).wf = false
    ∧ (Instr.decodedPictureStaged 0 6 7 5 1).wf = false ∧ (Instr.decodedPictureStaged 0 5 7 5 1).wf = true := by decide
theorem test_wf_flit : (Instr.ready 0 3 (zeros 256) 0).wf = true ∧ (Instr.ready 0 4 (zeros 256) 0).wf = false
    ∧ (Instr.ready 0 3 (zeros 255) 0).wf = false ∧ (Instr.portUp 0 4).wf = false
    ∧ (Instr.fecLockLoss 0 3 4).wf = false ∧ (Instr.ident 0 0 (zeros 256) 0 65536).wf = false := by decide +kernel
theorem test_wf_request : (Instr.jobEnd 0 (zeros 256)).wf = true ∧ (Instr.jobEnd 0 (zeros 255)).wf = false := by decide +kernel
theorem test_wf_record : (Instr.inputRecord 0 (zeros 64) []).wf = true ∧ (Instr.inputRecord 0 (zeros 63) []).wf = false
    ∧ (Instr.inputRecord 0 (zeros 64) (List.replicate 256 none)).wf = false := by decide +kernel
theorem test_wf_registers : (Instr.ringEnable 0 5).wf = true ∧ (Instr.ringEnable 0 6).wf = false
    ∧ (Instr.dmaCompletionError 0 (some 6)).wf = false ∧ (Instr.dmaCompletionError 0 none).wf = true
    ∧ (Instr.errEntryRead 0 256).wf = false ∧ (Instr.errEntryLastRead 0 256).wf = false
    ∧ (Instr.msixSignal 0 64).wf = false ∧ (Instr.configurationRequest ⟨0, 8⟩).wf = true
    ∧ (Instr.configurationRequest ⟨0, 2⟩).wf = false ∧ (Instr.configurationRequest ⟨0, 4096⟩).wf = false
    ∧ (Instr.register64HighRead 0 16777216).wf = false
    ∧ (Instr.unsupportedBar0Access 0 16777216 1 true).wf = false := by decide +kernel
/-- Rows of their own take the writes of Table 13.5; BAR0 takes 4 or 8 aligned bytes, BAR2 any number inside it. -/
theorem test_wf_windows : (Instr.registerWrite 0 ⟨.bar0, 0xF0000⟩ (zeros 8)).wf = true
    ∧ (Instr.registerWrite 0 ⟨.bar0, 0xF0004⟩ (zeros 8)).wf = false ∧ (Instr.registerWrite 0 ⟨.bar0, 0xF0000⟩ (zeros 2)).wf = false
    ∧ (Instr.registerWrite 0 ⟨.bar0, 0x20000⟩ (zeros 4)).wf = false
    ∧ (Instr.registerWrite 0 ⟨.bar0, 16777216⟩ (zeros 4)).wf = false
    ∧ (Instr.registerWrite 0 ⟨.bar2, 4294967295⟩ (zeros 1)).wf = true
    ∧ (Instr.registerWrite 0 ⟨.bar2, 4294967295⟩ (zeros 2)).wf = false
    ∧ (Instr.register64LowRead 0 ⟨.bar0, 8, 8⟩).wf = true ∧ (Instr.register64LowRead 0 ⟨.bar0, 4, 8⟩).wf = false
    ∧ (Instr.register64LowRead 0 ⟨.bar0, 16777216, 4⟩).wf = false
    ∧ (Instr.register64LowRead 0 ⟨.bar2, 4294967296, 1⟩).wf = false := by decide +kernel
theorem test_wf_dawn : (Instr.dawnStepOverrun 0 1).wf = true ∧ (Instr.dawnStepOverrun 0 13).wf = true
    ∧ (Instr.dawnStepOverrun 0 0).wf = false ∧ (Instr.dawnStepOverrun 0 14).wf = false := by decide
theorem test_wf_power : (Instr.stratusTrip 0 ⟨0x5A0B, noReadings⟩).wf = true
    ∧ (Instr.stratusTrip 0 ⟨0x5A01, noReadings⟩).wf = false ∧ (Instr.stratusTrip 0 ⟨0x5A0C, noReadings⟩).wf = false ∧ (Instr.nimbusDuskRequest 0 0x5909).wf = true
    ∧ (Instr.nimbusDuskRequest 0 0x590A).wf = false ∧ (Instr.nimbusDuskRequest 0 0x5900).wf = false := by decide +kernel
theorem test_wf_sideband : (Instr.i3cTrip 0 256).wf = false ∧ (Instr.memberDuskCause 0 16 0).wf = false
    ∧ (Instr.memberDuskCause 0 15 65536).wf = false ∧ (Instr.memberDuskCause 0 15 65535).wf = true
    ∧ (Instr.newestCommittedTickReport 0 16 0 true).wf = false := by decide +kernel

/-! ### Single steps and single values -/

/-- No row of the opcode table has bits, so no word spells a command. -/
theorem test_decode_none : decodeTableWord 64 0x12345678 = none := rfl

/-- FP32 (R71 on): 1 + 1 = 2; 2^24 + 1 stays 2^24, a tie that goes to the even code. -/
theorem test_add_rounds : add32 0x3F800000 0x3F800000 = 0x40000000 ∧ add32 0x4B800000 0x3F800000 = 0x4B800000 := by
  decide +kernel

/-- F8 (R74): code 0x38 has E = 7 and M = 0, which is 1; F4 code 0x2 has E = 1 and M = 0, which is 1. -/
theorem test_small_codes : gF8.decode 0x38 = .fin false 8 (-3) ∧ gF4.decode 0x2 = .fin false 2 (-1) := by decide +kernel

/-- CRC-32C of the ASCII bytes 123456789 (R266). -/
theorem test_crc : crc32c [0x31, 0x32, 0x33, 0x34, 0x35, 0x36, 0x37, 0x38, 0x39] = 0xE3069283 := by decide +kernel

/-- What a step answers, where it goes on. -/
def after (c : Instr) (s : State) : Option State := match step (s.push c) with
  | .next u => some u
  | _ => none

theorem test_step_boundary : ((after (.internalBoundary (ms 6)) running).map fun u => (u.tick.index, u.tick.boundary))
    = some (6, ms 6) := by decide +kernel
theorem test_step_commit : ((after (.tickCommit (ms 5 + us 10)) running).map fun u => u.job.committed) = some (some 5) := by
  decide +kernel
theorem test_step_ring : ((after (.hqInTail 1 3) service).map fun u => (u.ring 0).host) = some 3 := by decide +kernel
theorem test_step_maintenance : ((after (.maintEnter 1 (request 0x0010 [])) service).map fun u => u.job.phase)
    = some .maintenance := by decide +kernel
theorem test_step_unknown_opcode :
    ((after (.mailboxUnknownOpcode 1 (request 0x7777 [])) service).map fun u => (u.ring 5).mine) = some 1 := by decide +kernel
theorem test_step_copy : ((after (.copy 1 0 none)
      (let s := withCommand (engine 0x05 (restWith [(20, 0x00)]))
       { s with mem := { s.mem with scratch := s.mem.scratch.writeBytes 0 [1, 2, 3, 4] } })).map fun u =>
    (u.mem.scratch.readBytes 0 4, u.compute.runs.length)) = some ([1, 2, 3, 4], 1) := by decide +kernel
theorem test_step_finish : ((after (.commandFinish 1 0 7 0) (inFlight (engine 0x06 []) .none [] .running)).map fun u =>
    (u.compute.done, u.compute.runs.length)) = some ([(0, 0)], 0) := by decide +kernel
theorem test_step_deadline : ((after (.commandDeadline (ms 5 + us 2) 0 7) (withCommand (engine 0x06 (restWith [])))).map
    fun u => (u.job.phase, u.newest)) = some (.squall, some 0x1702) := by decide +kernel
theorem test_step_parity : ((after (.parityFault 1 0 7 false) (inFlight (engine 0x06 []) .none [] .running)).map fun u =>
    (u.compute.reissue.map fun r => (r.1, r.2.1), u.job.level1Used)) = some ([(0, 0)], true) := by decide +kernel
theorem test_step_trip : ((after (.stratusTrip 1 ⟨0x5A04, noReadings⟩) service).map fun u => (u.stratus.phase, u.dawn.phase, u.sideband.faultN))
    = some (.safe, .unpowered, true) := by decide +kernel
theorem test_step_power_on : ((after (.pwrEnAssert ⟨ms 100, true⟩) State.reset).map fun u => (u.dawn.phase, u.dawn.due))
    = some (.cold, true) := by decide +kernel
theorem test_step_unknown_command :
    ((after (.i3cUnknownCommand 1 .stratus) service).map fun u => u.host.readData) = some (List.replicate 32 0xFF) := by
  decide +kernel
theorem test_step_port_up : ((after (.portUp 1 2) service).map fun u => (u.port 2).phase) = some .up := by decide +kernel
theorem test_step_flr : ((after (.functionLevelReset (ms 5 + us 1)) running).map fun u => (u.host.flr, u.job.phase))
    = some (true, .idle) := by decide +kernel

/-! ### Remaining hypotheses -/

theorem test_can_StepConsumesOneCommand : ∃ t, step (service.push (.wordClockLock ⟨1, 0⟩)) = .next t := ⟨_, rfl⟩
theorem test_can_StepKeepsMemoriesCanonical : service.mem.wf = true ∧ ∃ t, step service = .next t := ⟨rfl, _, rfl⟩
theorem test_can_FlashIsKeptAndItsCountersRise : ∃ t, exec (.i3cStatus 1) service = .next t := ⟨_, rfl⟩
theorem test_can_EightAndFourBitCodesHaveTheirValues : 255 < 256 ∧ 15 < 16 := by decide
theorem test_can_EightBitOperandsCountAsScaledByOne : (tensorOf [0, 0, 0, 0, 0, 0, 0x14, 2]).fmt = .f8 := by decide +kernel
theorem test_can_DistinctCountersGiveDistinctDraws : 1 < 2 ^ 64 ∧ 2 < 2 ^ 32 ∧ 3 < 2 ^ 16 ∧ 4 < 2 ^ 16
    ∧ mix 0 0 1 2 3 4 = mix 0 0 1 2 3 4 := ⟨by decide, by decide, by decide, by decide, rfl⟩

end Sys2Proof.Tests
end

section
/-! PROOFS. Numbers: the codes of the formats whose every code but NaN is finite (R74), and the unit block scale (R81). -/

namespace Sys2Proof.Machine

/-! ### Grids without infinities -/

/-- The value of a magnitude code in units of the smallest subnormal, 2^(emin - p): a subnormal is its fraction, a normal one
the fraction with its leading bit, shifted by the exponent field (R73, R74). -/
theorem Grid.magnitude_in_subnormals (g : Grid) (c : Nat) :
    g.emin - g.p ≤ (g.magnitude c).2
    ∧ (g.magnitude c).1 * 2 ^ ((g.magnitude c).2 - (g.emin - g.p)).toNat
      = if c / 2 ^ g.p = 0 then c % 2 ^ g.p else (2 ^ g.p + c % 2 ^ g.p) * 2 ^ (c / 2 ^ g.p - 1) := by
  by_cases hex : c / 2 ^ g.p = 0
  · simp [Grid.magnitude, hex]
  · have hshift : (g.emin - g.p + (c / 2 ^ g.p - 1 : Nat) - (g.emin - g.p)).toNat = c / 2 ^ g.p - 1 := by omega
    simp only [Grid.magnitude, if_neg hex, hshift, Nat.add_comm (c % 2 ^ g.p)]
    exact ⟨by omega, trivial⟩

/-- Every code of these grids is a sign and a magnitude, and every magnitude is finite: the one NaN takes the place of -0. -/
def Grid.AllFinite (g : Grid) : Prop :=
  g.negZero = false ∧ 2 ^ (g.width - 1) = g.maxCode + 1 ∧ g.nanCode = 2 ^ (g.width - 1)

theorem gF8_allFinite : gF8.AllFinite := ⟨rfl, rfl, rfl⟩

theorem gF4_allFinite : gF4.AllFinite := ⟨rfl, rfl, rfl⟩

theorem Grid.AllFinite.decode_nanCode {g : Grid} (hg : g.AllFinite) (hw : 0 < g.width) :
    g.decode g.nanCode = .nan := by
  obtain ⟨hzero, -, hnan⟩ := hg
  have hfits : g.nanCode < 2 ^ g.width := hnan ▸ Nat.pow_lt_pow_right (by omega) (by omega)
  simp [Grid.decode, hzero, Nat.mod_eq_of_lt hfits]

theorem Grid.AllFinite.decode_of_ne_nanCode {g : Grid} (hg : g.AllFinite) {c : Nat} (hc : c < 2 ^ g.width)
    (hne : c ≠ g.nanCode) :
    g.decode c = .fin (decide (2 ^ (g.width - 1) ≤ c)) (g.magnitude (c % 2 ^ (g.width - 1))).1
      (g.magnitude (c % 2 ^ (g.width - 1))).2 := by
  obtain ⟨-, hmax, -⟩ := hg
  have hmag : ¬ g.maxCode < c % 2 ^ (g.width - 1) := by
    have := Nat.mod_lt c (Nat.two_pow_pos (g.width - 1))
    omega
  simp [Grid.decode, Nat.mod_eq_of_lt hc, hne, hmag]

/-- NaN is the canonical code alone (R74, Table 3.5). -/
theorem Grid.AllFinite.decode_eq_nan_iff {g : Grid} (hg : g.AllFinite) (hw : 0 < g.width) {c : Nat} (hc : c < 2 ^ g.width) :
    g.decode c = .nan ↔ c = g.nanCode := by
  constructor
  · intro hnan
    refine Decidable.byContradiction fun hne => ?_
    rw [hg.decode_of_ne_nanCode hc hne] at hnan
    exact Val.noConfusion hnan
  · intro heq
    rw [heq]
    exact hg.decode_nanCode hw

/-- Every other code is finite, its sign the most significant bit and its value that of the magnitude below it (R74). -/
theorem Grid.AllFinite.decode_in_subnormals {g : Grid} (hg : g.AllFinite) {c : Nat} (hc : c < 2 ^ g.width)
    (hne : c ≠ g.nanCode) :
    let mag := c % 2 ^ (g.width - 1)
    ∃ n e, g.decode c = .fin (decide (2 ^ (g.width - 1) ≤ c)) n e ∧ g.emin - g.p ≤ e
      ∧ n * 2 ^ (e - (g.emin - g.p)).toNat
        = if mag / 2 ^ g.p = 0 then mag % 2 ^ g.p else (2 ^ g.p + mag % 2 ^ g.p) * 2 ^ (mag / 2 ^ g.p - 1) :=
  ⟨_, _, hg.decode_of_ne_nanCode hc hne, g.magnitude_in_subnormals _⟩

theorem gF8_decode_in_subnormals {c : Nat} (hc : c < 256) (hne : c ≠ 0x80) :
    ∃ n e, gF8.decode c = .fin (decide (128 ≤ c)) n e ∧ -9 ≤ e
      ∧ n * 2 ^ (e + 9).toNat = if c / 8 % 16 = 0 then c % 8 else (8 + c % 8) * 2 ^ (c / 8 % 16 - 1) := by
  have hexp : c % 128 / 8 = c / 8 % 16 := by omega
  have hfrac : c % 128 % 8 = c % 8 := by omega
  rw [← hexp, ← hfrac]
  exact gF8_allFinite.decode_in_subnormals hc hne

theorem gF4_decode_in_subnormals {c : Nat} (hc : c < 16) (hne : c ≠ 0x8) :
    ∃ n e, gF4.decode c = .fin (decide (8 ≤ c)) n e ∧ -1 ≤ e
      ∧ n * 2 ^ (e + 1).toNat = if c / 2 % 4 = 0 then c % 2 else (2 + c % 2) * 2 ^ (c / 2 % 4 - 1) := by
  have hexp : c % 8 / 2 = c / 2 % 4 := by omega
  have hfrac : c % 8 % 2 = c % 2 := by omega
  rw [← hexp, ← hfrac]
  exact gF4_allFinite.decode_in_subnormals hc hne

/-- Settles O39: both grids have a finite value at every code but NaN, which the magnitude gives in units of the smallest
subnormal. -/
theorem eightAndFourBitCodesHaveTheirValues : Obligations.EightAndFourBitCodesHaveTheirValues :=
  ⟨fun _ hc => ⟨gF8_allFinite.decode_eq_nan_iff (by decide) hc, gF8_decode_in_subnormals hc⟩,
   fun _ hc => ⟨gF4_allFinite.decode_eq_nan_iff (by decide) hc, gF4_decode_in_subnormals hc⟩⟩

/-! ### The unit block scale -/

/-- The block scale 0x7F is 2^0 (R80). -/
@[simp] theorem blockScale_unit : blockScale 0x7F = some 0 := rfl

@[simp] theorem applyScale_unit (v : Val) : applyScale 0x7F v = v := by
  cases v with
  | nan => rfl
  | fin neg m e => simp [applyScale]

/-- The elements of F8 and F8S share their grid, so that the scale alone tells them apart (Table 3.1). -/
theorem elementVal_f8s (code scale : Nat) :
    elementVal .f8s code scale = applyScale scale (elementVal .f8 code scale) := rfl

theorem readVal_of_f8 (s : State) (cx : Access) (t : Tensor) (ix : List Nat) (hf : t.fmt = .f8) :
    readVal s cx t ix = elementVal .f8 (readCode s cx t ix) 0x7F := by
  simp [readVal, readStored, readScale, hf, Fmt.blockScaled]

/-- Settles O40: the scale 0x7F is 2^0, and the block of a pair does not tell F8 from F8S. -/
theorem eightBitOperandsCountAsScaledByOne : Obligations.EightBitOperandsCountAsScaledByOne := by
  refine ⟨fun s cx t ix hf => ?_, rfl, rfl⟩
  rw [readVal_of_f8 s cx t ix hf, elementVal_f8s, applyScale_unit]

end Sys2Proof.Machine
end

section
/-! PROOFS. Random numbers: binary fractions that FP32 holds are rounded to themselves, and with them the uniform values
(R188). -/

namespace Sys2Proof.Machine

/-! ### Powers of two and the binary logarithm -/

theorem pow2_natCast (k : Nat) : pow2 k = (2 ^ k, 1) := by
  simp only [pow2, if_pos (Int.natCast_nonneg k), Int.toNat_natCast]

theorem pow2_neg_natCast (k : Nat) : pow2 (-k) = (1, 2 ^ k) := by
  cases k with
  | zero => rfl
  | succ k =>
    have hneg : ¬ (0 : Int) ≤ -(k + 1 : Nat) := by omega
    simp only [pow2, if_neg hneg, Int.neg_neg, Int.toNat_natCast]

/-- Where the denominator is a power of two, the logarithms of numerator and denominator give that of the fraction. -/
theorem floorLog2_two_pow {n : Nat} (hn : n ≠ 0) (k : Nat) : floorLog2 n (2 ^ k) = n.log2 - k := by
  have hlow : 2 ^ n.log2 ≤ n := Nat.log2_self_le hn
  obtain ⟨d, hd⟩ | ⟨d, hd⟩ : (∃ d, n.log2 = k + d) ∨ ∃ d, k = n.log2 + d := by
    rcases Nat.le_total k n.log2 with h | h
    · exact .inl (Nat.exists_eq_add_of_le h)
    · exact .inr (Nat.exists_eq_add_of_le h)
  · have hsub : ((n.log2 : Nat) : Int) - k = d := by omega
    have hnot : ¬ n < 2 ^ k * 2 ^ d := by rw [← Nat.pow_add, ← hd]; omega
    simp only [floorLog2, Nat.log2_two_pow, hsub, pow2_natCast, Nat.mul_one, if_neg hnot]
  · have hsub : ((n.log2 : Nat) : Int) - k = -d := by omega
    have hnot : ¬ n * 2 ^ d < 2 ^ k := by
      rw [hd, Nat.pow_add]
      exact Nat.not_lt.mpr (Nat.mul_le_mul_right _ hlow)
    simp only [floorLog2, Nat.log2_two_pow, hsub, pow2_neg_natCast, Nat.mul_one, if_neg hnot]

/-- Moving the leading bit of n to place p gives a number of p + 1 bits. -/
theorem mul_two_pow_sub_log2_bounds {n p : Nat} (hn : n ≠ 0) (hbits : n.log2 ≤ p) :
    2 ^ p ≤ n * 2 ^ (p - n.log2) ∧ n * 2 ^ (p - n.log2) < 2 ^ (p + 1) := by
  have hlow : 2 ^ p = 2 ^ n.log2 * 2 ^ (p - n.log2) := by rw [← Nat.pow_add]; congr 1; omega
  have hhigh : 2 ^ (p + 1) = 2 ^ (n.log2 + 1) * 2 ^ (p - n.log2) := by rw [← Nat.pow_add]; congr 1; omega
  rw [hlow, hhigh]
  exact ⟨Nat.mul_le_mul_right _ (Nat.log2_self_le hn),
    Nat.mul_lt_mul_of_pos_right Nat.lt_log2_self (Nat.two_pow_pos _)⟩

/-! ### Values that lie on a grid -/

/-- The magnitude code of n / 2^k in the normal range: its exponent step, and n with its leading bit moved to place p. -/
def Grid.normalCode (g : Grid) (n k : Nat) : Nat :=
  (n.log2 - k - g.emin : Int).toNat * 2 ^ g.p + n * 2 ^ (g.p - n.log2)

/-- A fraction n / 2^k in the normal range whose numerator has at most p + 1 bits lies on the grid. -/
theorem Grid.locate_normal (g : Grid) {n k : Nat} (hn : n ≠ 0) (hbits : n.log2 ≤ g.p) (hnormal : g.emin ≤ n.log2 - k) :
    g.locate n (2 ^ k) = (g.normalCode n k, 0, 2 ^ k) := by
  have hstep : (n.log2 - k - g.p : Int) = -(k + (g.p - n.log2) : Nat) := by omega
  have hbase : -((k + (g.p - n.log2) : Nat) : Int) - (g.emin - g.p) = n.log2 - k - g.emin := by omega
  have hnum : n * 2 ^ (k + (g.p - n.log2)) = 2 ^ k * (n * 2 ^ (g.p - n.log2)) := by
    rw [Nat.pow_add, Nat.mul_left_comm]
  have hex : ¬ (n.log2 - k : Int) < g.emin := by omega
  simp only [Grid.locate, floorLog2_two_pow hn, if_neg hex, hstep, hbase, pow2_neg_natCast, Nat.mul_one, hnum,
    Nat.mul_div_cancel_left _ (Nat.two_pow_pos k), Nat.mul_mod_right, Grid.normalCode]

/-- Such a fraction is rounded to its own code (R86). -/
theorem Grid.roundMag_normal (g : Grid) {n k : Nat} (hn : n ≠ 0) (hbits : n.log2 ≤ g.p)
    (hnormal : g.emin ≤ n.log2 - k) (hmax : g.normalCode n k ≤ g.maxCode) :
    g.roundMag n (2 ^ k) = g.normalCode n k := by
  have hexact : 2 * 0 < 2 ^ k := Nat.two_pow_pos k
  simp only [Grid.roundMag, if_neg hn, g.locate_normal hn hbits hnormal, if_pos hexact, Nat.min_eq_left hmax]

/-- A binary fraction is encoded by RNE as its rounded magnitude, under a sign bit of 0. -/
theorem Grid.encode_rne_neg_exponent (g : Grid) (n k : Nat) :
    g.encode .rne (.fin false n (-k)) = g.roundMag n (2 ^ k) := by
  simp only [Grid.encode, pow2_neg_natCast, Nat.mul_one]
  rfl

/-- In a grid with a negative zero, a code up to the largest finite magnitude is a positive value (R73). -/
theorem Grid.decode_of_le_maxCode {g : Grid} (hzero : g.negZero = true) (hwidth : g.maxCode < 2 ^ (g.width - 1)) {c : Nat}
    (hc : c ≤ g.maxCode) : g.decode c = .fin false (g.magnitude c).1 (g.magnitude c).2 := by
  have hmag : c < 2 ^ (g.width - 1) := by omega
  have hcode : c < 2 ^ g.width := Nat.lt_of_lt_of_le hmag (Nat.pow_le_pow_right (by omega) (Nat.sub_le _ _))
  simp [Grid.decode, hzero, Nat.mod_eq_of_lt hmag, Nat.mod_eq_of_lt hcode, Nat.not_lt.mpr hc, hmag]

/-! ### FP32 codes -/

theorem val32_ofNat_of_le_maxCode {c : Nat} (hc : c ≤ gFp32.maxCode) :
    val32 (BitVec.ofNat 32 c) = .fin false (gFp32.magnitude c).1 (gFp32.magnitude c).2 := by
  have hword : c < 2 ^ 32 := Nat.lt_of_le_of_lt hc (by decide)
  rw [val32, BitVec.toNat_ofNat, Nat.mod_eq_of_lt hword]
  exact Grid.decode_of_le_maxCode rfl (by decide) hc

/-- A positive normal code, with the leading bit of its significand m in place 23, in units of 2^-149 (R73). -/
theorem val32_ofNat_of_normal {s m : Nat} (hlow : 2 ^ 23 ≤ m) (hhigh : m < 2 ^ 24) (hmax : s * 2 ^ 23 + m ≤ gFp32.maxCode) :
    ∃ m' e, val32 (BitVec.ofNat 32 (s * 2 ^ 23 + m)) = .fin false m' e ∧ -149 ≤ e ∧ m' * 2 ^ (e + 149).toNat = m * 2 ^ s := by
  obtain ⟨hexp, hunits⟩ := gFp32.magnitude_in_subnormals (s * 2 ^ 23 + m)
  have hfield : (s * 2 ^ 23 + m) / 2 ^ 23 = s + 1 := by omega
  have hfrac : 2 ^ 23 + (s * 2 ^ 23 + m) % 2 ^ 23 = m := by omega
  refine ⟨_, _, val32_ofNat_of_le_maxCode hmax, hexp, hunits.trans ?_⟩
  simp only [gFp32, hfield, hfrac, Nat.add_sub_cancel, if_neg (Nat.succ_ne_zero s)]

theorem val32_zero32 : val32 zero32 = .fin false 0 (-149) := rfl

/-- FP32 holds every n / 2^k with n below 2^24 and k at most 126 exactly (R73, R86). Values are in units of 2^-149. -/
theorem round32_exact {n k : Nat} (hn : n < 2 ^ 24) (hk : k ≤ 126) :
    ∃ m e, val32 (round32 (.fin false n (-k))) = .fin false m e ∧ -149 ≤ e
      ∧ m * 2 ^ (e + 149).toNat = n * 2 ^ (149 - k) := by
  by_cases hzero : n = 0
  · have hword : round32 (.fin false n (-k)) = zero32 := by
      rw [round32, gFp32.encode_rne_neg_exponent, hzero]
      rfl
    exact ⟨0, -149, hword ▸ val32_zero32, Int.le_refl _, by rw [hzero, Nat.zero_mul, Nat.zero_mul]⟩
  · have hlog : n.log2 < 24 := (Nat.log2_lt hzero).mpr hn
    have hbits : n.log2 ≤ gFp32.p := Nat.le_of_lt_succ hlog
    have hnormal : gFp32.emin ≤ n.log2 - k := by simp only [gFp32]; omega
    obtain ⟨hlow, hhigh⟩ : 2 ^ 23 ≤ n * 2 ^ (23 - n.log2) ∧ n * 2 ^ (23 - n.log2) < 2 ^ 24 :=
      mul_two_pow_sub_log2_bounds hzero hbits
    have hcode : gFp32.normalCode n k = (n.log2 + 126 - k) * 2 ^ 23 + n * 2 ^ (23 - n.log2) := by
      have hstep : (n.log2 - k - -126 : Int).toNat = n.log2 + 126 - k := by omega
      simp only [Grid.normalCode, gFp32, hstep]
    have hmax : (n.log2 + 126 - k) * 2 ^ 23 + n * 2 ^ (23 - n.log2) ≤ gFp32.maxCode := by
      simp only [gFp32]; omega
    have hunits : n * 2 ^ (23 - n.log2) * 2 ^ (n.log2 + 126 - k) = n * 2 ^ (149 - k) := by
      rw [Nat.mul_assoc, ← Nat.pow_add]; congr 2; omega
    rw [round32, gFp32.encode_rne_neg_exponent, gFp32.roundMag_normal hzero hbits hnormal (hcode ▸ hmax), hcode, ← hunits]
    exact val32_ofNat_of_normal hlow hhigh hmax

/-! ### Uniform and raw values -/

/-- Settles O41: the 24 most significant bits of w0 are the numerator of a fraction over 2^24, which FP32 holds exactly. -/
theorem uniformValuesAreExact : Obligations.UniformValuesAreExact := by
  intro d hd
  have hn : d.w0 / 2 ^ 8 < 2 ^ 24 := by omega
  exact ⟨round32_exact hn (by decide), by omega, rfl, rfl⟩

end Sys2Proof.Machine
end

section
/-! PROOFS. The memory tiers: the CRC as a shift register that takes one byte after another (R266). -/

namespace Sys2Proof.Machine

/-! ### CRC-32C -/

/-- A byte goes into the register by exclusive-or, and eight shifts follow. -/
theorem crcByte_eq_foldl_crcBit (r : Nat) (x : Byte) :
    crcByte r x = (List.range 8).foldl (fun r _ => crcBit r) (r ^^^ x.toNat) := by
  have hbits : List.range 8 = [0, 1, 2, 3, 4, 5, 6, 7] := rfl
  simp only [hbits, List.foldl_cons, List.foldl_nil, crcByte]

/-- The final exclusive-or is its own inverse, so that the CRC of some bytes tells the register after them. -/
theorem crc32c_xor_ones (b : Bytes) : crc32c b ^^^ 0xFFFFFFFF = b.foldl crcByte 0xFFFFFFFF := by
  rw [crc32c, Nat.xor_assoc, Nat.xor_self, Nat.xor_zero]

@[simp] theorem crc32c_nil : crc32c [] = 0 := Nat.xor_self _

theorem crc32c_append_singleton (b : Bytes) (x : Byte) :
    crc32c (b ++ [x]) = crcByte (crc32c b ^^^ 0xFFFFFFFF) x ^^^ 0xFFFFFFFF := by
  rw [crc32c_xor_ones, crc32c, List.foldl_append, List.foldl_cons, List.foldl_nil]

/-- The check value of R266, of the ASCII bytes 123456789. -/
theorem crc32c_check_value : crc32c [0x31, 0x32, 0x33, 0x34, 0x35, 0x36, 0x37, 0x38, 0x39] = 0xE3069283 := by
  decide +kernel

/-- Settles O43: a byte appended goes into the register that the CRC of the bytes before it tells, and the check value is
computed. -/
theorem checksumsAreCrc32c : Obligations.ChecksumsAreCrc32c := by
  refine ⟨crc32c_nil, fun b x => ?_, crc32c_check_value⟩
  rw [crc32c_append_singleton, crcByte_eq_foldl_crcBit]
  rfl

end Sys2Proof.Machine
end

section
/-! PROOFS. Integrity: the lowest-numbered rule of R418 that holds is the rule of a classification (R467), and entering
Eclipse leaves the classification alone (R420). -/

namespace Sys2Proof.Machine

/-! ### The lowest-numbered rule -/

/-- Which of the rules 1 to 4 of R418 hold, in ascending order. -/
def rulesHold (unit : BitVec 32) (failedTest : Bool) (es : List HistEntry) : List Bool :=
  [ruleOne unit es, ruleTwo unit es, failedTest, unit.toNat / 0x1000000 == 7 && es.any (·.unit == unit)]

/-- `permanentRule` asks for the rules in ascending order, so that the first that holds is its answer (R467). -/
theorem permanentRule_of_first_holds {unit : BitVec 32} {failedTest : Bool} {es : List HistEntry} {n : Nat}
    (hholds : (rulesHold unit failedTest es)[n]? = some true)
    (hlower : ∀ m < n, (rulesHold unit failedTest es)[m]? = some false) :
    permanentRule unit failedTest es = n + 1 := by
  have hone : 0 < n → ruleOne unit es ≠ true := fun h => Bool.eq_false_iff.mp (Option.some.inj (hlower 0 h))
  have htwo : 1 < n → ruleTwo unit es ≠ true := fun h => Bool.eq_false_iff.mp (Option.some.inj (hlower 1 h))
  have htest : 2 < n → failedTest ≠ true := fun h => Bool.eq_false_iff.mp (Option.some.inj (hlower 2 h))
  unfold permanentRule
  match n, hholds with
  | 0, hholds => rw [if_pos (Option.some.inj hholds)]
  | 1, hholds => rw [if_neg (hone (by decide)), if_pos (Option.some.inj hholds)]
  | 2, hholds => rw [if_neg (hone (by decide)), if_neg (htwo (by decide)), if_pos (Option.some.inj hholds)]
  | 3, hholds =>
    rw [if_neg (hone (by decide)), if_neg (htwo (by decide)), if_neg (htest (by decide)), if_pos (Option.some.inj hholds)]

/-! ### What becomes of a classification -/

/-- The classification that the history holds: whether a unit is permanent, which, and by which rule (Table 15.11). -/
def IntegrityState.verdict (i : IntegrityState) : Bool × BitVec 32 × Nat := (i.permanent, i.permUnit, i.rule)

@[simp] theorem verdict_ite (c : Prop) [Decidable c] (a b : State) :
    (if c then a else b).integrity.verdict = if c then a.integrity.verdict else b.integrity.verdict :=
  apply_ite (fun s : State => s.integrity.verdict) ..

@[simp] theorem State.produce_integrity (s : State) (n : Nat) (b : Bytes) : (s.produce n b).integrity = s.integrity := rfl

@[simp] theorem State.produceData_integrity (s : State) (b : Bytes) : (s.produceData b).integrity = s.integrity := rfl

@[simp] theorem State.publish_integrity (s : State) (v : Option Nat) : (s.publish v).integrity = s.integrity := by
  have h := State.publish_still s v
  simp only [State.still, Prod.mk.injEq] at h
  simp only [h]

@[simp] theorem raiseAs_verdict (code : Nat) (alt : Bool) (d : Source) (oob : Bool) (arg : Nat) (s : State) :
    (raiseAs code alt d oob arg s).integrity.verdict = s.integrity.verdict := by
  rw [raiseAs_integrity]
  split <;> rfl

@[simp] theorem raise_verdict (code arg : Nat) (s : State) :
    (raise code arg s).integrity.verdict = s.integrity.verdict := raiseAs_verdict ..

@[simp] theorem pump_integrity (port : Nat) (s : State) : (pump port s).integrity = s.integrity := by
  refine List.foldlRecOn _ _ (motive := fun t : State => t.integrity = s.integrity) rfl fun t ht w _ => ?_
  cases w.origin <;> exact ht

@[simp] theorem reportToHead_integrity (kind : Nat) (payload : Bytes) (s : State) :
    (reportToHead kind payload s).integrity = s.integrity := pump_integrity ..

@[simp] theorem applyWatchEnd_verdict (s : State) : (applyWatchEnd s).integrity.verdict = s.integrity.verdict := by
  unfold applyWatchEnd
  split <;> rfl

@[simp] theorem leaveArmed_verdict (s : State) : (leaveArmed s).integrity.verdict = s.integrity.verdict :=
  applyWatchEnd_verdict _

@[simp] theorem causeDusk_verdict (code : Nat) (s : State) :
    (causeDusk code s).integrity.verdict = s.integrity.verdict := by
  unfold causeDusk
  (repeat' split) <;> simp

@[simp] theorem writeRecord_verdict (r : OutRecord) (s : State) :
    (writeRecord r s).integrity.verdict = s.integrity.verdict := by
  have hunits : (r.units.foldl (fun s u => s.produceData (padUnit u.data)) s).integrity = s.integrity :=
    List.foldlRecOn _ _ (motive := fun t : State => t.integrity = s.integrity) rfl fun _ ht _ _ => ht
  simp only [writeRecord, verdict_ite, raise_verdict, State.publish_integrity, State.produce_integrity, hunits, ite_self]

@[simp] theorem drainRecords_verdict (n : Nat) (s : State) :
    (drainRecords n s).integrity.verdict = s.integrity.verdict := by
  induction n generalizing s with
  | zero => rfl
  | succ n ih =>
    unfold drainRecords
    (repeat' split) <;> simp [ih]

@[simp] theorem markLate_integrity (s : State) : (markLate s).integrity = s.integrity := rfl

@[simp] theorem pushRecord_verdict (r : OutRecord) (s : State) :
    (pushRecord r s).integrity.verdict = s.integrity.verdict := by
  simp [pushRecord]

@[simp] theorem dueRecord_verdict (r : OutRecord) (s : State) :
    (dueRecord r s).integrity.verdict = s.integrity.verdict := by
  simp [dueRecord]

@[simp] theorem closeFrames_verdict (reason : GapReason) (s : State) :
    (closeFrames reason s).integrity.verdict = s.integrity.verdict :=
  List.foldlRecOn _ _ (motive := fun t : State => t.integrity.verdict = s.integrity.verdict) rfl
    fun t ht r _ => (dueRecord_verdict r t).trans ht

/-- The records of a job that Eclipse ends are written, which leaves the classification alone. -/
@[simp] theorem eclipseState_verdict (s : State) : (eclipseState s).integrity.verdict = s.integrity.verdict := by
  have hrecords : (if s.inJob then closeFrames .eclipse (killMedia (killCompute s))
      else killMedia (killCompute s)).integrity.verdict = s.integrity.verdict := by
    split
    · exact closeFrames_verdict ..
    · rfl
  exact hrecords

@[simp] theorem eclipseState_dawnPhase (s : State) : (eclipseState s).dawn.phase = .eclipse := rfl

/-! ### The event and the page -/

/-- The newest entry of the log carries the ARG of an event whose ARG the manual gives. -/
theorem raiseAs_head_of_argGiven {code : Nat} (hgiven : argGiven code = true) (alt : Bool) (d : Source) (oob : Bool)
    (arg : Nat) (s : State) :
    ∃ e, (raiseAs code alt d oob arg s).host.log.head? = some e ∧ e.code = code ∧ e.arg = arg := by
  unfold raiseAs
  simp only [emit_log, hgiven]
  exact ⟨_, rfl, rfl, rfl⟩

theorem enterEclipse_dawnPhase (unit : BitVec 32) (rule : Nat) (s : State) :
    (enterEclipse unit rule s).dawn.phase = .eclipse := by
  simp [enterEclipse]

theorem enterEclipse_verdict (unit : BitVec 32) (rule : Nat) (s : State) :
    (enterEclipse unit rule s).integrity.verdict = (true, unit, rule) :=
  (raiseAs_verdict ..).trans (eclipseState_verdict _)

/-- 0x4C01 is the newest event, its ARG the unit in the low half and the rule in the high half (log 17). -/
theorem enterEclipse_event (unit : BitVec 32) (rule : Nat) (s : State) :
    ∃ e, (enterEclipse unit rule s).host.log.head? = some e ∧ e.code = 0x4C01
      ∧ e.arg = unit.toNat + rule * 0x100000000 :=
  raiseAs_head_of_argGiven (by decide) ..

/-- RULE stands at byte 15 of a history page (Table 15.11). -/
theorem byteAt_historyPage_rule (s : State) (seq : Nat) : byteAt (historyPage s seq) 15 = s.integrity.rule % 256 := by
  simp [byteAt, historyPage, ascii, toLe]

theorem classify_of_permanentRule {unit : BitVec 32} {failedTest : Bool} {s : State} {rule : Nat}
    (hphase : s.dawn.phase ≠ .eclipse) (hrule : permanentRule unit failedTest s.integrity.entries = rule + 1) :
    classify unit failedTest s = enterEclipse unit (rule + 1) s := by
  simp [classify, hphase, hrule]

/-- Settles O47: the first rule that holds is the one with which the unit is classified; no record of the job that Eclipse
ends touches it, and the event and the page take it from there. -/
theorem lowestRuleIsRecorded : Obligations.LowestRuleIsRecorded := by
  intro unit failedTest s n hphase es holds hholds hlower u
  have hu : u = enterEclipse unit (n + 1) s :=
    classify_of_permanentRule hphase (permanentRule_of_first_holds hholds hlower)
  have hn : n < 4 := (List.getElem?_eq_some_iff.mp hholds).1
  have hverdict : u.integrity.verdict = (true, unit, n + 1) := hu ▸ enterEclipse_verdict ..
  obtain ⟨hpermanent, hunit, hrule⟩ : u.integrity.permanent = true ∧ u.integrity.permUnit = unit
      ∧ u.integrity.rule = n + 1 := by simpa only [IntegrityState.verdict, Prod.mk.injEq] using hverdict
  refine ⟨hu ▸ enterEclipse_dawnPhase .., hpermanent, hunit, hrule, hu ▸ enterEclipse_event .., fun seq => ?_⟩
  rw [byteAt_historyPage_rule, hrule]
  omega

end Sys2Proof.Machine
end

section
/-! PROOFS. The whole machine: what every step does with the queue, the clock, the flash and the memories. -/

namespace Sys2Proof

/-- The four commands that write the configuration flash (R388, R389, R415). -/
def Instr.writesFlash : Instr → Bool
  | .stageImage .. | .historyWrite .. | .coldDawn .. | .dawnStepOverrun .. => true
  | _ => false

end Sys2Proof

namespace Sys2Proof.Machine

/-- The engine commands all issue by `issue`. -/
theorem exec_of_issueOf {c : Instr} {e : Issue} (h : issueOf c = some e) (s : State) :
    exec c s = issue e.core e.host e.asked e.tensors e.work (s.arrive c.time) := by
  cases c <;> cases h <;> rfl

/-- The collectives all issue by `issueColl`. -/
theorem exec_of_collectiveOf {c : Instr} {core : Nat} {asked : Bytes → Bool} (h : collectiveOf c = some (core, asked))
    (s : State) : exec c s = issueColl asked core (s.arrive c.time) := by
  cases c <;> cases h <;> rfl

theorem issue_next_or_fault (core : Nat) (host : Bytes) (asked : Bytes → Bool) (tensors : State → Bytes → List Nat)
    (work : Access → Bytes → State → Work) (s : State) :
    (∃ t, issue core host asked tensors work s = .next t)
      ∨ issue core host asked tensors work s = .fault .addressOutsideSpace := by
  unfold issue
  repeat' split
  all_goals first
    | exact .inl ⟨_, rfl⟩
    | exact .inr rfl

theorem issueColl_next_or_fault (asked : Bytes → Bool) (core : Nat) (s : State) :
    (∃ t, issueColl asked core s = .next t) ∨ issueColl asked core s = .fault .addressOutsideSpace := by
  unfold issueColl
  repeat' split
  all_goals first
    | exact .inl ⟨_, rfl⟩
    | exact .inr rfl

/-- A command that issues to no engine answers a next state, whatever its operands. -/
theorem exec_answers (c : Instr) (hi : issueOf c = none) (hc : collectiveOf c = none) (s : State) :
    ∃ t, exec c s = .next t := by
  cases c
  all_goals first
    | exact ⟨_, rfl⟩
    | (cases hi; done)
    | cases hc

theorem exec_next_or_fault (c : Instr) (s : State) :
    (∃ t, exec c s = .next t) ∨ exec c s = .fault .addressOutsideSpace := by
  cases hi : issueOf c with
  | some e => rw [exec_of_issueOf hi]; exact issue_next_or_fault ..
  | none =>
    cases hc : collectiveOf c with
    | some e => rw [exec_of_collectiveOf hc]; exact issueColl_next_or_fault ..
    | none => exact .inl (exec_answers c hi hc s)

@[simp] theorem recordAer_kept (s : State) : (recordAer s).kept = s.kept := rfl

/-- A command that issues to no engine and writes no flash keeps the flash and the queue, and the clock where its arrival
has put it. -/
theorem exec_kept {c : Instr} {s t : State} (hi : issueOf c = none) (hc : collectiveOf c = none)
    (hx : c.writesFlash = false) (h : exec c s = .next t) : t.kept = (s.arrive c.time).kept := by
  cases c
  all_goals try (cases hi; done)
  all_goals try (cases hc; done)
  all_goals try (cases hx; done)
  all_goals cases h
  all_goals simp only [Instr.time]
  all_goals generalize s.arrive _ = u
  all_goals try (simp; done)
  all_goals repeat' split
  all_goals simp

theorem exec_advances_of_writesFlash {c : Instr} {s t : State} (hx : c.writesFlash = true) (h : exec c s = .next t) :
    Advances (s.arrive c.time) t := by
  cases c with
  | stageImage => cases h; exact stageImage_advances ..
  | historyWrite => cases h; exact historyWrite_advances ..
  | coldDawn => cases h; exact coldDawn_advances ..
  | dawnStepOverrun => cases h; exact dawnOverrun_advances ..
  | _ => cases hx

/-- Every command keeps the queue and the clock that its arrival leaves, and lowers no counter of the flash. -/
theorem exec_advances {c : Instr} {s t : State} (h : exec c s = .next t) : Advances (s.arrive c.time) t := by
  cases hi : issueOf c with
  | some e => rw [exec_of_issueOf hi] at h; exact .of_kept (issue_kept h)
  | none =>
    cases hc : collectiveOf c with
    | some e => rw [exec_of_collectiveOf hc] at h; exact .of_kept (issueColl_kept h)
    | none =>
      cases hx : c.writesFlash with
      | false => exact .of_kept (exec_kept hi hc hx h)
      | true =>
        exact exec_advances_of_writesFlash hx h

theorem exec_pending {c : Instr} {s t : State} (h : exec c s = .next t) : t.pending = s.pending :=
  (exec_advances h).pending

theorem exec_now {c : Instr} {s t : State} (h : exec c s = .next t) : t.now = max s.now c.time :=
  (exec_advances h).now

/-- Only the four commands that write the flash change it. -/
theorem exec_flash {c : Instr} {s t : State} (h : exec c s = .next t) (hx : c.writesFlash = false) : t.flash = s.flash := by
  have keeps : t.kept = (s.arrive c.time).kept := by
    cases hi : issueOf c with
    | some e => rw [exec_of_issueOf hi] at h; exact issue_kept h
    | none =>
      cases hc : collectiveOf c with
      | some e => rw [exec_of_collectiveOf hc] at h; exact issueColl_kept h
      | none => exact exec_kept hi hc hx h
  exact congrArg (·.2.2) keeps

theorem recordAer_wf {s : State} (h : s.mem.wf = true) : (recordAer s).mem.wf = true := h

/-- A command that issues to no engine keeps every memory canonical. -/
theorem exec_wf {c : Instr} {s t : State} (hi : issueOf c = none) (hc : collectiveOf c = none) (h : exec c s = .next t)
    (hs : s.mem.wf = true) : t.mem.wf = true := by
  have hu : (s.arrive c.time).mem.wf = true := hs
  cases c
  all_goals try (cases hi; done)
  all_goals try (cases hc; done)
  all_goals cases h
  all_goals simp only [Instr.time] at hu
  all_goals generalize s.arrive _ = u at hu ⊢
  all_goals clear hi hc hs
  all_goals try simp only []
  all_goals
    repeat' with_reducible first
      | exact hu | split | apply State.setPort_wf | apply State.setRing_wf | apply raiseAs_wf | apply raise_wf
      | apply applyWatchEnd_wf | apply respond_wf | apply killCompute_wf | apply killMedia_wf | apply duskStop_wf
      | apply countKind_wf | apply pageSoon_wf | apply countError_wf | apply startAbort_wf | apply forceModuleReset_wf
      | apply formationDue_wf | apply setStatus_wf | apply beginFill_wf | apply endFill_wf | apply stageUnit_wf
      | apply stagePicture_wf | apply showLock_wf | apply pulseEdge_wf | apply wordEdge_wf | apply internalEdge_wf
      | apply flywheelEdge_wf | apply forwardTimeout_wf | apply lockTimeout_wf | apply setClock_wf
      | apply clockUnlock_wf | apply cutoff_wf | apply commitDeadline_wf | apply commitTick_wf | apply deliver_wf
      | apply drainEnd_wf | apply recoveryComplete_wf | apply recoveryTimeout_wf | apply sample_wf
      | apply updateValve_wf | apply safetyDusk_wf | apply powerOff_wf | apply evaluatePower_wf | apply removePower_wf
      | apply trip_wf | apply poison_wf | apply levelTwo_wf | apply bridgeFault_wf | apply levelThree_wf
      | apply beginReset_wf | apply endReset_wf | apply endComputeReset_wf | apply historyWrite_wf | apply pickup_wf
      | apply serve_wf | apply storeWrite_wf | apply tableLoad_wf | apply selfTest_wf | apply attest_wf
      | apply stageImage_wf | apply telemetry_wf | apply historyRead_wf | apply moduleReset_wf | apply startJob_wf
      | apply ringDecision_wf | apply forwardRequest_wf | apply noteEnd_wf | apply applyStop_wf | apply noteKeys_wf
      | apply noteSplit_wf | apply inputRecord_wf | apply writePointer_wf | apply afterRoom_wf
      | apply arriveRecords_wf | apply enableRing_wf | apply disableRing_wf | apply complete_wf | apply readThrough_wf
      | apply readBarWord_wf | apply readBar0_wf | apply badAccess_wf | apply writeTable_wf | apply writeWindow_wf
      | apply configurationWord_wf | apply beginFlr_wf | apply linkDown_wf | apply notePort_wf | apply portDown_wf
      | apply takeHeader_wf | apply receive_wf | apply hearPlain_wf | apply bringUpPort_wf | apply takeIdent_wf
      | apply takeProbe_wf | apply takeTick_wf | apply takeReady_wf | apply takeAbortFlit_wf | apply ringRestored_wf
      | apply takeResume_wf | apply takeRequest_wf | apply finish_wf | apply deadlinePassed_wf
      | apply compareDigests_wf | apply arbitrate_wf | apply parityFault_wf | apply control_wf | apply takeClear_wf
      | apply takeColl_wf | apply setDynamic_wf | apply answer_wf | apply dropRecord_wf | apply coldDawn_wf
      | apply dawnOverrun_wf | apply warmDawn_wf | apply recordAer_wf | intro u hu | simp only [id_eq]

theorem exec_keeps_wf {c : Instr} {s t : State} (hs : s.mem.wf = true) (h : exec c s = .next t) : t.mem.wf = true := by
  cases hi : issueOf c with
  | some e => rw [exec_of_issueOf hi] at h; exact issue_wf (s := s.arrive c.time) hs h
  | none =>
    cases hc : collectiveOf c with
    | some e => rw [exec_of_collectiveOf hc] at h; exact issueColl_wf (s := s.arrive c.time) hs h
    | none => exact exec_wf hi hc h hs

theorem step_nil {s : State} (h : s.pending = []) : step s = .next s := by
  simp [step, h]

theorem step_cons {s : State} {c : Instr} {rest : List Instr} (h : s.pending = c :: rest) :
    step s = exec c (s.withQueue rest) := by
  simp [step, h]

/-- A step either idles on an empty queue or is the front command's effect on the state with the rest of the queue. -/
theorem step_cases {s t : State} (h : step s = .next t) :
    (s.pending = [] ∧ t = s) ∨ ∃ c rest, s.pending = c :: rest ∧ exec c (s.withQueue rest) = .next t := by
  cases hp : s.pending with
  | nil =>
    rw [step_nil hp] at h
    cases h
    exact .inl ⟨rfl, rfl⟩
  | cons c rest =>
    rw [step_cons hp] at h
    exact .inr ⟨c, rest, rfl, h⟩

end Sys2Proof.Machine

namespace Sys2Proof.Machine

/-- Settles O1, by the definition of a step on each form of the queue. -/
theorem stepRunsFrontCommand : Obligations.StepRunsFrontCommand :=
  ⟨fun _ _ _ h => step_cons h, fun _ h => step_nil h⟩

/-- Settles O2: a step is the front command's effect, which keeps the queue and the instant of its arrival. -/
theorem stepConsumesOneCommand : Obligations.StepConsumesOneCommand := by
  intro s t h
  obtain idle | ⟨c, rest, hq, hx⟩ := step_cases h
  · exact .inl idle
  · have onTime : t.now = max (s.withQueue rest).now c.time := exec_now hx
    exact .inr ⟨c, rest, hq, exec_pending hx, onTime⟩

theorem getD_replicate_self {α : Type} (k n : Nat) (d : α) : (List.replicate k d).getD n d = d := by
  simp [List.getD_eq_getElem?_getD, List.getElem?_replicate]
  split <;> rfl

/-- Settles O3: a step idles, or is the front command's effect, which keeps every memory canonical. -/
theorem stepKeepsMemoriesCanonical : Obligations.StepKeepsMemoriesCanonical := by
  intro s t hs h
  obtain ⟨-, rfl⟩ | ⟨c, rest, -, hx⟩ := step_cases h
  · exact hs
  · exact exec_keeps_wf (s := s.withQueue rest) hs hx

/-- Settles O4, by evaluation of the reset state. -/
theorem resetStandsEmpty : Obligations.ResetStandsEmpty := by
  unfold Obligations.ResetStandsEmpty
  refine ⟨rfl, rfl, rfl, ?_, rfl, rfl, rfl, rfl, rfl, ?_, ?_, rfl, rfl⟩
  · unfold State.shaped
    decide
  · intro n
    exact congrArg Ring.enable (getD_replicate_self 6 n {})
  · intro n
    exact congrArg Port.phase (getD_replicate_self 4 n {})

/-- Settles O6: every command advances the counters, and only those that write the flash change it. -/
theorem flashIsKeptAndItsCountersRise : Obligations.FlashIsKeptAndItsCountersRise := by
  intro c s t h
  obtain ⟨-, -, fw, plan, root⟩ := exec_advances h
  refine ⟨fw, plan, root, fun changed => ?_⟩
  have hx : c.writesFlash = true := by
    refine Decidable.byContradiction fun hn => ?_
    exact changed (exec_flash h (by simpa using hn))
  cases c with
  | stageImage | historyWrite | coldDawn | dawnStepOverrun => trivial
  | _ => cases hx

/-- Settles O7: an engine command answers or leaves its space, and every other command answers. -/
theorem commandsAnswerOrLeaveTheirSpace : Obligations.CommandsAnswerOrLeaveTheirSpace := by
  refine ⟨exec_next_or_fault, fun c s hi hc => ?_⟩
  obtain ⟨t, ht⟩ := exec_answers c hi hc s
  exact ⟨t, ht, exec_pending ht, exec_now ht⟩

end Sys2Proof.Machine
end

section
/-! PROOFS. Reductions divided over the tree, the draw function, and contributions in index order. -/

namespace Sys2Proof.Machine

/-! ### The tree of R94 -/

theorem ceilLog2_le_iff {a k : Nat} (ha : 0 < a) : ceilLog2 a ≤ k ↔ a ≤ 2 ^ k := by
  unfold ceilLog2
  split
  · have : 1 ≤ 2 ^ k := Nat.one_le_two_pow
    omega
  · have hne : a - 1 ≠ 0 := by omega
    rw [Nat.add_one_le_iff, Nat.log2_lt hne]
    omega

theorem ceilLog2_pos {a : Nat} (ha : 1 < a) : 0 < ceilLog2 a := by
  refine Decidable.byContradiction fun h => ?_
  have := (ceilLog2_le_iff (a := a) (k := 0) (by omega)).mp (by omega)
  omega

/-- The size of the left part of a node: the largest power of two below the node's own size (R94). -/
theorem ceilLog2_split {a : Nat} (ha : 1 < a) : 2 ^ (ceilLog2 a - 1) < a ∧ a ≤ 2 * 2 ^ (ceilLog2 a - 1) := by
  have pos := ceilLog2_pos ha
  constructor
  · refine Decidable.byContradiction fun h => ?_
    have := (ceilLog2_le_iff (a := a) (k := ceilLog2 a - 1) (by omega)).mpr (by omega)
    omega
  · have := (ceilLog2_le_iff (a := a) (k := ceilLog2 a) (by omega)).mp (Nat.le_refl _)
    rwa [← Nat.pow_succ', Nat.succ_eq_add_one, Nat.sub_add_cancel pos]

theorem treeSplit_of_lt {lo hi : Nat} (h : lo + 1 < hi) : treeSplit lo hi = lo + 2 ^ (ceilLog2 (hi - lo) - 1) := by
  rw [treeSplit, if_neg (by omega)]

/-- The split lies inside the node. -/
theorem treeSplit_inside {lo hi : Nat} (h : lo + 1 < hi) : lo < treeSplit lo hi ∧ treeSplit lo hi < hi := by
  have := ceilLog2_split (a := hi - lo) (by omega)
  have : 0 < 2 ^ (ceilLog2 (hi - lo) - 1) := Nat.two_pow_pos _
  rw [treeSplit_of_lt h]
  omega

/-- Both parts of a node are less deep than the node. -/
theorem ceilLog2_treeSplit {lo hi : Nat} (h : lo + 1 < hi) :
    ceilLog2 (treeSplit lo hi - lo) < ceilLog2 (hi - lo) ∧ ceilLog2 (hi - treeSplit lo hi) < ceilLog2 (hi - lo) := by
  obtain ⟨below, above⟩ := ceilLog2_split (a := hi - lo) (by omega)
  obtain ⟨left, right⟩ := treeSplit_inside h
  have pos := ceilLog2_pos (a := hi - lo) (by omega)
  have split := treeSplit_of_lt h
  have first := (ceilLog2_le_iff (a := treeSplit lo hi - lo) (k := ceilLog2 (hi - lo) - 1) (by omega)).mpr (by omega)
  have second := (ceilLog2_le_iff (a := hi - treeSplit lo hi) (k := ceilLog2 (hi - lo) - 1) (by omega)).mpr (by omega)
  omega

/-- Fuel above the depth of a node changes nothing. -/
theorem treeFold_fuel {α : Type} (f : α → α → α) (leaf : Nat → α) {n m lo hi : Nat} (hn : ceilLog2 (hi - lo) < n)
    (hm : ceilLog2 (hi - lo) < m) : treeFold f leaf n lo hi = treeFold f leaf m lo hi := by
  induction n generalizing m lo hi with
  | zero => omega
  | succ n ih =>
    cases m with
    | zero => omega
    | succ m =>
      simp only [treeFold]
      split
      · rfl
      next big =>
        obtain ⟨left, right⟩ := ceilLog2_treeSplit (lo := lo) (hi := hi) (by omega)
        rw [ih (m := m) (lo := lo) (by omega) (by omega), ih (m := m) (hi := hi) (by omega) (by omega)]

theorem tree_leaf {α : Type} (f : α → α → α) (leaf : Nat → α) (lo : Nat) : tree f leaf lo (lo + 1) = leaf lo := by
  simp [tree, treeFold]

/-- A node combines its two parts. -/
theorem tree_node {α : Type} (f : α → α → α) (leaf : Nat → α) {lo hi : Nat} (h : lo + 1 < hi) :
    tree f leaf lo hi = f (tree f leaf lo (treeSplit lo hi)) (tree f leaf (treeSplit lo hi) hi) := by
  obtain ⟨left, right⟩ := ceilLog2_treeSplit h
  rw [tree, treeFold, if_neg (by omega)]
  have leftPart := treeFold_fuel f leaf left (Nat.lt_succ_self _)
  have rightPart := treeFold_fuel f leaf right (Nat.lt_succ_self _)
  exact (congrArg (f · _) leftPart).trans (congrArg (f _) rightPart)

/-- A block that some part covers: the part is a node below the node at hand. -/
def PartsBelow (parts : List (Nat × Nat)) (lo hi : Nat) : Prop :=
  (∀ i, lo ≤ i → i < hi → ∃ p ∈ parts, p.1 ≤ i ∧ i < p.2)
    ∧ ∀ p ∈ parts, ∀ i, lo ≤ i → i < hi → p.1 ≤ i → i < p.2 → ∃ fuel, isNodeFuel p.1 p.2 fuel lo hi = true

/-- A node below a node is that node or lies below one of its two parts. -/
theorem isNodeFuel_cases {a b fuel lo hi : Nat} (h : isNodeFuel a b fuel lo hi = true) :
    (lo = a ∧ hi = b) ∨ lo + 1 < hi ∧ ∃ k, (b ≤ treeSplit lo hi ∧ isNodeFuel a b k lo (treeSplit lo hi) = true)
      ∨ (treeSplit lo hi ≤ a ∧ isNodeFuel a b k (treeSplit lo hi) hi = true) := by
  cases fuel with
  | zero => cases h
  | succ k =>
    rw [isNodeFuel] at h
    split at h
    · exact .inl ‹_›
    split at h
    · cases h
    refine .inr ⟨by omega, k, ?_⟩
    simp only [] at h
    split at h
    · exact .inl ⟨‹_›, h⟩
    split at h
    · exact .inr ⟨‹_›, h⟩
    · cases h

/-- Where a node that has blocks is no part itself, the parts lie below its two parts. -/
theorem PartsBelow.split {parts : List (Nat × Nat)} {lo hi : Nat} (h : PartsBelow parts lo hi) (pos : lo < hi)
    (other : (lo, hi) ∉ parts) :
    lo + 1 < hi ∧ PartsBelow parts lo (treeSplit lo hi) ∧ PartsBelow parts (treeSplit lo hi) hi := by
  obtain ⟨cover, below⟩ := h
  have apart : ∀ p ∈ parts, ¬ (lo = p.1 ∧ hi = p.2) := by
    rintro ⟨a, b⟩ hp ⟨rfl, rfl⟩
    exact other hp
  have inner : lo + 1 < hi := by
    obtain ⟨p, hp, low, high⟩ := cover lo (Nat.le_refl _) pos
    obtain ⟨fuel, node⟩ := below p hp lo (Nat.le_refl _) pos low high
    obtain same | ⟨inner, -⟩ := isNodeFuel_cases node
    · exact absurd same (apart p hp)
    · exact inner
  obtain ⟨left, right⟩ := treeSplit_inside inner
  refine ⟨inner, ⟨fun i a b => cover i a (by omega), fun p hp i a b low high => ?_⟩,
    fun i a b => cover i (by omega) b, fun p hp i a b low high => ?_⟩
  all_goals
    obtain ⟨fuel, node⟩ := below p hp i (by omega) (by omega) low high
    obtain same | ⟨-, k, ⟨side, sub⟩ | ⟨side, sub⟩⟩ := isNodeFuel_cases node
    · exact absurd same (apart p hp)
  · exact ⟨k, sub⟩
  · omega
  · omega
  · exact ⟨k, sub⟩

/-- The combination of parts above their nodes gives the root of the tree (R96). -/
theorem treeParts_eq_tree {α : Type} (f : α → α → α) (leaf : Nat → α) (parts : List (Nat × Nat)) {fuel lo hi : Nat}
    (deep : ceilLog2 (hi - lo) < fuel) (pos : lo < hi) (h : PartsBelow parts lo hi) :
    treeParts f (fun lo hi => if (lo, hi) ∈ parts then some (tree f leaf lo hi) else none) fuel lo hi
      = some (tree f leaf lo hi) := by
  induction fuel generalizing lo hi with
  | zero => omega
  | succ fuel ih =>
    by_cases part : (lo, hi) ∈ parts
    · simp [treeParts, part]
    · obtain ⟨inner, left, right⟩ := h.split pos part
      obtain ⟨low, high⟩ := treeSplit_inside inner
      obtain ⟨first, second⟩ := ceilLog2_treeSplit inner
      have l := ih (by omega) low left
      have r := ih (by omega) high right
      have big : ¬ hi - lo ≤ 1 := by omega
      simp [treeParts, part, big, l, r, tree_node f leaf inner]

/-! ### The draw -/

theorem mul_odd_injective {c x y : Nat} (odd : Nat.Coprime two64 c) (hx : x < two64) (hy : y < two64)
    (h : x * c % two64 = y * c % two64) : x = y := by
  have below {x y : Nat} (hx : x < two64) (h : x * c % two64 = y * c % two64) : x ≤ y := by
    have whole : two64 ∣ (x - y) * c := by
      rw [Nat.sub_mul]
      exact Nat.dvd_of_mod_eq_zero (Nat.sub_mod_eq_zero_of_mod_eq h)
    have small : x - y < two64 := Nat.lt_of_le_of_lt (Nat.sub_le ..) hx
    exact Nat.le_of_sub_eq_zero (Nat.eq_zero_of_dvd_of_lt (odd.dvd_of_dvd_mul_right whole) small)
  exact Nat.le_antisymm (below hx h) (below hy h.symm)

theorem xor_right_cancel {x y k : Nat} (h : x ^^^ k = y ^^^ k) : x = y := by
  simpa only [Nat.xor_assoc, Nat.xor_self, Nat.xor_zero] using congrArg (· ^^^ k) h

/-- A number that equals its own shift to the right is zero, so the fold of a word onto its low bits loses nothing. -/
theorem xorShift_injective {x y k : Nat} (hk : 0 < k) (h : x ^^^ (x / 2 ^ k) = y ^^^ (y / 2 ^ k)) : x = y := by
  simp only [← Nat.shiftRight_eq_div_pow] at h
  have fixed : x ^^^ y = (x ^^^ y) >>> k := by
    rw [Nat.shiftRight_xor_distrib]
    apply Nat.eq_of_testBit_eq
    intro i
    have := congrArg (·.testBit i) h
    simp only [Nat.testBit_xor] at this ⊢
    revert this
    cases x.testBit i <;> cases y.testBit i <;> cases (x >>> k).testBit i <;> cases (y >>> k).testBit i <;> simp
  rw [Nat.shiftRight_eq_div_pow] at fixed
  have zero : x ^^^ y = 0 := by
    refine Decidable.byContradiction fun hn => ?_
    have := Nat.div_lt_self (Nat.pos_of_ne_zero hn) (Nat.one_lt_two_pow (Nat.ne_of_gt hk))
    omega
  exact xor_right_cancel (zero.trans (Nat.xor_self y).symm)

/-- A state of mix within its 64-bit words. -/
def MixState.Fits (m : MixState) : Prop := m.a < two64 ∧ m.b < two64 ∧ m.ka < two64 ∧ m.kb < two64

theorem xor_lt_two64 {x y : Nat} (hx : x < two64) (hy : y < two64) : x ^^^ y < two64 :=
  Nat.xor_lt_two_pow (n := 64) hx hy

theorem mixRound_fits {m : MixState} : (mixRound m).Fits := by
  have cut (x : Nat) : x % two64 < two64 := Nat.mod_lt _ (by decide)
  have part {x k : Nat} (hx : x < two64) : x / k < two64 := Nat.lt_of_le_of_lt (Nat.div_le_self ..) hx
  exact ⟨xor_lt_two64 (xor_lt_two64 (cut _) (part (cut _))) (cut _), xor_lt_two64 (cut _) (part (cut _)), cut _, cut _⟩

/-- A round undoes nothing: under one key, distinct halves give distinct halves. -/
theorem mixRound_injective {m n : MixState} (hm : m.Fits) (hn : n.Fits) (ka : m.ka = n.ka) (kb : m.kb = n.kb)
    (h : mixRound m = mixRound n) : m = n := by
  obtain ⟨ma, mb, mka, mkb⟩ := hm
  obtain ⟨na, nb, nka, nkb⟩ := hn
  simp only [mixRound, MixState.mk.injEq] at h
  obtain ⟨hb, ha, -, -⟩ := h
  rw [ha] at hb
  have foldB := xor_right_cancel hb
  have foldA := xorShift_injective (by decide) ha
  have productB := xorShift_injective (by decide) foldB
  have sumA := mul_odd_injective (by decide) (xor_lt_two64 ma mka) (xor_lt_two64 na nka) foldA
  have sumB := mul_odd_injective (by decide) (xor_lt_two64 mb mkb) (xor_lt_two64 nb nkb) productB
  cases m
  cases n
  simp only at ka kb sumA sumB
  subst ka kb
  rw [xor_right_cancel sumA, xor_right_cancel sumB]

theorem counter_lt {e st d : Nat} (he : e < 2 ^ 32) (hst : st < 2 ^ 16) (hd : d < 2 ^ 16) :
    (st * 2 ^ 16 + d) * 2 ^ 32 + e < two64 := by
  unfold two64
  omega

/-- The counter of a draw as its two words determines the counter. -/
theorem counter_injective {e st d e' st' d' : Nat} (he : e < 2 ^ 32) (hd : d < 2 ^ 16) (he' : e' < 2 ^ 32)
    (hd' : d' < 2 ^ 16) (h : (st * 2 ^ 16 + d) * 2 ^ 32 + e = (st' * 2 ^ 16 + d') * 2 ^ 32 + e') :
    e = e' ∧ st = st' ∧ d = d' := by
  omega

/-- The state of mix before its first round. -/
def mixStart (seed stream index epoch step draw : Nat) : MixState :=
  ⟨index % two64, ((step * 2 ^ 16 + draw) * 2 ^ 32 + epoch) % two64, seed % two64, (stream * 2 ^ 32 + 0x4E2D96B1) % two64⟩

theorem mixStart_fits (seed stream index epoch step draw : Nat) : (mixStart seed stream index epoch step draw).Fits := by
  have cut (x : Nat) : x % two64 < two64 := Nat.mod_lt _ (by decide)
  exact ⟨cut _, cut _, cut _, cut _⟩

theorem mixRound_key {m n : MixState} (ka : m.ka = n.ka) (kb : m.kb = n.kb) :
    (mixRound m).ka = (mixRound n).ka ∧ (mixRound m).kb = (mixRound n).kb := by
  simp [mixRound, ka, kb]

/-- The draw that the state after the last round makes. -/
def MixState.out (m : MixState) : Draw :=
  ⟨(m.a ^^^ m.ka) % 2 ^ 32, (m.a ^^^ m.ka) / 2 ^ 32, (m.b ^^^ m.kb) % 2 ^ 32, (m.b ^^^ m.kb) / 2 ^ 32⟩

theorem mix_eq (seed stream index epoch step draw : Nat) :
    mix seed stream index epoch step draw
      = (mixRound (mixRound (mixRound (mixRound (mixStart seed stream index epoch step draw))))).out := by
  unfold mix MixState.out mixStart
  with_reducible rfl

theorem eq_of_div_mod {x y k : Nat} (low : x % k = y % k) (high : x / k = y / k) : x = y := by
  rw [← Nat.div_add_mod x k, ← Nat.div_add_mod y k, low, high]

theorem out_injective {m n : MixState} (ka : m.ka = n.ka) (kb : m.kb = n.kb) (h : m.out = n.out) : m = n := by
  obtain ⟨lowA, highA, lowB, highB⟩ := Draw.mk.inj h
  have a := eq_of_div_mod lowA highA
  have b := eq_of_div_mod lowB highB
  rw [ka] at a
  rw [kb] at b
  replace a := xor_right_cancel a
  replace b := xor_right_cancel b
  cases m
  cases n
  simp only at a b ka kb
  rw [a, b, ka, kb]

/-- Rounds that end in one draw, under one key, have begun in one state. -/
theorem rounds_injective {m n : MixState} (hm : m.Fits) (hn : n.Fits) (ka : m.ka = n.ka) (kb : m.kb = n.kb)
    (h : (mixRound (mixRound (mixRound (mixRound m)))).out = (mixRound (mixRound (mixRound (mixRound n)))).out) :
    m = n := by
  obtain ⟨ka1, kb1⟩ := mixRound_key ka kb
  obtain ⟨ka2, kb2⟩ := mixRound_key ka1 kb1
  obtain ⟨ka3, kb3⟩ := mixRound_key ka2 kb2
  obtain ⟨ka4, kb4⟩ := mixRound_key ka3 kb3
  have fourth := mixRound_injective mixRound_fits mixRound_fits ka3 kb3 (out_injective ka4 kb4 h)
  have third := mixRound_injective mixRound_fits mixRound_fits ka2 kb2 fourth
  have second := mixRound_injective mixRound_fits mixRound_fits ka1 kb1 third
  exact mixRound_injective hm hn ka kb second

/-! ### Contributions in index order -/

theorem insertBy_perm {α : Type} (le : α → α → Bool) (x : α) (l : List α) : (insertBy le x l).Perm (x :: l) := by
  induction l with
  | nil => exact .refl _
  | cons y ys ih =>
    rw [insertBy]
    split
    · exact (ih.cons y).trans (.swap ..)
    · exact .refl _

theorem foldl_insertBy_perm {α : Type} (le : α → α → Bool) (l acc : List α) :
    (l.foldl (fun acc x => insertBy le x acc) acc).Perm (acc ++ l) := by
  induction l generalizing acc with
  | nil => simp
  | cons x xs ih => exact (ih _).trans (((insertBy_perm le x acc).append_right xs).trans List.perm_middle.symm)

theorem sortBy_perm {α : Type} (le : α → α → Bool) (l : List α) : (sortBy le l).Perm l :=
  foldl_insertBy_perm le l []

section
variable {α : Type} {key : α → Nat}

/-- Insertion by a key keeps the keys rising. -/
theorem insertBy_pairwise {x : α} {l : List α} (h : l.Pairwise (fun a b => key a ≤ key b)) :
    (insertBy (fun a b => decide (key a ≤ key b)) x l).Pairwise (fun a b => key a ≤ key b) := by
  induction l with
  | nil => exact List.pairwise_singleton _ _
  | cons y ys ih =>
    obtain ⟨least, rest⟩ := List.pairwise_cons.mp h
    rw [insertBy]
    split
    next le =>
      refine List.pairwise_cons.mpr ⟨fun z hz => ?_, ih rest⟩
      obtain rfl | hz := List.mem_cons.mp ((insertBy_perm _ x ys).mem_iff.mp hz)
      · simpa using le
      · exact least z hz
    next gt =>
      refine List.pairwise_cons.mpr ⟨fun z hz => ?_, h⟩
      have lt : key x < key y := by simpa using gt
      obtain rfl | hz := List.mem_cons.mp hz
      · exact Nat.le_of_lt lt
      · exact Nat.le_trans (Nat.le_of_lt lt) (least z hz)

theorem sortBy_pairwise (l : List α) :
    (sortBy (fun a b => decide (key a ≤ key b)) l).Pairwise (fun a b => key a ≤ key b) := by
  suffices ∀ acc : List α, acc.Pairwise (fun a b => key a ≤ key b) →
      (l.foldl (fun acc x => insertBy (fun a b => decide (key a ≤ key b)) x acc) acc).Pairwise
        (fun a b => key a ≤ key b) from this [] .nil
  induction l with
  | nil => exact fun _ h => h
  | cons x xs ih => exact fun acc h => ih _ (insertBy_pairwise h)

/-- Where no two keys are equal, the list in rising order of keys is the sorted one. -/
theorem sortBy_eq_of_pairwise {l r : List α} (h : r.Perm l) (up : r.Pairwise (fun a b => key a < key b)) :
    sortBy (fun a b => decide (key a ≤ key b)) l = r := by
  have sorted := (sortBy_pairwise (key := key) l)
  have perm : (sortBy (fun a b => decide (key a ≤ key b)) l).Perm r := (sortBy_perm _ l).trans h.symm
  have strict : (sortBy (fun a b => decide (key a ≤ key b)) l).Pairwise (fun a b => key a < key b) := by
    have apart : (sortBy (fun a b => decide (key a ≤ key b)) l).Pairwise (fun a b => key a ≠ key b) :=
      perm.symm.pairwise (up.imp Nat.ne_of_lt) Ne.symm
    exact (sorted.and apart).imp fun ⟨le, ne⟩ => Nat.lt_of_le_of_ne le ne
  exact perm.eq_of_pairwise (fun a b _ _ ab ba => absurd ab (Nat.lt_asymm ba)) strict up

end

theorem mergeContributions_fold (kind : StatKind) (l : List (Nat × List StatRec × List Word))
    (acc : List StatRec × List Word) :
    l.foldl (fun acc x => (zipLong (statCombine kind) acc.1 x.2.1, zipLong add32 acc.2 x.2.2)) acc
      = (l.foldl (fun acc x => zipLong (statCombine kind) acc x.2.1) acc.1,
         l.foldl (fun acc x => zipLong add32 acc x.2.2) acc.2) := by
  induction l generalizing acc with
  | nil => rfl
  | cons x xs ih => exact ih _

/-- Contributions with distinct indices merge in the order of their indices, in whatever order they have arrived. -/
theorem mergeContributions_perm (kind : StatKind) {l l' : List (Nat × List StatRec × List Word)}
    (distinct : (l.map (·.1)).Nodup) (h : l'.Perm l) : mergeContributions kind l' = mergeContributions kind l := by
  have up : (sortBy (fun a b => decide (a.1 ≤ b.1)) l).Pairwise (fun a b => a.1 < b.1) := by
    have apart : (sortBy (fun a b => decide (a.1 ≤ b.1)) l).Pairwise (fun a b => a.1 ≠ b.1) :=
      List.pairwise_map.mp (((sortBy_perm _ l).map Prod.fst).nodup_iff.mpr distinct)
    exact ((sortBy_pairwise (key := Prod.fst) l).and apart).imp fun ⟨le, ne⟩ => Nat.lt_of_le_of_ne le ne
  have same : sortBy (fun a b => decide (a.1 ≤ b.1)) l' = sortBy (fun a b => decide (a.1 ≤ b.1)) l :=
    sortBy_eq_of_pairwise (key := Prod.fst) ((sortBy_perm _ l).trans h.symm) up
  rw [mergeContributions, mergeContributions, same]

/-- Settles O42: the tree's own recursion, and an induction down the nodes that stops at the parts. -/
theorem dividedReductionsGiveTheSameBits : Obligations.DividedReductionsGiveTheSameBits := by
  intro f leaf
  refine ⟨tree_leaf f leaf, fun lo hi h => ?_, fun n parts pos nodes cover _ => ?_⟩
  · obtain ⟨below, above⟩ := ceilLog2_split (a := hi - lo) (by omega)
    refine ⟨ceilLog2 (hi - lo) - 1, below, above, ?_⟩
    rw [← treeSplit_of_lt h]
    exact tree_node f leaf h
  · refine treeParts_eq_tree f leaf parts (Nat.lt_succ_self _) pos ⟨fun i _ h => cover i h, fun p hp _ _ _ _ _ => ?_⟩
    have node := nodes p hp
    simp only [isNode, Bool.and_eq_true] at node
    exact ⟨_, node.2⟩

/-- Settles O44: a counter is the start of mix within its words, and neither a round nor the output loses anything. -/
theorem distinctCountersGiveDistinctDraws : Obligations.DistinctCountersGiveDistinctDraws := by
  intro seed stream i e st d i' e' st' d' hi he hst hd hi' he' hst' hd' h
  rw [mix_eq, mix_eq] at h
  have start := rounds_injective (mixStart_fits ..) (mixStart_fits ..) (by simp only [mixStart])
    (by simp only [mixStart]) h
  simp only [mixStart, MixState.mk.injEq, and_true] at start
  obtain ⟨index, counter⟩ := start
  rw [Nat.mod_eq_of_lt (b := two64) hi, Nat.mod_eq_of_lt (b := two64) hi'] at index
  rw [Nat.mod_eq_of_lt (counter_lt he hst hd), Nat.mod_eq_of_lt (counter_lt he' hst' hd')] at counter
  exact ⟨index, counter_injective he hd he' hd' counter⟩

/-- Settles O45: the sorted list of contributions with distinct indices is the same for every order of arrival. -/
theorem contributionsMergeInIndexOrder : Obligations.ContributionsMergeInIndexOrder := by
  intro kind l distinct
  refine ⟨fun l' h => mergeContributions_perm kind distinct h, fun c rest h up => ?_⟩
  rw [mergeContributions, sortBy_eq_of_pairwise (key := Prod.fst) h up]
  exact mergeContributions_fold kind rest _

end Sys2Proof.Machine
end

section
/-! PROOFS. What each operation may change: the parts of the state, and for every operation the parts that it touches.
The files of the block keep their sizes under every operation. -/

namespace Sys2Proof.Machine

/-- The parts of the state that an operation can touch apart from the queue and the clock, which none does. -/
inductive Part where
  | tick | job | frames | code | banks | progress | engines | mem | tier | media | link | host | flash | plans |
    dawn | faults
  | integrity | nimbus | stratus | pins
deriving DecidableEq

/-- A part of two states is the same. Frames stand apart from the job, the newest codes from job and integrity,
the function banks and what has committed from the engines, the classified faults from integrity, what Dawn has loaded
from Dawn, and the queue of event records from the pins. -/
def Part.same (s t : State) : Part → Prop
  | .tick => t.tick = s.tick
  | .job => { t.job with frames := s.job.frames, lastCode := s.job.lastCode } = s.job
  | .frames => t.job.frames = s.job.frames
  | .code => t.job.lastCode = s.job.lastCode ∧ t.integrity.lastCode = s.integrity.lastCode
  | .banks => t.compute.bank = s.compute.bank ∧ t.compute.bank0 = s.compute.bank0 ∧ t.compute.bank1 = s.compute.bank1
  | .progress => t.compute.done = s.compute.done ∧ t.compute.counts = s.compute.counts
    ∧ t.compute.ordered = s.compute.ordered
  | .engines => { t.compute with
      bank := s.compute.bank, bank0 := s.compute.bank0, bank1 := s.compute.bank1, done := s.compute.done,
      counts := s.compute.counts, ordered := s.compute.ordered } = s.compute
  | .mem => { t.mem with host := s.mem.host } = s.mem
  | .tier => t.tier = s.tier
  | .media => t.media = s.media
  | .link => t.link = s.link
  | .host => t.host = s.host ∧ t.mem.host = s.mem.host ∧ t.sideband.queue = s.sideband.queue
  | .flash => t.flash = s.flash
  | .plans => t.dawn.plans = s.dawn.plans ∧ t.dawn.planImage = s.dawn.planImage ∧ t.dawn.firmware = s.dawn.firmware
      ∧ t.dawn.layout = s.dawn.layout
  | .dawn => { t.dawn with
      plans := s.dawn.plans, planImage := s.dawn.planImage, firmware := s.dawn.firmware,
        layout := s.dawn.layout } = s.dawn
  | .faults => t.integrity.entries = s.integrity.entries ∧ t.integrity.permanent = s.integrity.permanent
      ∧ t.integrity.permUnit = s.integrity.permUnit ∧ t.integrity.rule = s.integrity.rule
  | .integrity => { t.integrity with
      entries := s.integrity.entries, permanent := s.integrity.permanent, permUnit := s.integrity.permUnit,
        rule := s.integrity.rule, lastCode := s.integrity.lastCode } = s.integrity
  | .nimbus => t.nimbus = s.nimbus
  | .stratus => t.stratus = s.stratus
  | .pins => { t.sideband with queue := s.sideband.queue } = s.sideband

theorem Part.same_refl (q : Part) (s : State) : q.same s s := by
  cases q <;> simp [Part.same]

theorem Part.same.trans {q : Part} {s t u : State} (hst : q.same s t) (htu : q.same t u) : q.same s u := by
  cases q <;> simp_all [Part.same]
  · rw [← hst,← htu]
  · rw [← hst,← htu]
  · rw [← hst,← htu]
  · rw [← hst,← htu]
  · rw [← hst,← htu]
  · rw [← hst,← htu]

/-- t is s but for the parts ps, with the queue and the clock as they were and every file of its size. -/
structure Touches (ps : List Part) (s t : State) : Prop where
  pending : t.pending = s.pending
  now : t.now = s.now
  shaped : s.shaped → t.shaped
  same : ∀ q, q ∉ ps → q.same s t

namespace Touches

theorem refl (ps : List Part) (s : State) : Touches ps s s :=
  ⟨rfl, rfl, id, fun q _ => q.same_refl s⟩

/-- An operation may follow one that touches no further part. -/
theorem via {ps qs : List Part} {s t u : State} (step : Touches qs t u) (h : Touches ps s t)
    (hsub : qs ⊆ ps := by decide) : Touches ps s u :=
  ⟨step.pending.trans h.pending, step.now.trans h.now, step.shaped ∘ h.shaped,
    fun q hq => Part.same.trans (h.same q hq) (step.same q fun hmem => hq (hsub hmem))⟩

theorem mono {ps qs : List Part} {s t : State} (h : Touches qs s t) (hsub : qs ⊆ ps := by decide) : Touches ps s t :=
  h.via (.refl ps s) hsub

/-- A record update of some parts, all of them among ps. -/
theorem update {ps : List Part} {s t : State}
    {freeCtr tick job compute mem tier media link host flash dawn integrity nimbus stratus sideband}
    (h : Touches ps s t)
    (hshaped : t.shaped → State.shaped
      ⟨t.pending, t.now, freeCtr, tick, job, compute, mem, tier, media, link, host, flash,
      dawn, integrity, nimbus, stratus, sideband⟩)
    (hsame : ∀ q, q ∉ ps → Part.same t
      ⟨t.pending, t.now, freeCtr, tick, job, compute, mem, tier, media, link, host, flash,
      dawn, integrity, nimbus, stratus, sideband⟩ q) :
    Touches ps s ⟨t.pending, t.now, freeCtr, tick, job, compute, mem, tier, media, link, host, flash, dawn,
      integrity, nimbus,
      stratus, sideband⟩ :=
  ⟨h.pending, h.now, hshaped ∘ h.shaped, fun q hq => Part.same.trans (h.same q hq) (hsame q hq)⟩

theorem thn {qs ps : List Part} {s u v : State} (step : Touches qs u v)
    (h : Touches ps s u) (hsub : qs ⊆ ps) : Touches ps s v := step.via h hsub

theorem cut {ps : List Part} {s v : State} (u : State) (h : Touches ps s u) (hv : Touches ps s u → Touches ps s v) :
    Touches ps s v := hv h

theorem foldl {α : Type} {ps : List Part} {f : State → α → State} {l : List α} {s t : State}
    (hf : ∀ u x, Touches ps u (f u x)) (h : Touches ps s t) :
    Touches ps s (l.foldl f t) := by
  induction l generalizing t with
  | nil => exact h
  | cons x xs ih => exact ih ((hf t x).via h (fun _ hq => hq))

end Touches

/-- What the operations on a running job touch. -/
abbrev jobParts : List Part :=
  [.tick, .job, .frames, .code, .progress, .engines, .mem, .tier, .media, .link, .host, .integrity, .pins]

/-- What a fault in a running job can touch besides: the verdict on a unit, and Eclipse. -/
abbrev faultParts : List Part :=
  [.tick, .job, .frames, .code, .progress, .engines, .mem, .tier, .media, .link, .host, .integrity, .pins,
    .dawn, .faults]

/-- What a boundary touches: the job, and the model of Nimbus. -/
abbrev runParts : List Part :=
  [.tick, .job, .frames, .code, .progress, .engines, .mem, .tier, .media, .link, .host, .integrity, .pins,
    .nimbus]

/-- What the passage to Eclipse touches. -/
abbrev eclipseParts : List Part :=
  [.tick, .job, .frames, .code, .progress, .engines, .tier, .media, .link, .host, .dawn, .integrity, .pins]

/-- What a verdict on a unit touches. -/
abbrev verdictParts : List Part :=
  [.tick, .job, .frames, .code, .progress, .engines, .tier, .media, .link, .host, .dawn, .integrity, .pins,
    .faults]

/-- What a restart of the module touches. -/
abbrev coldParts : List Part :=
  [.tick, .job, .frames, .code, .banks, .progress, .engines, .mem, .tier, .media, .link, .host, .plans, .dawn,
    .faults, .integrity, .nimbus, .pins]

/-- What the removal of power touches. -/
abbrev offParts : List Part :=
  [.tick, .job, .frames, .code, .banks, .progress, .engines, .mem, .tier, .media, .link, .host, .plans, .dawn,
    .faults, .integrity, .nimbus, .pins, .stratus]

/-- Every part. -/
abbrev allParts : List Part :=
  [.tick, .job, .frames, .code, .banks, .progress, .engines, .mem, .tier, .media, .link, .host, .plans, .dawn,
    .faults, .integrity, .nimbus, .pins, .stratus, .flash]


open Touches

theorem State.free_touches (s : State) : Touches [] s s.free.2 :=
  update (refl ..) id fun q _ => q.same_refl s

theorem State.freeBytes_touches (s : State) (n : Nat) : Touches [] s (s.freeBytes n).2 :=
  update (refl ..) id fun q _ => q.same_refl s

theorem recordAer_touches (s : State) : Touches [.host] s (recordAer s) :=
  update (refl ..) id (by intro q hq; cases q <;> first | exact absurd (by decide) hq | simp only [Part.same, and_self])

set_option Elab.async false

theorem State.setPort_touches (n : Nat) (p : Port) (s : State) : Touches [.link] s (State.setPort s n p) := by
  unfold State.setPort
  repeat' with_reducible first
    | (extract_lets +onlyGivenNames u; subst u) | exact .refl _ _ | apply update
  all_goals first
    | decide
    | (intro q hq; cases q <;> first | exact absurd (by decide) hq | simp only [Part.same, and_self])
    | simp only [State.shaped, List.length_set, imp_self]

theorem sendPlain_touches (port : Nat) (kind : Nat) (nak : Bool) (credD : Nat) (credC : Nat) (body : Bytes)
    (s : State) :
    Touches [.link] s (sendPlain port kind nak credD credC body s) := by
  unfold sendPlain
  repeat' with_reducible first
    | (extract_lets +onlyGivenNames u; subst u) | assumption | exact .refl _ _ | apply (State.setPort_touches ..).thn
  all_goals decide

theorem returnCredit_touches (port : Nat) (control : Bool) (s : State) :
    Touches [.link] s (returnCredit port control s) := by
  unfold returnCredit
  repeat' with_reducible first
    | exact .refl _ _ | apply (sendPlain_touches ..).thn
  all_goals decide

theorem pump_touches (port : Nat) (s : State) : Touches [.link] s (pump port s) := by
  unfold pump
  repeat' with_reducible first
    | (extract_lets +onlyGivenNames u; subst u) | assumption | exact .refl _ _ | apply (State.setPort_touches ..).thn
    | apply (returnCredit_touches ..).thn | apply Touches.foldl; intro _ _ | split | apply update
  all_goals decide

theorem sendOn_touches (port : Nat) (w : Waiting) (s : State) : Touches [.link] s (sendOn port w s) := by
  unfold sendOn
  repeat' with_reducible first
    | (extract_lets +onlyGivenNames u; subst u) | assumption | exact .refl _ _ | apply (State.setPort_touches ..).thn
    | apply (pump_touches ..).thn | apply update
  all_goals decide

theorem sendControl_touches (forward : Bool) (origin : Option Nat) (body : Bytes) (s : State) :
    Touches [.link] s (sendControl forward origin body s) := by
  unfold sendControl
  repeat' with_reducible first
    | exact .refl _ _ | apply (sendOn_touches ..).thn
  all_goals decide

theorem sendData_touches (forward : Bool) (origin : Option Nat) (body : Bytes) (s : State) :
    Touches [.link] s (sendData forward origin body s) := by
  unfold sendData
  repeat' with_reducible first
    | (extract_lets +onlyGivenNames u; apply cut u; unfold u; clear u; rotate_left; clear_value u; intro hu; rotate_right)
    | (extract_lets +onlyGivenNames u; subst u) | assumption | exact .refl _ _ | apply (sendOn_touches ..).thn | split
    | apply update
  all_goals first
    | decide
    | (intro q hq; cases q <;> first | exact absurd (by decide) hq | simp only [Part.same, and_self])
    | simp only [State.shaped, imp_self]

theorem sendBothWays_touches (op : Nat) (payload : Bytes) (s : State) :
    Touches [.link] s (sendBothWays op payload s) := by
  unfold sendBothWays
  repeat' with_reducible first
    | (extract_lets +onlyGivenNames u; subst u) | assumption | exact .refl _ _ | apply (sendControl_touches ..).thn
  all_goals decide

theorem sendTo_touches (op : Nat) (dst : Nat) (payload : Bytes) (s : State) :
    Touches [.link] s (sendTo op dst payload s) := by
  unfold sendTo
  repeat' with_reducible first
    | exact .refl _ _ | apply (sendControl_touches ..).thn
  all_goals decide

theorem reportToHead_touches (kind : Nat) (payload : Bytes) (s : State) :
    Touches [.link] s (reportToHead kind payload s) := by
  unfold reportToHead
  repeat' with_reducible first
    | exact .refl _ _ | apply (sendTo_touches ..).thn
  all_goals decide

theorem State.writeMem_touches (sp : Space) (addr : Nat) (b : Bytes) (s : State) :
    Touches [.mem, .host] s (State.writeMem s sp addr b) :=
  ⟨rfl, rfl, id, fun q hq => by
    cases q <;> first | exact absurd (by decide) hq | simp only [Part.same, State.writeMem, and_self]⟩

theorem State.writeMem_host_touches (addr : Nat) (b : Bytes) (s : State) :
    Touches [.host] s (s.writeMem .host addr b) :=
  ⟨rfl, rfl, id, fun q hq => by
    cases q <;> first | exact absurd (by decide) hq | simp only [Part.same, State.writeMem, Mems.put, and_self]⟩

theorem State.writeMany_touches (ws : List (Space × Nat × Bytes)) (s : State) :
    Touches [.mem, .host] s (State.writeMany s ws) := by
  unfold State.writeMany
  repeat' with_reducible first
    | exact .refl _ _ | apply (State.writeMem_touches ..).thn | apply Touches.foldl; intro _ _
  all_goals decide

theorem State.writeExchange_touches (off : Nat) (b : Bytes) (s : State) :
    Touches [.mem, .host] s (State.writeExchange s off b) := by
  unfold State.writeExchange
  repeat' with_reducible first
    | exact .refl _ _ | apply (State.writeMem_touches ..).thn
  all_goals decide

theorem State.setRing_touches (n : Nat) (r : Ring) (s : State) : Touches [.host] s (State.setRing s n r) := by
  unfold State.setRing
  repeat' with_reducible first
    | (extract_lets +onlyGivenNames u; subst u) | exact .refl _ _ | apply update
  all_goals first
    | decide
    | (intro q hq; cases q <;> first | exact absurd (by decide) hq | simp only [Part.same, and_self])
    | simp only [State.shaped, List.length_set, imp_self]

theorem State.produce_touches (n : Nat) (b : Bytes) (s : State) : Touches [.host] s (s.produce n b) :=
  .via (State.setRing_touches ..) (State.writeMem_host_touches ..)

theorem State.produceData_touches (b : Bytes) (s : State) : Touches [.host] s (s.produceData b) :=
  .via (State.setRing_touches ..) (.via (State.writeMem_host_touches ..) (State.writeMem_host_touches ..))

theorem State.publish_touches (vector : Option Nat) (s : State) : Touches [.host] s (s.publish vector) := by
  unfold State.publish
  split
  · cases vector with
    | none => exact State.writeMem_host_touches ..
    | some v =>
      refine update (State.writeMem_host_touches s.host.statusBase s.statusPage s) ?_ ?_
      · simp only [State.shaped, List.length_set, imp_self]
      · intro q hq; cases q <;> first | exact absurd (by decide) hq | simp only [Part.same, and_self]
  · exact refl ..

theorem drainEvents_touches (n : Nat) (s : State) : Touches [.host] s (drainEvents n s) := by
  induction n generalizing s with
  | zero => exact refl ..
  | succ n ih =>
    unfold drainEvents
    split
    · exact refl ..
    · dsimp only
      split
      · refine (ih _).via (.via (State.publish_touches ..) (.via (State.produce_touches ..) (update (refl ..) id ?_)))
        intro q hq; cases q <;> first | exact absurd (by decide) hq | simp only [Part.same, and_self]
      · exact refl ..

theorem emit_touches (code severity source arg : Nat) (oob : Bool) (s : State) :
    Touches [.host] s (emit code severity source arg oob s) := by
  refine .via (drainEvents_touches ..) (update (refl ..) id ?_)
  intro q hq; cases q <;> first | exact absurd (by decide) hq | (cases oob <;> simp [Part.same])

theorem reportDropped_touches (s : State) : Touches [.host] s (reportDropped s) := by
  unfold reportDropped
  repeat' with_reducible first
    | (extract_lets +onlyGivenNames u; subst u) | assumption | exact .refl _ _ | apply (emit_touches ..).thn | split
    | apply update
  all_goals first
    | decide
    | (intro q hq; cases q <;> first | exact absurd (by decide) hq | simp only [Part.same, and_self])
    | simp only [State.shaped, imp_self]

theorem raiseAs_touches (code : Nat) (alt : Bool) (detectedIn : Source) (oob : Bool) (arg : Nat) (s : State) :
    Touches [.code, .host] s (raiseAs code alt detectedIn oob arg s) := by
  unfold raiseAs State.free
  refine .via (emit_touches ..) ?_
  dsimp only
  repeat' with_reducible first
    | refine .via (reportDropped_touches ..) (.refl _ _) | split | apply update
  all_goals first
    | (intro q hq; cases q <;> first | exact absurd (by decide) hq | simp only [Part.same, and_self])
    | simp only [State.shaped, imp_self]

theorem raise_touches (code : Nat) (arg : Nat) (s : State) : Touches [.code, .host] s (raise code arg s) := by
  unfold raise
  repeat' with_reducible first
    | exact .refl _ _ | apply (raiseAs_touches ..).thn
  all_goals decide

theorem raiseAll_touches (codes : List Nat) (arg : Nat) (s : State) :
    Touches [.code, .host] s (raiseAll codes arg s) := by
  unfold raiseAll
  repeat' with_reducible first
    | exact .refl _ _ | apply (raise_touches ..).thn | apply Touches.foldl; intro _ _
  all_goals decide

theorem writeRecord_touches (r : OutRecord) (s : State) : Touches [.job, .code, .host] s (writeRecord r s) := by
  have hunits : Touches [.job, .code, .host] s (r.units.foldl (fun s u => s.produceData (padUnit u.data)) s) :=
    .foldl (fun _ _ => (State.produceData_touches ..).mono) (refl ..)
  have hrecord (b : Bytes) := (State.publish_touches (some 1) _).via (.via (State.produce_touches 1 b _) hunits)
  have delivered (u : State) (c : List Nat) : Touches [.job, .host] u
      { u with
        host := { u.host with records := c }
        job := if r.gap.isNone then { u.job with delivered := r.frame } else u.job } :=
    update (refl ..) id (by
      intro q hq
      cases q <;> first | exact absurd (by decide) hq | (cases r.gap <;> simp [Part.same]))
  unfold writeRecord
  dsimp only
  split
  · exact .via (raise_touches ..) ((delivered _ _).via (hrecord _))
  · exact (delivered _ _).via (hrecord _)

theorem State.setWaiting_touches (w : List OutRecord) (s : State) : Touches [.host] s (State.setWaiting s w) := by
  unfold State.setWaiting
  repeat' with_reducible first
    | (extract_lets +onlyGivenNames u; subst u) | exact .refl _ _ | apply update
  all_goals first
    | decide
    | (intro q hq; cases q <;> first | exact absurd (by decide) hq | simp only [Part.same, and_self])
    | simp only [State.shaped, imp_self]

theorem drainRecords_touches (n : Nat) (s : State) : Touches [.job, .code, .host] s (drainRecords n s) := by
  induction n generalizing s with
  | zero => exact refl ..
  | succ n ih =>
    unfold drainRecords
    split
    · exact refl ..
    · split
      · exact (ih _).via (.via (writeRecord_touches ..) ((State.setWaiting_touches ..).mono))
      · exact refl ..

theorem markLate_touches (s : State) : Touches [.host] s (markLate s) := by
  unfold markLate
  repeat' with_reducible first
    | exact .refl _ _ | apply (State.setWaiting_touches ..).thn | split | apply update
  all_goals decide

theorem applyWatchEnd_touches (s : State) : Touches [.integrity] s (applyWatchEnd s) := by
  unfold applyWatchEnd
  repeat' with_reducible first
    | (extract_lets +onlyGivenNames u; subst u) | exact .refl _ _ | split | apply update
  all_goals first
    | decide
    | (intro q hq; cases q <;> first | exact absurd (by decide) hq | simp only [Part.same, and_self])
    | simp only [State.shaped, imp_self]

theorem drainResponses_touches (n : Nat) (s : State) : Touches [.host] s (drainResponses n s) := by
  induction n generalizing s with
  | zero => exact refl ..
  | succ n ih =>
    unfold drainResponses
    split
    · exact refl ..
    · dsimp only
      split
      · refine (ih _).via (.via (State.publish_touches ..) (.via (State.produce_touches ..) (update (refl ..) id ?_)))
        intro q hq; cases q <;> first | exact absurd (by decide) hq | simp only [Part.same, and_self]
      · exact refl ..

theorem respond_touches (req : Bytes) (status : Nat) (body : Bytes) (s : State) :
    Touches [.host] s (respond req status body s) := by
  unfold respond
  repeat' with_reducible first
    | (extract_lets +onlyGivenNames u; apply cut u; unfold u; clear u; rotate_left; clear_value u; intro hu; rotate_right)
    | (extract_lets +onlyGivenNames u; subst u) | assumption | exact .refl _ _ | apply (drainResponses_touches ..).thn
    | apply update
  all_goals first
    | decide
    | (intro q hq; cases q <;> first | exact absurd (by decide) hq | simp only [Part.same, and_self])
    | simp only [State.shaped, imp_self]

theorem leaveArmed_touches (s : State) : Touches [.tick, .job, .tier, .integrity] s (leaveArmed s) := by
  unfold leaveArmed
  repeat' with_reducible first
    | (extract_lets +onlyGivenNames u; subst u) | exact .refl _ _ | apply (applyWatchEnd_touches ..).thn | split
    | apply update
  all_goals first
    | decide
    | (intro q hq; cases q <;> first | exact absurd (by decide) hq | simp only [Part.same, and_self])
    | simp only [State.shaped, imp_self]

theorem causeDusk_touches (code : Nat) (s : State) :
    Touches [.tick, .job, .tier, .link, .integrity] s (causeDusk code s) := by
  unfold causeDusk
  repeat' with_reducible first
    | (extract_lets +onlyGivenNames u; apply cut u; unfold u; clear u; rotate_left; clear_value u; intro hu; rotate_right)
    | (extract_lets +onlyGivenNames u; subst u) | assumption | exact .refl _ _ | apply (leaveArmed_touches ..).thn
    | apply (reportToHead_touches ..).thn | split | apply update
  all_goals first
    | decide
    | (intro q hq; cases q <;> first | exact absurd (by decide) hq | simp only [Part.same, and_self])
    | simp only [State.shaped, imp_self]

theorem pushRecord_touches (r : OutRecord) (s : State) :
    Touches [.tick, .job, .code, .tier, .link, .host, .integrity] s (pushRecord r s) := by
  have hlate := Touches.via (ps := [.tick, .job, .code, .tier, .link, .host, .integrity]) (markLate_touches _)
    (.via (drainRecords_touches 82 _) ((State.setWaiting_touches (s.host.waiting ++ [r]) s).mono))
  unfold pushRecord
  dsimp only
  split
  · exact .via (causeDusk_touches ..) (.via (raise_touches ..) hlate)
  · exact hlate

theorem drainAll_touches (s : State) : Touches [.job, .code, .host] s (drainAll s) := by
  unfold drainAll
  repeat' with_reducible first
    | (extract_lets +onlyGivenNames u; apply cut u; unfold u; clear u; rotate_left; clear_value u; intro hu; rotate_right) | assumption
    | exact .refl _ _ | apply (drainEvents_touches ..).thn | apply (drainRecords_touches ..).thn
    | apply (drainResponses_touches ..).thn | apply (reportDropped_touches ..).thn
  all_goals decide

theorem State.setEntry_touches (i : Nat) (e : DirEntry) (s : State) : Touches [.tier] s (State.setEntry s i e) := by
  unfold State.setEntry
  repeat' with_reducible first
    | (extract_lets +onlyGivenNames u; subst u) | exact .refl _ _ | split | apply update
  all_goals first
    | decide
    | (intro q hq; cases q <;> first | exact absurd (by decide) hq | simp only [Part.same, and_self])
    | simp only [State.shaped, imp_self]

theorem putByte_touches (cx : Access) (p : Put) (s : State) : Touches [.mem, .host] s (putByte cx s p) := by
  unfold putByte
  repeat' with_reducible first
    | exact .refl _ _ | apply (State.writeMem_touches ..).thn | split | apply update
  all_goals decide

theorem writeCode_touches (cx : Access) (t : Tensor) (ix : List Nat) (code : Nat) (s : State) :
    Touches [.mem, .host] s (writeCode cx t ix code s) := by
  unfold writeCode
  repeat' with_reducible first
    | (extract_lets +onlyGivenNames u; subst u) | assumption | exact .refl _ _ | apply (putByte_touches ..).thn
    | apply Touches.foldl; intro _ _
  all_goals decide

theorem writeScale_touches (cx : Access) (t : Tensor) (ix : List Nat) (scale : Nat) (s : State) :
    Touches [.mem, .host] s (writeScale cx t ix scale s) := by
  unfold writeScale
  repeat' with_reducible first
    | exact .refl _ _ | apply (putByte_touches ..).thn
  all_goals decide

theorem writeVals_touches (cx : Access) (t : Tensor) (rd : Nat → Rounding) (vals : List Val) (s : State) :
    Touches [.mem, .host] s (writeVals cx t rd vals s) := by
  unfold writeVals
  repeat' with_reducible first
    | (extract_lets +onlyGivenNames u; apply cut u; unfold u; clear u; rotate_left; clear_value u; intro hu; rotate_right)
    | (extract_lets +onlyGivenNames u; subst u) | assumption | exact .refl _ _ | apply (writeCode_touches ..).thn
    | apply (writeScale_touches ..).thn | apply Touches.foldl; intro _ _ | split
  all_goals decide

theorem writeCodes_touches (cx : Access) (t : Tensor) (codes : List Nat) (s : State) :
    Touches [.mem, .host] s (writeCodes cx t codes s) := by
  unfold writeCodes
  repeat' with_reducible first
    | (extract_lets +onlyGivenNames u; subst u) | assumption | exact .refl _ _ | apply (writeCode_touches ..).thn
    | apply Touches.foldl; intro _ _
  all_goals decide

theorem fillBuckets_touches (s : State) : Touches [.tier] s (fillBuckets s) := by
  unfold fillBuckets
  repeat' with_reducible first
    | (extract_lets +onlyGivenNames u; subst u) | exact .refl _ _ | apply update
  all_goals first
    | decide
    | (intro q hq; cases q <;> first | exact absurd (by decide) hq | simp only [Part.same, and_self])
    | simp only [State.shaped, imp_self]

theorem fillPartition_touches (part : Nat) (s : State) : Touches [.tier] s (fillPartition part s) := by
  unfold fillPartition
  repeat' with_reducible first
    | (extract_lets +onlyGivenNames u; subst u) | exact .refl _ _ | apply update
  all_goals first
    | decide
    | (intro q hq; cases q <;> first | exact absurd (by decide) hq | simp only [Part.same, and_self])
    | simp only [State.shaped, imp_self]

theorem takeTokens_touches (i : Nat) (n : Nat) (s : State) : Touches [.tier] s (takeTokens i n s) := by
  unfold takeTokens
  repeat' with_reducible first
    | (extract_lets +onlyGivenNames u; subst u) | assumption | exact .refl _ _ | split | apply update
  all_goals first
    | decide
    | (intro q hq; cases q <;> first | exact absurd (by decide) hq | simp only [Part.same, and_self])
    | simp only [State.shaped, imp_self]

theorem chargeHbm_touches (part : Nat) (addr : Nat) (n : Nat) (s : State) :
    Touches [.tier] s (chargeHbm part addr n s) := by
  unfold chargeHbm
  repeat' with_reducible first
    | exact .refl _ _ | apply (takeTokens_touches ..).thn
  all_goals decide

theorem chargeCore_touches (core : Nat) (addr : Nat) (n : Nat) (s : State) :
    Touches [.tier] s (chargeCore core addr n s) := by
  unfold chargeCore
  repeat' with_reducible first
    | exact .refl _ _ | apply (takeTokens_touches ..).thn
  all_goals decide

theorem checkPlanRegions_touches (s : State) : Touches [.mem, .host] s (checkPlanRegions s) := by
  unfold checkPlanRegions
  repeat' with_reducible first
    | (extract_lets +onlyGivenNames u; subst u) | assumption | exact .refl _ _ | apply (State.writeMem_touches ..).thn
    | split | apply update
  all_goals decide

theorem fetchLists_touches (s : State) : Touches [.engines] s (fetchLists s) := by
  refine update (refl ..) ?_ ?_
  · simp +contextual [State.shaped]
  · intro q hq; cases q <;> first | exact absurd (by decide) hq | simp only [Part.same, and_self]

theorem refillBuffer_touches (core : Nat) (s : State) : Touches [.engines] s (refillBuffer core s) := by
  unfold refillBuffer
  repeat' with_reducible first
    | (extract_lets +onlyGivenNames u; subst u) | assumption | exact .refl _ _ | split | apply update
  all_goals first
    | decide
    | (intro q hq; cases q <;> first | exact absurd (by decide) hq | simp only [Part.same, and_self])
    | simp only [State.shaped, List.length_set, imp_self]

theorem writeInactive_touches (f : FunctionBank → FunctionBank) (s : State) :
    Touches [.banks] s (writeInactive f s) := by
  unfold writeInactive
  repeat' with_reducible first
    | (extract_lets +onlyGivenNames u; subst u) | exact .refl _ _ | split | apply update
  all_goals first
    | decide
    | (intro q hq; cases q <;> first | exact absurd (by decide) hq | simp only [Part.same, and_self])
    | simp only [State.shaped, imp_self]

theorem swapBanks_touches (s : State) : Touches [.banks] s (swapBanks s) := by
  refine update (refl ..) ?_ ?_
  · simp +contextual [State.shaped]
  · intro q hq; cases q <;> first | exact absurd (by decide) hq | simp only [Part.same, and_self]

theorem loadBank_touches (ok : Bool) (f : FunctionBank → FunctionBank) (s : State) :
    Touches [.code, .banks, .host] s (loadBank ok f s) := by
  unfold loadBank
  repeat' with_reducible first
    | exact .refl _ _ | apply (raise_touches ..).thn | apply (swapBanks_touches ..).thn
    | apply (writeInactive_touches ..).thn | split
  all_goals decide

theorem killCompute_touches (s : State) : Touches [.progress, .engines, .link] s (killCompute s) := by
  refine update (refl ..) ?_ ?_
  · simp +contextual [State.shaped]
  · intro q hq; cases q <;> first | exact absurd (by decide) hq | simp only [Part.same, and_self]

theorem killMedia_touches (s : State) : Touches [.media] s (killMedia s) := by
  unfold killMedia
  repeat' with_reducible first
    | (extract_lets +onlyGivenNames u; subst u) | exact .refl _ _ | split | apply update
  all_goals first
    | decide
    | (intro q hq; cases q <;> first | exact absurd (by decide) hq | simp only [Part.same, and_self])
    | simp only [State.shaped, List.length_map, imp_self]

theorem killDecodes_touches (s : State) : Touches [.media] s (killDecodes s) := by
  refine update (refl ..) ?_ ?_
  · simp +contextual [State.shaped]
  · intro q hq; cases q <;> first | exact absurd (by decide) hq | simp only [Part.same, and_self]

theorem freePool_touches (s : State) : Touches [.media] s (freePool s) := by
  refine update (refl ..) ?_ ?_
  · simp +contextual [State.shaped]
  · intro q hq; cases q <;> first | exact absurd (by decide) hq | simp only [Part.same, and_self]

theorem restartControllers_touches (s : State) : Touches [.media] s (restartControllers s) := by
  refine update (refl ..) ?_ ?_
  · simp +contextual [State.shaped]
  · intro q hq; cases q <;> first | exact absurd (by decide) hq | simp only [Part.same, and_self]

theorem dueRecord_touches (r : OutRecord) (s : State) :
    Touches [.tick, .job, .code, .tier, .link, .host, .integrity] s (dueRecord r s) := by
  unfold dueRecord
  repeat' with_reducible first
    | exact .refl _ _ | apply (pushRecord_touches ..).thn | split
  all_goals decide

theorem closeFrames_touches (reason : GapReason) (s : State) :
    Touches [.tick, .job, .frames, .code, .tier, .link, .host, .integrity] s (closeFrames reason s) := by
  unfold closeFrames
  repeat' with_reducible first
    | (extract_lets +onlyGivenNames u; apply cut u; unfold u; clear u; rotate_left; clear_value u; intro hu; rotate_right)
    | (extract_lets +onlyGivenNames u; subst u) | assumption | exact .refl _ _ | apply (dueRecord_touches ..).thn
    | apply Touches.foldl; intro _ _ | apply update
  all_goals first
    | decide
    | (intro q hq; cases q <;> first | exact absurd (by decide) hq | simp only [Part.same, and_self])
    | simp only [State.shaped, imp_self]

theorem State.asVariant_touches (v : Nat) (s : State) : Touches [.job] s (State.asVariant s v) := by
  unfold State.asVariant
  repeat' with_reducible first
    | (extract_lets +onlyGivenNames u; subst u) | exact .refl _ _ | apply update
  all_goals first
    | decide
    | (intro q hq; cases q <;> first | exact absurd (by decide) hq | simp only [Part.same, and_self])
    | simp only [State.shaped, imp_self]

theorem stampCheckpoint_touches (reason : GapReason) (stopTick : Nat) (ckpt : Nat) (s : State) :
    Touches [.mem, .host] s (stampCheckpoint reason stopTick ckpt s) := by
  unfold stampCheckpoint
  repeat' with_reducible first
    | (extract_lets +onlyGivenNames u; apply cut u; unfold u; clear u; rotate_left; clear_value u; intro hu; rotate_right)
    | (extract_lets +onlyGivenNames u; subst u) | assumption | exact .refl _ _ | apply (State.writeMem_touches ..).thn
    | apply Touches.foldl; intro _ _
  all_goals decide

theorem releaseFault_touches (s : State) : Touches [.integrity, .pins] s (releaseFault s) := by
  unfold releaseFault
  repeat' with_reducible first
    | (extract_lets +onlyGivenNames u; subst u) | exact .refl _ _ | split | apply update
  all_goals first
    | decide
    | (intro q hq; cases q <;> first | exact absurd (by decide) hq | simp only [Part.same, and_self])
    | simp only [State.shaped, imp_self]

theorem stopComplete_touches (s : State) : Touches [.job, .code, .tier, .host] s (stopComplete s) := by
  unfold stopComplete
  repeat' with_reducible first
    | (extract_lets +onlyGivenNames u; apply cut u; unfold u; clear u; rotate_left; clear_value u; intro hu; rotate_right)
    | (extract_lets +onlyGivenNames u; subst u) | assumption | exact .refl _ _ | apply (fillBuckets_touches ..).thn
    | apply (raise_touches ..).thn | split | apply update
  all_goals first
    | decide
    | (intro q hq; cases q <;> first | exact absurd (by decide) hq | simp only [Part.same, and_self])
    | simp only [State.shaped, imp_self]

theorem leaveJob_touches (s : State) : Touches [.tick, .job, .engines, .tier, .link] s (leaveJob s) := by
  unfold leaveJob
  repeat' with_reducible first
    | (extract_lets +onlyGivenNames u; subst u) | exact .refl _ _ | apply update
  all_goals first
    | decide
    | (intro q hq; cases q <;> first | exact absurd (by decide) hq | simp only [Part.same, and_self])
    | simp only [State.shaped, imp_self]

theorem dropConditioning_touches (s : State) : Touches [.host] s (dropConditioning s) := by
  unfold dropConditioning
  repeat' with_reducible first
    | (extract_lets +onlyGivenNames u; subst u) | exact .refl _ _ | apply update
  all_goals first
    | decide
    | (intro q hq; cases q <;> first | exact absurd (by decide) hq | simp only [Part.same, and_self])
    | simp only [State.shaped, imp_self]

theorem stopJob_touches (reason : GapReason) (keep : Bool) (s : State) :
    Touches jobParts s (stopJob reason keep s) := by
  unfold stopJob
  repeat' with_reducible first
    | (extract_lets +onlyGivenNames u; apply cut u; unfold u; clear u; rotate_left; clear_value u; intro hu; rotate_right)
    | (extract_lets +onlyGivenNames u; subst u) | assumption | exact .refl _ _ | apply (applyWatchEnd_touches ..).thn
    | apply (closeFrames_touches ..).thn | apply (dropConditioning_touches ..).thn | apply (freePool_touches ..).thn
    | apply (killCompute_touches ..).thn | apply (killMedia_touches ..).thn | apply (leaveJob_touches ..).thn
    | apply (releaseFault_touches ..).thn | apply (stampCheckpoint_touches ..).thn
    | apply (stopComplete_touches ..).thn | split | apply update
  all_goals first
    | decide
    | (intro q hq; cases q <;> first | exact absurd (by decide) hq | simp only [Part.same, and_self])
    | simp only [State.shaped, imp_self]

theorem duskStop_touches (code : Nat) (s : State) : Touches jobParts s (duskStop code s) := by
  unfold duskStop
  repeat' with_reducible first
    | exact .refl _ _ | apply (raise_touches ..).thn | apply (stopJob_touches ..).thn | split
  all_goals decide

theorem requestStop_touches (reason : GapReason) (s : State) : Touches jobParts s (requestStop reason s) := by
  unfold requestStop
  repeat' with_reducible first
    | exact .refl _ _ | apply (stopJob_touches ..).thn
  all_goals decide

theorem countKind_touches (k : Nat) (s : State) : Touches [.integrity] s (countKind k s) := by
  unfold countKind
  repeat' with_reducible first
    | (extract_lets +onlyGivenNames u; subst u) | exact .refl _ _ | apply update
  all_goals first
    | decide
    | (intro q hq; cases q <;> first | exact absurd (by decide) hq | simp only [Part.same, and_self])
    | simp only [State.shaped, imp_self]

theorem pageSoon_touches (s : State) : Touches [.integrity] s (pageSoon s) := by
  unfold pageSoon
  repeat' with_reducible first
    | (extract_lets +onlyGivenNames u; subst u) | exact .refl _ _ | split | apply update
  all_goals first
    | decide
    | (intro q hq; cases q <;> first | exact absurd (by decide) hq | simp only [Part.same, and_self])
    | simp only [State.shaped, imp_self]

theorem eclipseState_touches (s : State) : Touches eclipseParts s (eclipseState s) := by
  unfold eclipseState
  repeat' with_reducible first
    | (extract_lets +onlyGivenNames u; apply cut u; unfold u; clear u; rotate_left; clear_value u; intro hu; rotate_right)
    | (extract_lets +onlyGivenNames u; subst u) | assumption | exact .refl _ _ | apply (closeFrames_touches ..).thn
    | apply (fillBuckets_touches ..).thn | apply (killCompute_touches ..).thn | apply (killMedia_touches ..).thn
    | apply (leaveJob_touches ..).thn | apply (pageSoon_touches ..).thn | split | apply update
  all_goals first
    | decide
    | (intro q hq; cases q <;> first | exact absurd (by decide) hq | simp only [Part.same, and_self])
    | simp only [State.shaped, List.length_map, imp_self]

theorem enterEclipse_touches (unit : BitVec 32) (rule : Nat) (s : State) :
    Touches verdictParts s (enterEclipse unit rule s) := by
  unfold enterEclipse
  repeat' with_reducible first
    | (extract_lets +onlyGivenNames u; apply cut u; unfold u; clear u; rotate_left; clear_value u; intro hu; rotate_right)
    | (extract_lets +onlyGivenNames u; subst u) | assumption | exact .refl _ _ | apply (eclipseState_touches ..).thn
    | apply (raiseAs_touches ..).thn | apply update
  all_goals first
    | decide
    | (intro q hq; cases q <;> first | exact absurd (by decide) hq | simp only [Part.same, and_self])
    | simp only [State.shaped, imp_self]

theorem enterHistory_touches (code : Nat) (unit : BitVec 32) (site : BitVec 32) (s : State) :
    Touches [.faults, .integrity] s (enterHistory code unit site s) := by
  unfold enterHistory
  repeat' with_reducible first
    | (extract_lets +onlyGivenNames u; subst u) | assumption | exact .refl _ _ | apply (pageSoon_touches ..).thn
    | apply update
  all_goals first
    | decide
    | (intro q hq; cases q <;> first | exact absurd (by decide) hq | simp only [Part.same, and_self])
    | simp only [State.shaped, imp_self]

theorem classify_touches (unit : BitVec 32) (failedTest : Bool) (s : State) :
    Touches verdictParts s (classify unit failedTest s) := by
  unfold classify
  repeat' with_reducible first
    | (extract_lets +onlyGivenNames u; subst u) | assumption | exact .refl _ _ | apply (enterEclipse_touches ..).thn
    | split
  all_goals decide

theorem countError_touches (code : Nat) (detectedIn : Source) (oob : Bool) (unit : BitVec 32) (site : BitVec 32)
    (arg : Nat) (s : State) :
    Touches verdictParts s (countError code detectedIn oob unit site arg s) := by
  unfold countError
  repeat' with_reducible first
    | exact .refl _ _ | apply (classify_touches ..).thn | apply (enterHistory_touches ..).thn
    | apply (raiseAs_touches ..).thn
  all_goals decide

theorem assertFault_touches (s : State) : Touches [.pins] s (assertFault s) := by
  unfold assertFault
  repeat' with_reducible first
    | (extract_lets +onlyGivenNames u; subst u) | exact .refl _ _ | apply update
  all_goals first
    | decide
    | (intro q hq; cases q <;> first | exact absurd (by decide) hq | simp only [Part.same, and_self])
    | simp only [State.shaped, imp_self]

theorem withdrawRequests_touches (c : Option Nat) (s : State) : Touches [.tier] s (withdrawRequests c s) := by
  unfold withdrawRequests
  repeat' with_reducible first
    | (extract_lets +onlyGivenNames u; subst u) | assumption | exact .refl _ _ | split | apply update
  all_goals first
    | decide
    | (intro q hq; cases q <;> first | exact absurd (by decide) hq | simp only [Part.same, and_self])
    | simp only [State.shaped, imp_self]

theorem reportNewest_touches (s : State) : Touches [.link] s (reportNewest s) := by
  unfold reportNewest
  repeat' with_reducible first
    | exact .refl _ _ | apply (reportToHead_touches ..).thn | split | apply update
  all_goals decide

theorem beginSquall_touches (level : Nat) (charged : Option (BitVec 32)) (die : Option Nat) (ring : Bool) (s : State) :
    Touches [.job, .progress, .engines, .tier, .media, .link, .integrity, .pins]
      s (beginSquall level charged die ring s) := by
  unfold beginSquall
  repeat' with_reducible first
    | (extract_lets +onlyGivenNames u; apply cut u; unfold u; clear u; rotate_left; clear_value u; intro hu; rotate_right)
    | (extract_lets +onlyGivenNames u; subst u) | assumption | exact .refl _ _ | apply (assertFault_touches ..).thn
    | apply (countKind_touches ..).thn | apply (killCompute_touches ..).thn | apply (killDecodes_touches ..).thn
    | apply (withdrawRequests_touches ..).thn | split | apply update
  all_goals first
    | decide
    | (intro q hq; cases q <;> first | exact absurd (by decide) hq | simp only [Part.same, and_self])
    | simp only [State.shaped, imp_self]

theorem sendAbort_touches (cause : Nat) (s : State) : Touches [.link] s (sendAbort cause s) := by
  unfold sendAbort
  repeat' with_reducible first
    | exact .refl _ _ | apply (sendBothWays_touches ..).thn
  all_goals decide

theorem takeAbort_touches (cause : Nat) (charged : Option (BitVec 32)) (die : Option Nat) (s : State) :
    Touches jobParts s (takeAbort cause charged die s) := by
  unfold takeAbort
  repeat' with_reducible first
    | (extract_lets +onlyGivenNames u; apply cut u; unfold u; clear u; rotate_left; clear_value u; intro hu; rotate_right)
    | (extract_lets +onlyGivenNames u; subst u) | assumption | exact .refl _ _ | apply (beginSquall_touches ..).thn
    | apply (raiseAs_touches ..).thn | apply (stopJob_touches ..).thn | split | apply update
  all_goals first
    | decide
    | (intro q hq; cases q <;> first | exact absurd (by decide) hq | simp only [Part.same, and_self])
    | simp only [State.shaped, imp_self]

theorem startAbort_touches (cause : Nat) (reported : Bool) (charged : Option (BitVec 32)) (die : Option Nat)
    (s : State) :
    Touches jobParts s (startAbort cause reported charged die s) := by
  unfold startAbort
  repeat' with_reducible first
    | (extract_lets +onlyGivenNames u; apply cut u; unfold u; clear u; rotate_left; clear_value u; intro hu; rotate_right) | assumption
    | exact .refl _ _ | apply (raiseAs_touches ..).thn | apply (sendAbort_touches ..).thn
    | apply (takeAbort_touches ..).thn | split
  all_goals decide

theorem enterSquall_touches (charged : Option (BitVec 32)) (die : Option Nat) (s : State) :
    Touches jobParts s (enterSquall charged die s) := by
  unfold enterSquall
  repeat' with_reducible first
    | exact .refl _ _ | apply (beginSquall_touches ..).thn | apply (startAbort_touches ..).thn | split
  all_goals decide

theorem coldReset_touches (s : State) : Touches coldParts s (coldReset s) := by
  refine ⟨rfl, rfl, fun _ => ?_, fun q hq => ?_⟩
  · exact ⟨rfl, rfl, rfl, rfl, rfl, rfl, rfl, rfl, rfl, rfl, rfl, Nat.zero_le _⟩
  · cases q <;> first | exact absurd (by decide) hq | simp only [Part.same, coldReset]

theorem forceModuleReset_touches (s : State) : Touches coldParts s (forceModuleReset s) := by
  have squall (u : State) : Touches coldParts s (beginSquall 3 none none u.inRing (countKind 10 (assertFault s))) :=
    .via (beginSquall_touches ..) (.via (countKind_touches ..) ((assertFault_touches s).mono))
  unfold forceModuleReset
  dsimp only
  split
  · exact refl ..
  split
  · refine update (squall _) ?_ ?_
    · simp only [State.shaped, List.length_map, imp_self]
    · intro q hq; cases q <;> first | exact absurd (by decide) hq | simp only [Part.same]
  · exact .via (coldReset_touches ..) (.via (countKind_touches ..) ((assertFault_touches s).mono))

theorem commandFault_touches (code : Nat) (arg : Nat) (core : Nat) (s : State) :
    Touches jobParts s (commandFault code arg core s) := by
  unfold commandFault
  repeat' with_reducible first
    | exact .refl _ _ | apply (enterSquall_touches ..).thn | apply (raiseAs_touches ..).thn
  all_goals decide

theorem formFails_touches (code : Nat) (s : State) : Touches [.code, .link, .host] s (formFails code s) := by
  unfold formFails
  repeat' with_reducible first
    | (extract_lets +onlyGivenNames u; subst u) | exact .refl _ _ | apply (raiseAs_touches ..).thn | apply update
  all_goals first
    | decide
    | (intro q hq; cases q <;> first | exact absurd (by decide) hq | simp only [Part.same, and_self])
    | simp only [State.shaped, imp_self]

theorem formationDue_touches (s : State) : Touches [.code, .link, .host] s (formationDue s) := by
  unfold formationDue
  repeat' with_reducible first
    | exact .refl _ _ | apply (formFails_touches ..).thn | split | apply update
  all_goals decide

theorem enqueueEntry_touches (deadline : Nat) (cmdIndex : Nat) (entry : Nat) (s : State) :
    Touches [.tier] s (enqueueEntry deadline cmdIndex entry s) := by
  unfold enqueueEntry
  repeat' with_reducible first
    | (extract_lets +onlyGivenNames u; subst u) | assumption | exact .refl _ _ | split | apply update
  all_goals first
    | decide
    | (intro q hq; cases q <;> first | exact absurd (by decide) hq | simp only [Part.same, and_self])
    | simp only [State.shaped, imp_self]

theorem estimateFill_touches (r : TierRequest) (s : State) : Touches [.code, .host] s (estimateFill r s) := by
  unfold estimateFill
  repeat' with_reducible first
    | (extract_lets +onlyGivenNames u; subst u) | assumption | exact .refl _ _ | apply (raise_touches ..).thn | split
  all_goals decide

theorem addRequest_touches (r : TierRequest) (s : State) : Touches [.code, .tier, .host] s (addRequest r s) := by
  unfold addRequest
  repeat' with_reducible first
    | (extract_lets +onlyGivenNames u; apply cut u; unfold u; clear u; rotate_left; clear_value u; intro hu; rotate_right)
    | (extract_lets +onlyGivenNames u; subst u) | assumption | exact .refl _ _ | apply (enqueueEntry_touches ..).thn
    | apply (estimateFill_touches ..).thn | apply Touches.foldl; intro _ _ | split | apply update
  all_goals first
    | decide
    | (intro q hq; cases q <;> first | exact absurd (by decide) hq | simp only [Part.same, and_self])
    | simp only [State.shaped, imp_self]

theorem setStatus_touches (entry : Nat) (st : Residency) (s : State) : Touches [.tier] s (setStatus entry st s) := by
  unfold setStatus
  repeat' with_reducible first
    | exact .refl _ _ | apply (State.setEntry_touches ..).thn | split | apply update
  all_goals decide

theorem beginFill_touches (s : State) : Touches [.code, .tier, .host] s (beginFill s) := by
  unfold beginFill
  repeat' with_reducible first
    | (extract_lets +onlyGivenNames u; apply cut u; unfold u; clear u; rotate_left; clear_value u; intro hu; rotate_right)
    | (extract_lets +onlyGivenNames u; subst u) | assumption | exact .refl _ _ | apply (State.setEntry_touches ..).thn
    | apply (raise_touches ..).thn | apply (setStatus_touches ..).thn | split | apply update
  all_goals first
    | decide
    | (intro q hq; cases q <;> first | exact absurd (by decide) hq | simp only [Part.same, and_self])
    | simp only [State.shaped, imp_self]

theorem failFill_touches (f : Fill) (e : DirEntry) (code : Nat) (s : State) :
    Touches verdictParts s (failFill f e code s) := by
  unfold failFill
  repeat' with_reducible first
    | (extract_lets +onlyGivenNames u; apply cut u; unfold u; clear u; rotate_left; clear_value u; intro hu; rotate_right)
    | (extract_lets +onlyGivenNames u; subst u) | assumption | exact .refl _ _ | apply (countError_touches ..).thn
    | apply (raiseAs_touches ..).thn | apply (setStatus_touches ..).thn | split | apply update
  all_goals first
    | decide
    | (intro q hq; cases q <;> first | exact absurd (by decide) hq | simp only [Part.same, and_self])
    | simp only [State.shaped, imp_self]

theorem touchEntries_touches (entries : List Nat) (s : State) : Touches [.tier] s (touchEntries entries s) := by
  unfold touchEntries
  repeat' with_reducible first
    | exact .refl _ _ | apply (State.setEntry_touches ..).thn | apply Touches.foldl; intro _ _ | split | apply update
  all_goals decide

theorem decidePath_touches (m : Nat) (s : State) : Touches [.job, .code, .tier, .host] s (decidePath m s) := by
  unfold decidePath
  repeat' with_reducible first
    | (extract_lets +onlyGivenNames u; apply cut u; unfold u; clear u; rotate_left; clear_value u; intro hu; rotate_right)
    | (extract_lets +onlyGivenNames u; subst u) | assumption | exact .refl _ _ | apply (raise_touches ..).thn
    | apply (touchEntries_touches ..).thn | apply Touches.foldl; intro _ _ | split | apply update
  all_goals first
    | decide
    | (intro q hq; cases q <;> first | exact absurd (by decide) hq | simp only [Part.same, and_self])
    | simp only [State.shaped, imp_self]

theorem redecide_touches (s : State) : Touches [.job, .engines, .tier] s (redecide s) := by
  unfold redecide
  repeat' with_reducible first
    | (extract_lets +onlyGivenNames u; subst u) | assumption | exact .refl _ _ | apply (fetchLists_touches ..).thn
    | split | apply update
  all_goals first
    | decide
    | (intro q hq; cases q <;> first | exact absurd (by decide) hq | simp only [Part.same, and_self])
    | simp only [State.shaped, imp_self]

theorem endFill_touches (ok : Bool) (host : Bytes) (s : State) : Touches faultParts s (endFill ok host s) := by
  unfold endFill
  repeat' with_reducible first
    | (extract_lets +onlyGivenNames u; apply cut u; unfold u; clear u; rotate_left; clear_value u; intro hu; rotate_right)
    | (extract_lets +onlyGivenNames u; subst u) | assumption | exact .refl _ _ | apply (State.setEntry_touches ..).thn
    | apply (State.writeMem_touches ..).thn | apply (chargeHbm_touches ..).thn | apply (failFill_touches ..).thn
    | apply (redecide_touches ..).thn | split | apply update
  all_goals first
    | decide
    | (intro q hq; cases q <;> first | exact absurd (by decide) hq | simp only [Part.same, and_self])
    | simp only [State.shaped, imp_self]

theorem shiftRequests_touches (d : Nat) (s : State) : Touches [.tier] s (shiftRequests d s) := by
  unfold shiftRequests
  repeat' with_reducible first
    | (extract_lets +onlyGivenNames u; subst u) | exact .refl _ _ | apply update
  all_goals first
    | decide
    | (intro q hq; cases q <;> first | exact absurd (by decide) hq | simp only [Part.same, and_self])
    | simp only [State.shaped, imp_self]

theorem resetTier_touches (s : State) : Touches [.tier] s (resetTier s) := by
  unfold resetTier
  repeat' with_reducible first
    | (extract_lets +onlyGivenNames u; apply cut u; unfold u; clear u; rotate_left; clear_value u; intro hu; rotate_right)
    | (extract_lets +onlyGivenNames u; subst u) | assumption | exact .refl _ _ | apply (fillPartition_touches ..).thn
    | apply (setStatus_touches ..).thn | split | apply update
  all_goals first
    | decide
    | (intro q hq; cases q <;> first | exact absurd (by decide) hq | simp only [Part.same, and_self])
    | simp only [State.shaped, imp_self]

theorem State.setStream_touches (n : Nat) (x : Stream) (s : State) : Touches [.media] s (State.setStream s n x) := by
  unfold State.setStream
  repeat' with_reducible first
    | (extract_lets +onlyGivenNames u; subst u) | exact .refl _ _ | apply update
  all_goals first
    | decide
    | (intro q hq; cases q <;> first | exact absurd (by decide) hq | simp only [Part.same, and_self])
    | simp only [State.shaped, List.length_set, imp_self]

theorem length_foldl_of_keeps {α β : Type} (f : List α → β → List α) (l : List β) (k : List α)
    (h : ∀ k x, (f k x).length = k.length) : (l.foldl f k).length = k.length := by
  induction l generalizing k with
  | nil => rfl
  | cons x xs ih => rw [List.foldl_cons, ih, h]

theorem length_foldl_append {α β : Type} (f : List α × β → α → List α × β) (l : List α) (acc : List α × β)
    (h : ∀ acc x, (f acc x).1.length = acc.1.length + 1) : (l.foldl f acc).1.length = acc.1.length + l.length := by
  induction l generalizing acc with
  | nil => rfl
  | cons x xs ih =>
    rw [List.foldl_cons, ih, h, List.length_cons]
    omega

theorem setBuffers_touches (s : State) (bs : List FrameBuffer) (h : bs.length = s.media.buffers.length) :
    Touches [.media] s { s with media := { s.media with buffers := bs } } := by
  refine update (refl ..) ?_ ?_
  · simp only [State.shaped, h, imp_self]
  · intro q hq; cases q <;> first | exact absurd (by decide) hq | simp only [Part.same, and_self]

theorem allocate_touches (n : Nat) (count : Nat) (s : State) : Touches [.media] s (allocate n count s) := by
  unfold allocate
  extract_lets budget used release bs taken
  apply setBuffers_touches
  have freed (k : List FrameBuffer) : (release k).length = k.length := by
    unfold release
    split
    · exact List.length_map ..
    · rfl
  have kept : bs.length = s.media.buffers.length := by
    unfold bs
    apply length_foldl_of_keeps
    intro k _
    split
    · exact freed k
    · rfl
  unfold taken
  rw [length_foldl_append, kept, List.length_nil, Nat.zero_add]
  intro acc b
  split <;> exact List.length_append

theorem commitRefs_touches (n : Nat) (refs : Nat) (key : Bool) (s : State) :
    Touches [.media] s (commitRefs n refs key s) := by
  unfold commitRefs
  repeat' with_reducible first
    | (extract_lets +onlyGivenNames u; subst u) | assumption | exact .refl _ _ | split | apply update
  all_goals first
    | decide
    | (intro q hq; cases q <;> first | exact absurd (by decide) hq | simp only [Part.same, and_self])
    | simp only [State.shaped, List.length_map, imp_self]

theorem storeFrame_touches (bufs : List Nat) (samples : Bytes) (field : Bytes) (s : State) :
    Touches [.mem, .tier, .host] s (storeFrame bufs samples field s) := by
  unfold storeFrame
  repeat' with_reducible first
    | (extract_lets +onlyGivenNames u; apply cut u; unfold u; clear u; rotate_left; clear_value u; intro hu; rotate_right)
    | (extract_lets +onlyGivenNames u; subst u) | assumption | exact .refl _ _ | apply (State.writeMem_touches ..).thn
    | apply (chargeHbm_touches ..).thn | apply Touches.foldl; intro _ _ | split | apply update
  all_goals decide

theorem beginEncode_touches (n number k : Nat) (s : State) :
    Touches [.tier, .media] s (beginEncode n number k s) := by
  unfold beginEncode State.free
  extract_lets
  refine .via (allocate_touches ..) (.via (State.setStream_touches ..) (.foldl (fun u j => ?_)
    ((State.free_touches s).mono)))
  exact (chargeHbm_touches ..).mono

theorem startEncode_touches (n : Nat) (f : Frame) (s : State) : Touches [.tier, .media] s (startEncode n f s) := by
  unfold startEncode
  repeat' with_reducible first
    | (extract_lets +onlyGivenNames u; subst u) | assumption | exact .refl _ _
    | apply (State.setStream_touches ..).thn | apply (beginEncode_touches ..).thn | split | apply update
  all_goals decide

theorem startEncodes_touches (k : Nat) (s : State) : Touches [.tier, .media] s (startEncodes k s) := by
  unfold startEncodes
  repeat' with_reducible first
    | exact .refl _ _ | apply (startEncode_touches ..).thn | apply Touches.foldl; intro _ _ | split | apply update
  all_goals decide

theorem State.setFrame_touches (number : Nat) (g : Frame → Frame) (s : State) :
    Touches [.frames] s (State.setFrame s number g) := by
  unfold State.setFrame
  repeat' with_reducible first
    | (extract_lets +onlyGivenNames u; subst u) | exact .refl _ _ | split | apply update
  all_goals first
    | decide
    | (intro q hq; cases q <;> first | exact absurd (by decide) hq | simp only [Part.same, and_self])
    | simp only [State.shaped, imp_self]

theorem nextEncode_touches (n : Nat) (s : State) : Touches [.tier, .media] s (nextEncode n s) := by
  unfold nextEncode
  repeat' with_reducible first
    | (extract_lets +onlyGivenNames u; subst u) | assumption | exact .refl _ _
    | apply (State.setStream_touches ..).thn | apply (beginEncode_touches ..).thn | split | apply update
  all_goals decide

theorem stageUnit_touches (n : Nat) (s : State) :
    Touches [.frames, .code, .mem, .tier, .media, .host] s (stageUnit n s) := by
  unfold stageUnit
  repeat' with_reducible first
    | (extract_lets +onlyGivenNames u; apply cut u; unfold u; clear u; rotate_left; clear_value u; intro hu; rotate_right)
    | (extract_lets +onlyGivenNames u; subst u) | assumption | exact .refl _ _ | apply (State.setFrame_touches ..).thn
    | apply (State.setStream_touches ..).thn | apply (commitRefs_touches ..).thn | apply (nextEncode_touches ..).thn
    | apply (raise_touches ..).thn | apply (storeFrame_touches ..).thn | split | apply update
  all_goals first
    | decide
    | (intro q hq; cases q <;> first | exact absurd (by decide) hq | simp only [Part.same, and_self])
    | simp only [State.shaped, imp_self]

theorem putPicture_touches (n : Nat) (k : Nat) (planes : List (List Nat)) (s : State) :
    Touches [.mem, .tier, .host] s (putPicture n k planes s) := by
  unfold putPicture
  repeat' with_reducible first
    | (extract_lets +onlyGivenNames u; subst u) | assumption | exact .refl _ _ | apply (chargeHbm_touches ..).thn
    | apply (writeCodes_touches ..).thn | apply Touches.foldl; intro _ _
  all_goals decide

theorem repeatPicture_touches (n : Nat) (k : Nat) (s : State) :
    Touches [.mem, .tier, .host] s (repeatPicture n k s) := by
  unfold repeatPicture
  repeat' with_reducible first
    | exact .refl _ _ | apply (putPicture_touches ..).thn
  all_goals decide

theorem flagDamaged_touches (number : Nat) (s : State) : Touches [.frames] s (flagDamaged number s) := by
  unfold flagDamaged
  repeat' with_reducible first
    | exact .refl _ _ | apply (State.setFrame_touches ..).thn | apply update
  all_goals decide

theorem pictureStaged_touches (n : Nat) (number : Nat) (damaged : Bool) (s : State) :
    Touches [.frames, .media] s (pictureStaged n number damaged s) := by
  unfold pictureStaged
  repeat' with_reducible first
    | (extract_lets +onlyGivenNames u; apply cut u; unfold u; clear u; rotate_left; clear_value u; intro hu; rotate_right)
    | (extract_lets +onlyGivenNames u; subst u) | assumption | exact .refl _ _
    | apply (State.setStream_touches ..).thn | apply (flagDamaged_touches ..).thn | split | apply update
  all_goals first
    | decide
    | (intro q hq; cases q <;> first | exact absurd (by decide) hq | simp only [Part.same, and_self])
    | simp only [State.shaped, List.length_map, imp_self]

theorem concealFrame_touches (n : Nat) (number : Nat) (k : Nat) (s : State) :
    Touches [.frames, .mem, .tier, .media, .host] s (concealFrame n number k s) := by
  unfold concealFrame
  repeat' with_reducible first
    | exact .refl _ _ | apply (pictureStaged_touches ..).thn | apply (putPicture_touches ..).thn
  all_goals decide

theorem startDecode_touches (n : Nat) (k : Nat) (f : Frame) (segs : List Segment) (s : State) :
    Touches [.frames, .mem, .tier, .media, .host] s (startDecode n k f segs s) := by
  unfold startDecode
  repeat' with_reducible first
    | (extract_lets +onlyGivenNames u; apply cut u; unfold u; clear u; rotate_left; clear_value u; intro hu; rotate_right)
    | (extract_lets +onlyGivenNames u; subst u) | assumption | exact .refl _ _
    | apply (State.setStream_touches ..).thn | apply (allocate_touches ..).thn | apply (concealFrame_touches ..).thn
    | apply (flagDamaged_touches ..).thn | apply (repeatPicture_touches ..).thn | split | apply update
  all_goals decide

theorem startDecodes_touches (k : Nat) (f : Frame) (segs : List Segment) (s : State) :
    Touches [.frames, .mem, .tier, .media, .host] s (startDecodes k f segs s) := by
  unfold startDecodes
  repeat' with_reducible first
    | exact .refl _ _ | apply (startDecode_touches ..).thn | apply Touches.foldl; intro _ _
  all_goals decide

theorem replayDecodes_touches (k : Nat) (s : State) :
    Touches [.frames, .mem, .tier, .media, .host] s (replayDecodes k s) := by
  unfold replayDecodes
  repeat' with_reducible first
    | exact .refl _ _ | apply (startDecodes_touches ..).thn | split | apply update
  all_goals decide

theorem placePicture_touches (n : Nat) (k : Nat) (d : Decoded) (s : State) :
    Touches [.mem, .tier, .host] s (placePicture n k d s) := by
  unfold placePicture
  repeat' with_reducible first
    | (extract_lets +onlyGivenNames u; subst u) | assumption | exact .refl _ _ | apply (putPicture_touches ..).thn
    | apply (repeatPicture_touches ..).thn | apply (storeFrame_touches ..).thn | split
  all_goals decide

theorem stagePicture_touches (n : Nat) (s : State) :
    Touches [.frames, .code, .mem, .tier, .media, .host] s (stagePicture n s) := by
  unfold stagePicture
  repeat' with_reducible first
    | (extract_lets +onlyGivenNames u; apply cut u; unfold u; clear u; rotate_left; clear_value u; intro hu; rotate_right)
    | (extract_lets +onlyGivenNames u; subst u) | assumption | exact .refl _ _
    | apply (State.setStream_touches ..).thn | apply (pictureStaged_touches ..).thn
    | apply (placePicture_touches ..).thn | apply (raise_touches ..).thn | split | apply update
  all_goals decide

theorem commitPictures_touches (s : State) : Touches [.media] s (commitPictures s) := by
  unfold commitPictures
  repeat' with_reducible first
    | (extract_lets +onlyGivenNames u; apply cut u; unfold u; clear u; rotate_left; clear_value u; intro hu; rotate_right)
    | (extract_lets +onlyGivenNames u; subst u) | assumption | exact .refl _ _
    | apply (State.setStream_touches ..).thn | apply Touches.foldl; intro _ _ | split | apply update
  all_goals first
    | decide
    | (intro q hq; cases q <;> first | exact absurd (by decide) hq | simp only [Part.same, and_self])
    | simp only [State.shaped, List.length_map, imp_self]

theorem resetMedia_touches (s : State) : Touches [.frames, .mem, .tier, .media, .host] s (resetMedia s) := by
  have reset : Touches [.frames, .mem, .tier, .media, .host] s (fillPartition 1 (restartControllers (freePool s))) :=
    .via (fillPartition_touches ..) (.via (restartControllers_touches ..) ((freePool_touches s).mono))
  unfold resetMedia
  refine .foldl (fun u p => concealFrame_touches ..) (update reset ?_ ?_)
  · simp only [State.shaped, List.length_mapIdx, imp_self]
  · intro q hq; cases q <;> first | exact absurd (by decide) hq | simp only [Part.same, and_self]

theorem startMedia_touches (s : State) : Touches [.media] s (startMedia s) := by
  unfold startMedia
  repeat' with_reducible first
    | (extract_lets +onlyGivenNames u; apply cut u; unfold u; clear u; rotate_left; clear_value u; intro hu; rotate_right)
    | (extract_lets +onlyGivenNames u; subst u) | assumption | exact .refl _ _ | apply (freePool_touches ..).thn
    | apply (restartControllers_touches ..).thn | apply update
  all_goals first
    | decide
    | (intro q hq; cases q <;> first | exact absurd (by decide) hq | simp only [Part.same, and_self])
    | simp only [State.shaped, List.length_map, imp_self]

theorem writeCheckpoint_touches (c : Nat) (s : State) :
    Touches [.mem, .tier, .host, .integrity] s (writeCheckpoint c s) := by
  unfold writeCheckpoint
  repeat' with_reducible first
    | (extract_lets +onlyGivenNames u; apply cut u; unfold u; clear u; rotate_left; clear_value u; intro hu; rotate_right)
    | (extract_lets +onlyGivenNames u; subst u) | assumption | exact .refl _ _ | apply (State.writeMem_touches ..).thn
    | apply (chargeCore_touches ..).thn | apply Touches.foldl; intro _ _ | apply update
  all_goals first
    | decide
    | (intro q hq; cases q <;> first | exact absurd (by decide) hq | simp only [Part.same, and_self])
    | simp only [State.shaped, imp_self]

theorem moveCheckpoint_touches (region : Nat) (c : Nat) (k : Nat) (s : State) :
    Touches [.job, .mem, .host, .integrity] s (moveCheckpoint region c k s) := by
  unfold moveCheckpoint
  repeat' with_reducible first
    | (extract_lets +onlyGivenNames u; apply cut u; unfold u; clear u; rotate_left; clear_value u; intro hu; rotate_right)
    | (extract_lets +onlyGivenNames u; subst u) | assumption | exact .refl _ _
    | apply (State.asVariant_touches ..).thn | apply (State.writeMem_touches ..).thn | apply Touches.foldl; intro _ _
    | split | apply update
  all_goals first
    | decide
    | (intro q hq; cases q <;> first | exact absurd (by decide) hq | simp only [Part.same, and_self])
    | simp only [State.shaped, imp_self]

theorem restoreTensor_touches (t : Tensor) (data : Bytes) (s : State) :
    Touches [.mem, .host] s (restoreTensor t data s) := by
  unfold restoreTensor
  repeat' with_reducible first
    | (extract_lets +onlyGivenNames u; apply cut u; unfold u; clear u; rotate_left; clear_value u; intro hu; rotate_right)
    | (extract_lets +onlyGivenNames u; subst u) | assumption | exact .refl _ _ | apply (writeCodes_touches ..).thn
    | apply (writeScale_touches ..).thn | apply Touches.foldl; intro _ _
  all_goals decide

theorem restoreRecord_touches {from_ : Nat} {addr : Nat → Nat} {first i : Nat} {s t : State}
    (h : restoreRecord from_ addr first i (some s) = some t) : Touches [.job, .code, .mem, .host] s t := by
  simp only [restoreRecord] at h
  repeat' split at h
  all_goals first | cases h | skip
  all_goals repeat' with_reducible first
    | exact .refl _ _ | apply (restoreTensor_touches ..).thn | apply (raise_touches ..).thn | split
  all_goals decide

theorem restoreRecords_touch {from_ : Nat} {addr : Nat → Nat} {first : Nat} {l : List Nat} {r : Option State}
    {s t : State}
    (hr : ∀ u, r = some u → Touches [.job, .code, .mem, .host] s u)
    (h : l.foldl (fun r i => restoreRecord from_ addr first i r) r = some t) :
      Touches [.job, .code, .mem, .host] s t := by
  induction l generalizing r with
  | nil => exact hr t h
  | cons i l ih =>
    refine ih (fun u hu => ?_) h
    cases r with
    | none => cases hu
    | some v => exact (restoreRecord_touches hu).via (hr v rfl)

theorem restoreFrom_touches {region : Nat} {faultDie : Option Nat} {c : Nat} {s t : State}
    (h : restoreFrom region faultDie c s = some t) : Touches [.job, .code, .mem, .host] s t := by
  unfold restoreFrom at h
  extract_lets first addr at h
  split at h
  · cases h
  next die _ =>
    refine restoreRecords_touch (r := some (if die == first then s else raise 0x420C 0xFFFF s)) (fun u hu => ?_) h
    cases hu
    split
    · exact refl ..
    · exact (raise_touches ..).mono

theorem restoreCheckpoint_touches {faultDie : Option Nat} {c : Nat} {s t : State}
    (h : restoreCheckpoint faultDie c s = some t) : Touches [.job, .code, .mem, .host] s t :=
  restoreFrom_touches h

theorem takeCheckpoint_touches (i : Nat) (p : Nat) (b : Bytes) (s : State) :
    Touches [.job, .mem, .host] s (takeCheckpoint i p b s) := by
  unfold takeCheckpoint
  repeat' with_reducible first
    | (extract_lets +onlyGivenNames u; apply cut u; unfold u; clear u; rotate_left; clear_value u; intro hu; rotate_right)
    | (extract_lets +onlyGivenNames u; subst u) | assumption | exact .refl _ _
    | apply (State.asVariant_touches ..).thn | apply (State.writeMem_touches ..).thn | apply Touches.foldl; intro _ _
    | apply update
  all_goals first
    | decide
    | (intro q hq; cases q <;> first | exact absurd (by decide) hq | simp only [Part.same, and_self])
    | simp only [State.shaped, imp_self]

theorem releaseHeld_touches (s : State) : Touches [.host] s (releaseHeld s) := by
  unfold releaseHeld
  repeat' with_reducible first
    | (extract_lets +onlyGivenNames u; subst u) | exact .refl _ _ | split | apply update
  all_goals first
    | decide
    | (intro q hq; cases q <;> first | exact absurd (by decide) hq | simp only [Part.same, and_self])
    | simp only [State.shaped, imp_self]

theorem writeSegment_touches (g : Segment) (die : Nat) (s : State) :
    Touches [.mem, .tier, .host] s (writeSegment g die s) := by
  unfold writeSegment
  repeat' with_reducible first
    | (extract_lets +onlyGivenNames u; subst u) | assumption | exact .refl _ _ | apply (State.writeMem_touches ..).thn
    | apply (chargeHbm_touches ..).thn | split
  all_goals decide

theorem writeConditioning_touches (segs : List Segment) (s : State) :
    Touches [.mem, .tier, .host] s (writeConditioning segs s) := by
  unfold writeConditioning
  repeat' with_reducible first
    | exact .refl _ _ | apply (writeSegment_touches ..).thn | apply Touches.foldl; intro _ _
  all_goals decide

theorem acceptFrame_touches (k : Nat) (flywheel : Bool) (s : State) :
    Touches [.job, .frames, .code, .mem, .tier, .media, .host] s (acceptFrame k flywheel s) := by
  unfold acceptFrame
  repeat' with_reducible first
    | (extract_lets +onlyGivenNames u; apply cut u; unfold u; clear u; rotate_left; clear_value u; intro hu; rotate_right)
    | (extract_lets +onlyGivenNames u; subst u) | assumption | exact .refl _ _ | apply (raise_touches ..).thn
    | apply (releaseHeld_touches ..).thn | apply (startDecodes_touches ..).thn
    | apply (writeConditioning_touches ..).thn | split | apply update
  all_goals first
    | decide
    | (intro q hq; cases q <;> first | exact absurd (by decide) hq | simp only [Part.same, and_self])
    | simp only [State.shaped, imp_self]

theorem nextAk_touches (k : Nat) (s : State) : Touches [.job] s (nextAk k s) := by
  unfold nextAk
  repeat' with_reducible first
    | (extract_lets +onlyGivenNames u; subst u) | exact .refl _ _ | split | apply update
  all_goals first
    | decide
    | (intro q hq; cases q <;> first | exact absurd (by decide) hq | simp only [Part.same, and_self])
    | simp only [State.shaped, imp_self]

theorem applySwitches_touches (s : State) : Touches [.job, .media, .integrity] s (applySwitches s) := by
  refine .via (applyWatchEnd_touches ..) (update (refl ..) ?_ ?_)
  · simp only [State.shaped, List.length_mapIdx, imp_self]
  · intro q hq; cases q <;> first | exact absurd (by decide) hq | simp only [Part.same, and_self]

theorem setNimbus_touches (s : State) (n : Nat) (x : NimbusState) :
    Touches [.nimbus] s { s with freeCtr := n, nimbus := x } :=
  update (refl ..) id (by intro q hq; cases q <;> first | exact absurd (by decide) hq | simp only [Part.same, and_self])

theorem fitModel_touches (s : State) : Touches [.nimbus] s (fitModel s) :=
  setNimbus_touches s _ _

theorem startTick_touches (k : Nat) (s : State) :
    Touches [.job, .code, .progress, .engines, .tier, .media, .link, .host, .integrity, .nimbus]
      s (startTick k s) := by
  have path : Touches [.job, .code, .progress, .engines, .tier, .media, .link, .host, .integrity, .nimbus] s
      (decidePath k (applySwitches s)) := .via (decidePath_touches ..) ((applySwitches_touches s).mono)
  unfold startTick
  refine .via (fitModel_touches _) (.via (startEncodes_touches ..) (.via (fetchLists_touches _) (update path ?_ ?_)))
  · simp +contextual [State.shaped]
  · intro q hq; cases q <;> first | exact absurd (by decide) hq | simp only [Part.same, and_self]

theorem noteShortfall_touches (s : State) :
    Touches [.tick, .job, .code, .tier, .link, .host, .integrity] s (noteShortfall s) := by
  unfold noteShortfall
  repeat' with_reducible first
    | exact .refl _ _ | apply (causeDusk_touches ..).thn | apply (raise_touches ..).thn | split | apply update
  all_goals decide

theorem duskHere_touches (how : Placed) (s : State) :
    Touches [.tick, .job, .code, .tier, .link, .host, .integrity] s (duskHere how s).2 := by
  unfold duskHere
  repeat' with_reducible first
    | exact .refl _ _ | apply (noteShortfall_touches ..).thn | apply (raise_touches ..).thn | split
  all_goals decide

theorem jobEndEffect_touches (e : Nat) (s : State) : Touches [.job] s (jobEndEffect e s) := by
  unfold jobEndEffect
  repeat' with_reducible first
    | (extract_lets +onlyGivenNames u; subst u) | exact .refl _ _ | apply update
  all_goals first
    | decide
    | (intro q hq; cases q <;> first | exact absurd (by decide) hq | simp only [Part.same, and_self])
    | simp only [State.shaped, imp_self]

theorem startRun_touches (k : Nat) (flywheel : Bool) (s : State) :
    Touches [.job, .frames, .code, .progress, .engines, .mem, .tier, .media, .link, .host, .integrity, .nimbus]
      s (startRun k flywheel s) := by
  unfold startRun
  repeat' with_reducible first
    | (extract_lets +onlyGivenNames u; apply cut u; unfold u; clear u; rotate_left; clear_value u; intro hu; rotate_right)
    | (extract_lets +onlyGivenNames u; subst u) | assumption | exact .refl _ _ | apply (acceptFrame_touches ..).thn
    | apply (fillBuckets_touches ..).thn | apply (moveCheckpoint_touches ..).thn | apply (nextAk_touches ..).thn
    | apply (raise_touches ..).thn | apply (replayDecodes_touches ..).thn | apply (startTick_touches ..).thn | split
    | apply update
  all_goals first
    | decide
    | (intro q hq; cases q <;> first | exact absurd (by decide) hq | simp only [Part.same, and_self])
    | simp only [State.shaped, imp_self]

theorem squallResume_touches (r : Nat) (q : Squall) (s : State) :
    Touches [.job, .frames, .code, .progress, .engines, .mem, .tier, .media, .link, .host, .integrity, .nimbus, .pins]
      s (squallResume r q s) := by
  unfold squallResume
  repeat' with_reducible first
    | (extract_lets +onlyGivenNames u; apply cut u; unfold u; clear u; rotate_left; clear_value u; intro hu; rotate_right)
    | (extract_lets +onlyGivenNames u; subst u) | assumption | exact .refl _ _ | apply (moveCheckpoint_touches ..).thn
    | apply (nextAk_touches ..).thn | apply (raise_touches ..).thn | apply (releaseFault_touches ..).thn
    | apply (replayDecodes_touches ..).thn | apply (shiftRequests_touches ..).thn | apply (startTick_touches ..).thn
    | split | apply update
  all_goals first
    | decide
    | (intro q hq; cases q <;> first | exact absurd (by decide) hq | simp only [Part.same, and_self])
    | simp only [State.shaped, imp_self]

theorem runBoundary_touches (k : Nat) (how : Placed) (s : State) : Touches runParts s (runBoundary k how s) := by
  have dusk {d : Option PendingStop} {t : State} (h : duskHere how s = (d, t)) : Touches runParts s t := by
    have := duskHere_touches how s
    rw [h] at this
    exact this.mono
  unfold runBoundary
  split
  next d t h => exact .via (duskStop_touches ..) (dusk h)
  next t h =>
    repeat' split
    · exact .via (nextAk_touches ..) (.via (startTick_touches ..) (dusk h))
    · exact .via (nextAk_touches ..) (.via (startTick_touches ..) (.via (jobEndEffect_touches ..) (dusk h)))
    · exact .via (acceptFrame_touches ..) (.via (startTick_touches ..) (dusk h))

theorem squallRecheck_touches (s : State) :
    Touches [.tick, .job, .code, .tier, .link, .host, .integrity] s (squallRecheck s) := by
  unfold squallRecheck
  repeat' with_reducible first
    | exact .refl _ _ | apply (causeDusk_touches ..).thn | apply (raise_touches ..).thn | split
  all_goals decide

theorem forwardTick_touches (how : Placed) (dusk : Bool) (ended : Bool) (s : State) :
    Touches [.link] s (forwardTick how dusk ended s) := by
  unfold forwardTick
  repeat' with_reducible first
    | (extract_lets +onlyGivenNames u; subst u) | assumption | exact .refl _ _ | apply (sendBothWays_touches ..).thn
    | split
  all_goals decide

theorem squallBoundary_touches (k : Nat) (how : Placed) (s : State) :
    Touches runParts s (squallBoundary k how s) := by
  unfold squallBoundary
  repeat' with_reducible first
    | exact .refl _ _ | apply (duskStop_touches ..).thn | apply (forwardTick_touches ..).thn
    | apply (squallResume_touches ..).thn | split | apply update
  all_goals decide

theorem placeBoundary_touches (k : Nat) (how : Placed) (s : State) : Touches [.tick] s (placeBoundary k how s) := by
  unfold placeBoundary
  repeat' with_reducible first
    | (extract_lets +onlyGivenNames u; subst u) | assumption | exact .refl _ _ | split | apply update
  all_goals first
    | decide
    | (intro q hq; cases q <;> first | exact absurd (by decide) hq | simp only [Part.same, and_self])
    | simp only [State.shaped, imp_self]

theorem reportFlywheel_touches (how : Placed) (third : Bool) (s : State) :
    Touches [.code, .host] s (reportFlywheel how third s) := by
  unfold reportFlywheel
  repeat' with_reducible first
    | exact .refl _ _ | apply (raise_touches ..).thn | split
  all_goals decide

theorem unlockSource_touches (s : State) : Touches [.tick] s (unlockSource s) := by
  unfold unlockSource
  repeat' with_reducible first
    | (extract_lets +onlyGivenNames u; subst u) | exact .refl _ _ | split | apply update
  all_goals first
    | decide
    | (intro q hq; cases q <;> first | exact absurd (by decide) hq | simp only [Part.same, and_self])
    | simp only [State.shaped, List.length_set, imp_self]

theorem tickLost_touches (s : State) : Touches jobParts s (tickLost s) := by
  unfold tickLost
  repeat' with_reducible first
    | exact .refl _ _ | apply (duskStop_touches ..).thn | apply (forwardTick_touches ..).thn
    | apply (raise_touches ..).thn | apply (unlockSource_touches ..).thn
  all_goals decide

theorem boundary_touches (how : Placed) (s : State) : Touches runParts s (boundary how s) := by
  unfold boundary
  repeat' with_reducible first
    | (extract_lets +onlyGivenNames u; apply cut u; unfold u; clear u; rotate_left; clear_value u; intro hu; rotate_right)
    | (extract_lets +onlyGivenNames u; subst u) | assumption | exact .refl _ _ | apply (causeDusk_touches ..).thn
    | apply (duskHere_touches ..).thn | apply (forwardTick_touches ..).thn | apply (leaveArmed_touches ..).thn
    | apply (placeBoundary_touches ..).thn | apply (raise_touches ..).thn | apply (reportFlywheel_touches ..).thn
    | apply (runBoundary_touches ..).thn | apply (squallBoundary_touches ..).thn
    | apply (squallRecheck_touches ..).thn | apply (startRun_touches ..).thn | apply (tickLost_touches ..).thn | split
    | apply update
  all_goals first
    | decide
    | (intro q hq; cases q <;> first | exact absurd (by decide) hq | simp only [Part.same, and_self])
    | simp only [State.shaped, imp_self]

theorem showLock_touches (s : State) : Touches [.tick] s (showLock s) := by
  unfold showLock
  repeat' with_reducible first
    | (extract_lets +onlyGivenNames u; subst u) | exact .refl _ _ | split | apply update
  all_goals first
    | decide
    | (intro q hq; cases q <;> first | exact absurd (by decide) hq | simp only [Part.same, and_self])
    | simp only [State.shaped, imp_self]

theorem lockLost_touches (s : State) : Touches [.tick, .job, .code, .tier, .host, .integrity] s (lockLost s) := by
  unfold lockLost
  repeat' with_reducible first
    | exact .refl _ _ | apply (leaveArmed_touches ..).thn | apply (raiseAs_touches ..).thn
  all_goals decide

theorem pulseInJob_touches (s : State) : Touches runParts s (pulseInJob s) := by
  unfold pulseInJob
  repeat' with_reducible first
    | (extract_lets +onlyGivenNames u; apply cut u; unfold u; clear u; rotate_left; clear_value u; intro hu; rotate_right)
    | (extract_lets +onlyGivenNames u; subst u) | assumption | exact .refl _ _ | apply (boundary_touches ..).thn
    | apply (raise_touches ..).thn | split | apply update
  all_goals first
    | decide
    | (intro q hq; cases q <;> first | exact absurd (by decide) hq | simp only [Part.same, and_self])
    | simp only [State.shaped, imp_self]

theorem pulseEdge_touches (s : State) : Touches runParts s (pulseEdge s) := by
  unfold pulseEdge
  repeat' with_reducible first
    | (extract_lets +onlyGivenNames u; apply cut u; unfold u; clear u; rotate_left; clear_value u; intro hu; rotate_right)
    | (extract_lets +onlyGivenNames u; subst u) | assumption | exact .refl _ _ | apply (boundary_touches ..).thn
    | apply (lockLost_touches ..).thn | apply (pulseInJob_touches ..).thn | apply (showLock_touches ..).thn | split
    | apply update
  all_goals first
    | decide
    | (intro q hq; cases q <;> first | exact absurd (by decide) hq | simp only [Part.same, and_self])
    | simp only [State.shaped, imp_self]

theorem wordPlaces_touches (inTolerance : Bool) (s : State) : Touches runParts s (wordPlaces inTolerance s) := by
  unfold wordPlaces
  repeat' with_reducible first
    | (extract_lets +onlyGivenNames u; subst u) | assumption | exact .refl _ _ | apply (boundary_touches ..).thn
    | split | apply update
  all_goals decide

theorem wordEdge_touches (inTolerance : Bool) (s : State) : Touches runParts s (wordEdge inTolerance s) := by
  unfold wordEdge
  repeat' with_reducible first
    | (extract_lets +onlyGivenNames u; apply cut u; unfold u; clear u; rotate_left; clear_value u; intro hu; rotate_right)
    | (extract_lets +onlyGivenNames u; subst u) | assumption | exact .refl _ _ | apply (wordPlaces_touches ..).thn
    | split | apply update
  all_goals first
    | decide
    | (intro q hq; cases q <;> first | exact absurd (by decide) hq | simp only [Part.same, and_self])
    | simp only [State.shaped, imp_self]

theorem internalEdge_touches (s : State) : Touches runParts s (internalEdge s) := by
  unfold internalEdge
  repeat' with_reducible first
    | (extract_lets +onlyGivenNames u; subst u) | assumption | exact .refl _ _ | apply (boundary_touches ..).thn
    | split | apply update
  all_goals decide

theorem flywheelEdge_touches (s : State) : Touches runParts s (flywheelEdge s) := by
  unfold flywheelEdge
  repeat' with_reducible first
    | (extract_lets +onlyGivenNames u; subst u) | assumption | exact .refl _ _ | apply (boundary_touches ..).thn
    | apply (lockLost_touches ..).thn | split | apply update
  all_goals decide

theorem abortAfterStop_touches (cause : Nat) (s : State) :
    Touches [.code, .link, .host] s (abortAfterStop cause s) := by
  unfold abortAfterStop
  repeat' with_reducible first
    | (extract_lets +onlyGivenNames u; apply cut u; unfold u; clear u; rotate_left; clear_value u; intro hu; rotate_right)
    | (extract_lets +onlyGivenNames u; subst u) | assumption | exact .refl _ _ | apply (raiseAs_touches ..).thn
    | apply (sendAbort_touches ..).thn | apply update
  all_goals first
    | decide
    | (intro q hq; cases q <;> first | exact absurd (by decide) hq | simp only [Part.same, and_self])
    | simp only [State.shaped, imp_self]

theorem forwardTimeout_touches (s : State) : Touches runParts s (forwardTimeout s) := by
  unfold forwardTimeout
  repeat' with_reducible first
    | (extract_lets +onlyGivenNames u; apply cut u; unfold u; clear u; rotate_left; clear_value u; intro hu; rotate_right)
    | (extract_lets +onlyGivenNames u; subst u) | assumption | exact .refl _ _ | apply (abortAfterStop_touches ..).thn
    | apply (boundary_touches ..).thn | apply (startAbort_touches ..).thn | split
  all_goals decide

theorem lockTimeout_touches (s : State) :
    Touches [.tick, .job, .code, .tier, .host, .integrity] s (lockTimeout s) := by
  unfold lockTimeout
  repeat' with_reducible first
    | (extract_lets +onlyGivenNames u; apply cut u; unfold u; clear u; rotate_left; clear_value u; intro hu; rotate_right)
    | (extract_lets +onlyGivenNames u; subst u) | assumption | exact .refl _ _ | apply (lockLost_touches ..).thn
    | apply (showLock_touches ..).thn | split | apply update
  all_goals first
    | decide
    | (intro q hq; cases q <;> first | exact absurd (by decide) hq | simp only [Part.same, and_self])
    | simp only [State.shaped, imp_self]

theorem setClock_touches (rate : Nat) (locked : Bool) (s : State) : Touches [.tick] s (setClock rate locked s) := by
  unfold setClock
  repeat' with_reducible first
    | (extract_lets +onlyGivenNames u; subst u) | exact .refl _ _ | apply update
  all_goals first
    | decide
    | (intro q hq; cases q <;> first | exact absurd (by decide) hq | simp only [Part.same, and_self])
    | simp only [State.shaped, List.length_set, imp_self]

theorem clockUnlock_touches (rate : Nat) (s : State) :
    Touches [.tick, .job, .code, .tier, .host, .integrity] s (clockUnlock rate s) := by
  unfold clockUnlock
  repeat' with_reducible first
    | (extract_lets +onlyGivenNames u; apply cut u; unfold u; clear u; rotate_left; clear_value u; intro hu; rotate_right) | assumption
    | exact .refl _ _ | apply (lockLost_touches ..).thn | apply (setClock_touches ..).thn
    | apply (showLock_touches ..).thn | split
  all_goals decide

theorem cutoff_touches (s : State) : Touches jobParts s (cutoff s) := by
  unfold cutoff
  repeat' with_reducible first
    | exact .refl _ _ | apply (enterSquall_touches ..).thn | apply (raiseAs_touches ..).thn | split
  all_goals decide

theorem commitDeadline_touches (s : State) : Touches jobParts s (commitDeadline s) := by
  unfold commitDeadline
  repeat' with_reducible first
    | exact .refl _ _ | apply (enterSquall_touches ..).thn | apply (raiseAs_touches ..).thn | split
  all_goals decide

theorem advanceFrames_touches (k : Nat) (s : State) : Touches [.frames] s (advanceFrames k s) := by
  unfold advanceFrames
  repeat' with_reducible first
    | (extract_lets +onlyGivenNames u; subst u) | assumption | exact .refl _ _ | split | apply update
  all_goals first
    | decide
    | (intro q hq; cases q <;> first | exact absurd (by decide) hq | simp only [Part.same, and_self])
    | simp only [State.shaped, imp_self]

theorem sendReady_touches (s : State) : Touches [.link] s (sendReady s) := by
  unfold sendReady
  repeat' with_reducible first
    | (extract_lets +onlyGivenNames u; apply cut u; unfold u; clear u; rotate_left; clear_value u; intro hu; rotate_right)
    | (extract_lets +onlyGivenNames u; subst u) | assumption | exact .refl _ _ | apply (sendTo_touches ..).thn
    | apply Touches.foldl; intro _ _ | split | apply update
  all_goals first
    | decide
    | (intro q hq; cases q <;> first | exact absurd (by decide) hq | simp only [Part.same, and_self])
    | simp only [State.shaped, imp_self]

theorem commitTick_touches (s : State) :
    Touches [.job, .frames, .mem, .tier, .media, .link, .host, .integrity] s (commitTick s) := by
  unfold commitTick
  repeat' with_reducible first
    | (extract_lets +onlyGivenNames u; apply cut u; unfold u; clear u; rotate_left; clear_value u; intro hu; rotate_right)
    | (extract_lets +onlyGivenNames u; subst u) | assumption | exact .refl _ _ | apply (advanceFrames_touches ..).thn
    | apply (commitPictures_touches ..).thn | apply (sendReady_touches ..).thn
    | apply (writeCheckpoint_touches ..).thn | split | apply update
  all_goals first
    | decide
    | (intro q hq; cases q <;> first | exact absurd (by decide) hq | simp only [Part.same, and_self])
    | simp only [State.shaped, imp_self]

theorem dropFrame_touches (number : Nat) (s : State) : Touches [.job, .frames] s (dropFrame number s) := by
  unfold dropFrame
  repeat' with_reducible first
    | (extract_lets +onlyGivenNames u; subst u) | exact .refl _ _ | apply update
  all_goals first
    | decide
    | (intro q hq; cases q <;> first | exact absurd (by decide) hq | simp only [Part.same, and_self])
    | simp only [State.shaped, imp_self]

theorem slotDone_touches (s : State) : Touches [.job] s (slotDone s) := by
  unfold slotDone
  repeat' with_reducible first
    | (extract_lets +onlyGivenNames u; subst u) | exact .refl _ _ | apply update
  all_goals first
    | decide
    | (intro q hq; cases q <;> first | exact absurd (by decide) hq | simp only [Part.same, and_self])
    | simp only [State.shaped, imp_self]

theorem deliver_touches (s : State) :
    Touches [.tick, .job, .frames, .code, .tier, .link, .host, .integrity] s (deliver s) := by
  unfold deliver
  repeat' with_reducible first
    | (extract_lets +onlyGivenNames u; apply cut u; unfold u; clear u; rotate_left; clear_value u; intro hu; rotate_right)
    | (extract_lets +onlyGivenNames u; subst u) | assumption | exact .refl _ _ | apply (dropFrame_touches ..).thn
    | apply (dueRecord_touches ..).thn | apply (slotDone_touches ..).thn | split | apply update
  all_goals decide

theorem drainEnd_touches (s : State) :
    Touches [.tick, .job, .frames, .progress, .engines, .tier, .media, .link, .integrity] s (drainEnd s) := by
  unfold drainEnd
  repeat' with_reducible first
    | (extract_lets +onlyGivenNames u; apply cut u; unfold u; clear u; rotate_left; clear_value u; intro hu; rotate_right)
    | (extract_lets +onlyGivenNames u; subst u) | assumption | exact .refl _ _ | apply (applyWatchEnd_touches ..).thn
    | apply (fillBuckets_touches ..).thn | apply (killCompute_touches ..).thn | apply (killMedia_touches ..).thn
    | apply (leaveJob_touches ..).thn | split | apply update
  all_goals first
    | decide
    | (intro q hq; cases q <;> first | exact absurd (by decide) hq | simp only [Part.same, and_self])
    | simp only [State.shaped, imp_self]

theorem finishRecovery_touches (q : Squall) (s : State) :
    Touches [.job, .code, .link, .host, .integrity] s (finishRecovery q s) := by
  unfold finishRecovery
  repeat' with_reducible first
    | (extract_lets +onlyGivenNames u; apply cut u; unfold u; clear u; rotate_left; clear_value u; intro hu; rotate_right)
    | (extract_lets +onlyGivenNames u; subst u) | assumption | exact .refl _ _ | apply (raise_touches ..).thn
    | apply (reportNewest_touches ..).thn | apply update
  all_goals first
    | decide
    | (intro q hq; cases q <;> first | exact absurd (by decide) hq | simp only [Part.same, and_self])
    | simp only [State.shaped, imp_self]

theorem restoreFor_touches (q : Squall) (s : State) : Touches jobParts s (restoreFor q s) := by
  unfold restoreFor
  split
  · split
    next t h => exact .via (finishRecovery_touches ..) ((restoreCheckpoint_touches h).mono)
    · exact .via (stopJob_touches ..) ((raise_touches ..).mono)
  · exact (finishRecovery_touches ..).mono

theorem recoveryComplete_touches (selfTestOk : Bool) (tablesOk : Bool) (s : State) :
    Touches [.tick, .job, .frames, .code, .banks, .progress, .engines, .mem, .tier, .media, .link, .host, .dawn,
      .faults, .integrity, .pins]
      s (recoveryComplete selfTestOk tablesOk s) := by
  unfold recoveryComplete
  repeat' with_reducible first
    | (extract_lets +onlyGivenNames u; apply cut u; unfold u; clear u; rotate_left; clear_value u; intro hu; rotate_right) | assumption
    | exact .refl _ _ | apply (checkPlanRegions_touches ..).thn | apply (classify_touches ..).thn
    | apply (loadBank_touches ..).thn | apply (restoreFor_touches ..).thn | split | apply update
  all_goals decide

theorem recoveryTimeout_touches (s : State) : Touches jobParts s (recoveryTimeout s) := by
  unfold recoveryTimeout
  repeat' with_reducible first
    | exact .refl _ _ | apply (duskStop_touches ..).thn | apply (raise_touches ..).thn | split | apply update
  all_goals decide

theorem sample_touches (r : Readings) (s : State) : Touches [.nimbus] s (sample r s) :=
  setNimbus_touches s _ _

theorem updateValve_touches (s : State) : Touches [.nimbus] s (updateValve s) :=
  setNimbus_touches s _ _

theorem safetyDusk_touches (code : Nat) (s : State) :
    Touches [.tick, .job, .code, .tier, .link, .host, .integrity, .nimbus, .stratus] s (safetyDusk code s) := by
  unfold safetyDusk
  repeat' with_reducible first
    | (extract_lets +onlyGivenNames u; apply cut u; unfold u; clear u; rotate_left; clear_value u; intro hu; rotate_right)
    | (extract_lets +onlyGivenNames u; subst u) | assumption | exact .refl _ _ | apply (causeDusk_touches ..).thn
    | apply (raiseAs_touches ..).thn | split | apply update
  all_goals first
    | decide
    | (intro q hq; cases q <;> first | exact absurd (by decide) hq | simp only [Part.same, and_self])
    | simp only [State.shaped, imp_self]

theorem powerOff_touches (s : State) : Touches offParts s (powerOff s) := by
  unfold powerOff
  refine update ((coldReset_touches s).mono) ?_ ?_
  · rintro ⟨-, -, -, rest⟩
    exact ⟨rfl, rfl, rfl, rest⟩
  · intro q hq; cases q <;> first | exact absurd (by decide) hq | simp only [Part.same]

theorem evaluatePower_touches (s : State) : Touches offParts s (evaluatePower s) := by
  unfold evaluatePower
  repeat' with_reducible first
    | (extract_lets +onlyGivenNames u; subst u) | assumption | exact .refl _ _ | apply (coldReset_touches ..).thn
    | split | apply update
  all_goals first
    | decide
    | (intro q hq; cases q <;> first | exact absurd (by decide) hq | simp only [Part.same])
    | simp only [State.shaped, imp_self]

theorem removePower_touches (s : State) : Touches offParts s (removePower s) := by
  unfold removePower
  repeat' with_reducible first
    | (extract_lets +onlyGivenNames u; apply cut u; unfold u; clear u; rotate_left; clear_value u; intro hu; rotate_right)
    | (extract_lets +onlyGivenNames u; subst u) | assumption | exact .refl _ _ | apply (powerOff_touches ..).thn
    | split | apply update
  all_goals first
    | decide
    | (intro q hq; cases q <;> first | exact absurd (by decide) hq | simp only [Part.same])
    | simp only [State.shaped, imp_self]

theorem recordTrip_touches (code : Nat) (s : State) : Touches [.stratus] s (recordTrip code s) := by
  unfold recordTrip
  repeat' with_reducible first
    | (extract_lets +onlyGivenNames u; subst u) | exact .refl _ _ | apply update
  all_goals first
    | decide
    | (intro q hq; cases q <;> first | exact absurd (by decide) hq | simp only [Part.same, and_self])
    | simp only [State.shaped, imp_self]

theorem trip_touches (code : Nat) (opensSwitch : Bool) (s : State) :
    Touches offParts s (trip code opensSwitch s) := by
  unfold trip
  repeat' with_reducible first
    | (extract_lets +onlyGivenNames u; apply cut u; unfold u; clear u; rotate_left; clear_value u; intro hu; rotate_right)
    | (extract_lets +onlyGivenNames u; subst u) | assumption | exact .refl _ _ | apply (powerOff_touches ..).thn
    | apply (recordTrip_touches ..).thn | apply update
  all_goals first
    | decide
    | (intro q hq; cases q <;> first | exact absurd (by decide) hq | simp only [Part.same])
    | simp only [State.shaped, imp_self]

theorem writeBoot_touches (r : BootRecord) (s : State) : Touches [.flash] s (writeBoot r s) := by
  unfold writeBoot
  repeat' with_reducible first
    | (extract_lets +onlyGivenNames u; subst u) | assumption | exact .refl _ _ | split | apply update
  all_goals first
    | decide
    | (intro q hq; cases q <;> first | exact absurd (by decide) hq | simp only [Part.same, and_self])
    | simp only [State.shaped, imp_self]

theorem State.setRun_touches (r : Run) (s : State) : Touches [.engines] s (State.setRun s r) := by
  unfold State.setRun
  repeat' with_reducible first
    | (extract_lets +onlyGivenNames u; subst u) | exact .refl _ _ | split | apply update
  all_goals first
    | decide
    | (intro q hq; cases q <;> first | exact absurd (by decide) hq | simp only [Part.same, and_self])
    | simp only [State.shaped, imp_self]

theorem dropGuests_touches (core : Nat) (place : Nat) (s : State) :
    Touches [.engines] s (dropGuests core place s) := by
  unfold dropGuests
  repeat' with_reducible first
    | (extract_lets +onlyGivenNames u; subst u) | exact .refl _ _ | split | apply update
  all_goals first
    | decide
    | (intro q hq; cases q <;> first | exact absurd (by decide) hq | simp only [Part.same, and_self])
    | simp only [State.shaped, List.length_map, imp_self]

theorem killRun_touches (r : Run) (s : State) : Touches [.engines] s (killRun r s) := by
  unfold killRun
  repeat' with_reducible first
    | (extract_lets +onlyGivenNames u; subst u) | exact .refl _ _ | apply (dropGuests_touches ..).thn | split
    | apply update
  all_goals first
    | decide
    | (intro q hq; cases q <;> first | exact absurd (by decide) hq | simp only [Part.same, and_self])
    | simp only [State.shaped, List.length_map, imp_self]

theorem levelOne_touches (r : Run) (s : State) : Touches jobParts s (levelOne r s) := by
  unfold levelOne
  repeat' with_reducible first
    | (extract_lets +onlyGivenNames u; subst u) | exact .refl _ _ | apply (countKind_touches ..).thn
    | apply (enterSquall_touches ..).thn | apply (killRun_touches ..).thn | apply (raiseAs_touches ..).thn
    | apply (startAbort_touches ..).thn | split | apply update
  all_goals first
    | decide
    | (intro q hq; cases q <;> first | exact absurd (by decide) hq | simp only [Part.same, and_self])
    | simp only [State.shaped, imp_self]

theorem poison_touches (addr : Nat) (s : State) : Touches [.tier, .integrity] s (poison addr s) := by
  unfold poison
  repeat' with_reducible first
    | (extract_lets +onlyGivenNames u; apply cut u; unfold u; clear u; rotate_left; clear_value u; intro hu; rotate_right)
    | (extract_lets +onlyGivenNames u; subst u) | assumption | exact .refl _ _ | apply (setStatus_touches ..).thn
    | split | apply update
  all_goals first
    | decide
    | (intro q hq; cases q <;> first | exact absurd (by decide) hq | simp only [Part.same, and_self])
    | simp only [State.shaped, imp_self]

theorem levelTwo_touches (code : Nat) (unit : BitVec 32) (site : BitVec 32) (die : Option Nat) (arg : Nat) (s : State) :
    Touches faultParts s (levelTwo code unit site die arg s) := by
  unfold levelTwo
  repeat' with_reducible first
    | exact .refl _ _ | apply (countError_touches ..).thn | apply (enterSquall_touches ..).thn
  all_goals decide

theorem bridgeFault_touches (s : State) : Touches verdictParts s (bridgeFault s) :=
  .via (classify_touches ..) (.via (enterHistory_touches ..) ((State.free_touches s).mono))

theorem levelThree_touches (code : Nat) (unit : BitVec 32) (s : State) :
    Touches coldParts s (levelThree code unit s) := by
  unfold levelThree
  repeat' with_reducible first
    | exact .refl _ _ | apply (countError_touches ..).thn | apply (forceModuleReset_touches ..).thn | split
  all_goals decide

theorem beginReset_touches (p : Nat) (s : State) :
    Touches [.frames, .mem, .tier, .media, .host, .integrity, .pins] s (beginReset p s) := by
  unfold beginReset
  repeat' with_reducible first
    | (extract_lets +onlyGivenNames u; apply cut u; unfold u; clear u; rotate_left; clear_value u; intro hu; rotate_right)
    | (extract_lets +onlyGivenNames u; subst u) | assumption | exact .refl _ _ | apply (assertFault_touches ..).thn
    | apply (fillPartition_touches ..).thn | apply (resetMedia_touches ..).thn | apply (resetTier_touches ..).thn
    | split | apply update
  all_goals first
    | decide
    | (intro q hq; cases q <;> first | exact absurd (by decide) hq | simp only [Part.same, and_self])
    | simp only [State.shaped, imp_self]

theorem endReset_touches (p : Nat) (s : State) :
    Touches [.job, .code, .tier, .media, .host, .integrity, .pins] s (endReset p s) := by
  unfold endReset
  repeat' with_reducible first
    | (extract_lets +onlyGivenNames u; apply cut u; unfold u; clear u; rotate_left; clear_value u; intro hu; rotate_right)
    | (extract_lets +onlyGivenNames u; subst u) | assumption | exact .refl _ _ | apply (drainAll_touches ..).thn
    | apply (fillPartition_touches ..).thn | apply (raise_touches ..).thn | apply (releaseFault_touches ..).thn
    | apply (stopComplete_touches ..).thn | split | apply update
  all_goals first
    | decide
    | (intro q hq; cases q <;> first | exact absurd (by decide) hq | simp only [Part.same, and_self])
    | simp only [State.shaped, imp_self]

theorem endComputeReset_touches (s : State) : Touches jobParts s (endComputeReset s) := by
  unfold endComputeReset
  repeat' with_reducible first
    | (extract_lets +onlyGivenNames u; apply cut u; unfold u; clear u; rotate_left; clear_value u; intro hu; rotate_right)
    | (extract_lets +onlyGivenNames u; subst u) | assumption | exact .refl _ _ | apply (fillPartition_touches ..).thn
    | apply (releaseFault_touches ..).thn | apply (reportNewest_touches ..).thn | apply (requestStop_touches ..).thn
    | split | apply update
  all_goals first
    | decide
    | (intro q hq; cases q <;> first | exact absurd (by decide) hq | simp only [Part.same, and_self])
    | simp only [State.shaped, imp_self]

theorem historyWrite_touches (ok : Bool) (s : State) :
    Touches [.code, .host, .flash, .integrity] s (historyWrite ok s) := by
  have page (n : Nat) (f : Flash) (u : IntegrityState) (h : u.entries = s.integrity.entries
    ∧ u.permanent = s.integrity.permanent
      ∧ u.permUnit = s.integrity.permUnit ∧ u.rule = s.integrity.rule ∧ u.lastCode = s.integrity.lastCode) :
      Touches [.code, .host, .flash, .integrity] s { s with freeCtr := n, flash := f, integrity := u } := by
    obtain ⟨entries, permanent, unit, rule, code⟩ := h
    exact update (refl ..) id (by
      intro q hq; cases q <;> first | exact absurd (by decide) hq | simp only [Part.same, and_self, *])
  unfold historyWrite
  extract_lets
  repeat' split
  · exact .via (countKind_touches ..) (page _ _ _ ⟨rfl, rfl, rfl, rfl, rfl⟩)
  · exact .via (raise_touches ..) (page _ _ _ ⟨rfl, rfl, rfl, rfl, rfl⟩)
  · exact refl ..

theorem pickup_touches (s : State) : Touches [.host] s (pickup s) := by
  unfold pickup
  repeat' with_reducible first
    | (extract_lets +onlyGivenNames u; apply cut u; unfold u; clear u; rotate_left; clear_value u; intro hu; rotate_right)
    | (extract_lets +onlyGivenNames u; subst u) | assumption | exact .refl _ _ | apply (State.publish_touches ..).thn
    | apply (State.setRing_touches ..).thn | apply update
  all_goals first
    | decide
    | (intro q hq; cases q <;> first | exact absurd (by decide) hq | simp only [Part.same, and_self])
    | simp only [State.shaped, imp_self]

theorem noteRefusal_touches (op : Nat) (c : Nat) (s : State) : Touches [.code] s (noteRefusal op c s) := by
  unfold noteRefusal
  repeat' with_reducible first
    | (extract_lets +onlyGivenNames u; subst u) | exact .refl _ _ | split | apply update
  all_goals first
    | decide
    | (intro q hq; cases q <;> first | exact absurd (by decide) hq | simp only [Part.same, and_self])
    | simp only [State.shaped, imp_self]

theorem serve_touches {ps : List Part} (op : Nat) (req : Bytes) (checks : List (Bool × Nat)) (work : State → State)
    (s : State) (hwork : ∀ u, Touches ps u (work u)) (hps : [.code, .host] ⊆ ps := by decide) :
    Touches ps s (serve op req checks work s) := by
  have hpickup : Touches ps s (pickup s) :=
    (pickup_touches s).mono (List.Subset.trans (by decide : [Part.host] ⊆ [Part.code, .host]) hps)
  unfold serve
  split
  · simp only []
    have refuse (c : Nat) : Touches [.code, .host] (pickup s) (respond req c [] (noteRefusal op c (pickup s))) :=
      .via (respond_touches ..) ((noteRefusal_touches ..).mono)
    split
    · exact (refuse _).via hpickup hps
    · exact (hwork _).via hpickup (fun _ h => h)
  · exact refl ..

theorem readRequest_touches (off n : Nat) (s : State) : Touches [] s (readRequest off n s).2 := by
  unfold readRequest
  split
  · exact State.freeBytes_touches ..
  · exact refl ..

theorem storeWrite_touches (req : Bytes) (s : State) : Touches [.code, .mem, .host] s (storeWrite req s) :=
  serve_touches _ _ _ _ _ fun _ =>
    .via (respond_touches ..) (.via (State.writeMem_touches ..) ((readRequest_touches ..).mono))

theorem selfTestWindow_touches (restore : FunctionBank → FunctionBank) (w : WindowInput) (s : State) :
    Touches [.code, .banks, .host] s (selfTestWindow restore w s).2.2 := by
  simp only [selfTestWindow]
  split
  · exact loadBank_touches ..
  · exact .via (loadBank_touches ..) (loadBank_touches ..)

theorem failUnit_touches (u : Option (BitVec 32)) (s : State) : Touches verdictParts s (failUnit u s) := by
  unfold failUnit
  repeat' with_reducible first
    | exact .refl _ _ | apply (classify_touches ..).thn | split | apply update
  all_goals decide

theorem tableLoad_touches (req : Bytes) (window : WindowInput) (s : State) :
    Touches (.banks :: verdictParts) s (tableLoad req window s) := by
  unfold tableLoad
  extract_lets i
  refine serve_touches _ _ _ _ _ fun u => ?_
  exact .via (failUnit_touches ..) (.via (respond_touches ..) ((selfTestWindow_touches ..).mono))

theorem selfTest_touches (req : Bytes) (window : WindowInput) (s : State) :
    Touches (.banks :: verdictParts) s (selfTest req window s) := by
  unfold selfTest
  refine serve_touches _ _ _ _ _ fun u => ?_
  exact .via (failUnit_touches ..) (.via (respond_touches ..) ((selfTestWindow_touches ..).mono))

theorem attest_touches (req : Bytes) (s : State) : Touches [.code, .mem, .host] s (attest req s) := by
  unfold attest
  extract_lets off
  refine serve_touches _ _ _ _ _ fun u => ?_
  exact .via (respond_touches ..) (.via (State.writeExchange_touches ..) ((State.free_touches u).mono))

theorem counterFailure_touches (s : State) : Touches eclipseParts s (counterFailure s) := by
  unfold counterFailure
  repeat' with_reducible first
    | exact .refl _ _ | apply (eclipseState_touches ..).thn | apply (raiseAs_touches ..).thn
  all_goals decide

theorem programSlot_touches (req : Bytes) (kind : Nat) (img : Bytes) (flashOk : Bool) (s : State) :
    Touches [.host, .flash] s (programSlot req kind img flashOk s) := by
  unfold programSlot
  repeat' with_reducible first
    | (extract_lets +onlyGivenNames u; apply cut u; unfold u; clear u; rotate_left; clear_value u; intro hu; rotate_right)
    | (extract_lets +onlyGivenNames u; subst u) | assumption | exact .refl _ _
    | apply (State.freeBytes_touches ..).thn | apply (putSlot_touches ..).thn | apply (respond_touches ..).thn
    | apply (writeBoot_touches ..).thn | split | apply update
  all_goals first
    | decide
    | (intro q hq; cases q <;> first | exact absurd (by decide) hq | simp only [Part.same, and_self])
    | simp only [State.shaped, imp_self]

theorem stageImage_touches (req : Bytes) (flashOk authOk : Bool) (s : State) :
    Touches (.flash :: eclipseParts) s (stageImage req flashOk authOk s) := by
  unfold stageImage
  extract_lets kind off n
  refine serve_touches (ps := .flash :: eclipseParts) _ _ _ _ _ fun u => ?_
  have read : Touches (.flash :: eclipseParts) u (readRequest off n u).2 := (readRequest_touches ..).mono
  extract_lets
  repeat' split
  · exact .via (counterFailure_touches _) (.via (respond_touches ..) read)
  · exact .via (respond_touches ..) read
  · exact .via (respond_touches ..) read
  · exact .via (programSlot_touches ..) read

theorem telemetry_touches (req : Bytes) (s : State) : Touches [.code, .mem, .host] s (telemetry req s) := by
  unfold telemetry
  extract_lets off
  refine serve_touches _ _ _ _ _ fun _ => ?_
  exact .via (respond_touches ..) ((State.writeExchange_touches ..).mono)

theorem historyRead_touches (req : Bytes) (s : State) : Touches [.code, .mem, .host] s (historyRead req s) := by
  unfold historyRead
  extract_lets off
  refine serve_touches _ _ _ _ _ fun _ => ?_
  exact .via (respond_touches ..) ((State.writeExchange_touches ..).mono)

theorem moduleReset_touches (req : Bytes) (s : State) : Touches coldParts s (moduleReset req s) :=
  serve_touches _ _ _ _ _ fun _ => .via (coldReset_touches _) ((respond_touches ..).mono)

theorem tierRequest_touches (c : Bytes) (ix : Int) (due : Nat) (s : State) :
    Touches [.code, .host] s (tierRequest c ix due s).2 := by
  unfold tierRequest
  extract_lets first
  split
  · exact refl ..
  · exact raise_touches ..

theorem earlyRequests_touches (s : State) : Touches [.code, .tier, .host] s (earlyRequests s) :=
  .foldl (fun _ _ => .foldl (fun u _ =>
    .via (addRequest_touches ..) (.via (tierRequest_touches ..) ((State.free_touches u).mono))) (refl ..)) (refl ..)

theorem armFields_touches (req : Bytes) (s : State) : Touches [.tick, .job, .frames, .code] s (armFields req s) := by
  unfold armFields
  repeat' with_reducible first
    | (extract_lets +onlyGivenNames u; subst u) | assumption | exact .refl _ _ | split | apply update
  all_goals first
    | decide
    | (intro q hq; cases q <;> first | exact absurd (by decide) hq | simp only [Part.same, and_self])
    | simp only [State.shaped, imp_self]

theorem armEngines_touches (rates : List (Nat × Nat × Nat)) (table : Bytes) (s : State) :
    Touches [.tier, .link, .integrity] s (armEngines rates table s) := by
  unfold armEngines
  repeat' with_reducible first
    | (extract_lets +onlyGivenNames u; subst u) | assumption | exact .refl _ _ | apply update
  all_goals first
    | decide
    | (intro q hq; cases q <;> first | exact absurd (by decide) hq | simp only [Part.same, and_self])
    | simp only [State.shaped, imp_self]

theorem armTable_touches (req : Bytes) (s : State) : Touches [] s (armTable req s).2 := by
  unfold armTable
  split
  · exact readRequest_touches ..
  · exact refl ..

theorem armJob_touches (req : Bytes) (s : State) :
    Touches [.tick, .job, .frames, .code, .progress, .engines, .tier, .media, .link, .host, .integrity]
      s (armJob req s) := by
  unfold armJob
  repeat' with_reducible first
    | (extract_lets +onlyGivenNames u; apply cut u; unfold u; clear u; rotate_left; clear_value u; intro hu; rotate_right)
    | (extract_lets +onlyGivenNames u; subst u) | assumption | exact .refl _ _ | apply (armEngines_touches ..).thn
    | apply (armFields_touches ..).thn | apply (armTable_touches ..).thn | apply (dropConditioning_touches ..).thn
    | apply (killCompute_touches ..).thn | apply (releaseHeld_touches ..).thn | apply (startMedia_touches ..).thn
    | split
  all_goals decide

theorem restoreRetained_touches {req : Bytes} {s t : State} (h : restoreRetained req s = some t) :
    Touches [.job, .code, .mem, .host] s t := by
  unfold restoreRetained at h
  split at h
  · exact restoreFrom_touches h
  · cases h
    exact refl ..

theorem resumeLost_touches (req : Bytes) (ckpt : Nat) (s : State) :
    Touches [.tick, .job, .code, .tier, .host, .integrity] s (resumeLost req ckpt s) := by
  unfold resumeLost
  repeat' with_reducible first
    | (extract_lets +onlyGivenNames u; apply cut u; unfold u; clear u; rotate_left; clear_value u; intro hu; rotate_right)
    | (extract_lets +onlyGivenNames u; subst u) | assumption | exact .refl _ _
    | apply (dropConditioning_touches ..).thn | apply (leaveArmed_touches ..).thn | apply (noteRefusal_touches ..).thn
    | apply (raise_touches ..).thn | apply (respond_touches ..).thn | apply update
  all_goals first
    | decide
    | (intro q hq; cases q <;> first | exact absurd (by decide) hq | simp only [Part.same, and_self])
    | simp only [State.shaped, imp_self]

theorem placeStart_touches (req : Bytes) (t0 shown : Time) (s : State) :
    Touches [.tick, .job, .frames, .code, .progress, .engines, .mem, .tier, .media, .link, .host, .integrity] s
      (placeStart req t0 shown s) := by
  unfold placeStart
  split
  · exact .via (resumeLost_touches ..) ((armJob_touches ..).mono)
  next t h =>
    refine .via (respond_touches ..) (.via (earlyRequests_touches _) (update ((restoreRetained_touches h).via
      ((armJob_touches ..).mono)) ?_ ?_))
    · simp only [State.shaped, imp_self]
    · intro q hq; cases q <;> first | exact absurd (by decide) hq | simp only [Part.same, and_self]

theorem chooseStart_touches (req : Bytes) (s : State) :
    Touches [.tick, .job, .frames, .code, .progress, .engines, .mem, .tier, .media, .link, .host, .integrity]
      s (chooseStart req s) := by
  unfold chooseStart
  repeat' with_reducible first
    | (extract_lets +onlyGivenNames u; subst u) | assumption | exact .refl _ _ | apply (placeStart_touches ..).thn
  all_goals decide

theorem refuseStart_touches (req : Bytes) (code : Nat) (s : State) :
    Touches [.job, .host] s (refuseStart req code s) := by
  unfold refuseStart
  repeat' with_reducible first
    | (extract_lets +onlyGivenNames u; subst u) | exact .refl _ _ | apply (respond_touches ..).thn | apply update
  all_goals first
    | decide
    | (intro q hq; cases q <;> first | exact absurd (by decide) hq | simp only [Part.same, and_self])
    | simp only [State.shaped, imp_self]

theorem startLoaded_touches (req : Bytes) (s : State) :
    Touches [.tick, .job, .frames, .code, .progress, .engines, .mem, .tier, .media, .link, .host, .integrity]
      s (startLoaded req s) := by
  unfold startLoaded
  repeat' with_reducible first
    | (extract_lets +onlyGivenNames u; apply cut u; unfold u; clear u; rotate_left; clear_value u; intro hu; rotate_right)
    | (extract_lets +onlyGivenNames u; subst u) | assumption | exact .refl _ _ | apply (chooseStart_touches ..).thn
    | apply (reportToHead_touches ..).thn | split | apply update
  all_goals first
    | decide
    | (intro q hq; cases q <;> first | exact absurd (by decide) hq | simp only [Part.same, and_self])
    | simp only [State.shaped, imp_self]

theorem startJob_touches (req : Bytes) (window : WindowInput) (carried : Bytes) (s : State) :
    Touches [.tick, .job, .frames, .code, .banks, .progress, .engines, .mem, .tier, .media, .link, .host, .dawn,
      .faults, .integrity, .pins]
      s (startJob req window carried s) := by
  unfold startJob
  repeat' with_reducible first
    | (extract_lets +onlyGivenNames u; apply cut u; unfold u; clear u; rotate_left; clear_value u; intro hu; rotate_right)
    | (extract_lets +onlyGivenNames u; subst u) | assumption | exact .refl _ _ | apply (classify_touches ..).thn
    | apply (noteRefusal_touches ..).thn | apply (respond_touches ..).thn | apply (selfTestWindow_touches ..).thn
    | apply (startLoaded_touches ..).thn | apply (takeCheckpoint_touches ..).thn | split | apply update
  all_goals decide

theorem forwardStart_touches (req : Bytes) (t0 : Nat) (s : State) : Touches [.link] s (forwardStart req t0 s) := by
  unfold forwardStart
  repeat' with_reducible first
    | exact .refl _ _ | apply (sendBothWays_touches ..).thn
  all_goals decide

theorem ringDecision_touches (digests : List Bytes) (s : State) :
    Touches [.tick, .job, .frames, .code, .progress, .engines, .mem, .tier, .media, .link, .host, .integrity]
      s (ringDecision digests s) := by
  unfold ringDecision
  repeat' with_reducible first
    | (extract_lets +onlyGivenNames u; subst u) | assumption | exact .refl _ _ | apply (chooseStart_touches ..).thn
    | apply (forwardStart_touches ..).thn | apply (refuseStart_touches ..).thn | split | apply update
  all_goals first
    | decide
    | (intro q hq; cases q <;> first | exact absurd (by decide) hq | simp only [Part.same, and_self])
    | simp only [State.shaped, imp_self]

theorem forwardRequest_touches (req : Bytes) (s : State) : Touches [.link] s (forwardRequest req s) := by
  unfold forwardRequest
  repeat' with_reducible first
    | exact .refl _ _ | apply (sendBothWays_touches ..).thn | split
  all_goals decide

theorem noteEnd_touches (s : State) : Touches [.job] s (noteEnd s) := by
  unfold noteEnd
  repeat' with_reducible first
    | (extract_lets +onlyGivenNames u; subst u) | exact .refl _ _ | apply update
  all_goals first
    | decide
    | (intro q hq; cases q <;> first | exact absurd (by decide) hq | simp only [Part.same, and_self])
    | simp only [State.shaped, imp_self]

theorem applyStop_touches (reason : GapReason) (s : State) : Touches jobParts s (applyStop reason s) := by
  unfold applyStop
  repeat' with_reducible first
    | (extract_lets +onlyGivenNames u; apply cut u; unfold u; clear u; rotate_left; clear_value u; intro hu; rotate_right)
    | (extract_lets +onlyGivenNames u; subst u) | assumption | exact .refl _ _ | apply (leaveArmed_touches ..).thn
    | apply (raise_touches ..).thn | apply (requestStop_touches ..).thn | split | apply update
  all_goals first
    | decide
    | (intro q hq; cases q <;> first | exact absurd (by decide) hq | simp only [Part.same, and_self])
    | simp only [State.shaped, imp_self]

theorem noteKeys_touches (mask : Nat) (s : State) : Touches [.job] s (noteKeys mask s) := by
  unfold noteKeys
  repeat' with_reducible first
    | (extract_lets +onlyGivenNames u; subst u) | exact .refl _ _ | apply update
  all_goals first
    | decide
    | (intro q hq; cases q <;> first | exact absurd (by decide) hq | simp only [Part.same, and_self])
    | simp only [State.shaped, imp_self]

theorem noteSplit_touches (forced : Bool) (s : State) : Touches [.job] s (noteSplit forced s) := by
  unfold noteSplit
  repeat' with_reducible first
    | (extract_lets +onlyGivenNames u; subst u) | exact .refl _ _ | apply update
  all_goals first
    | decide
    | (intro q hq; cases q <;> first | exact absurd (by decide) hq | simp only [Part.same, and_self])
    | simp only [State.shaped, imp_self]

theorem takeRecord_touches (s : State) : Touches [.host] s (takeRecord s) := by
  unfold takeRecord
  repeat' with_reducible first
    | (extract_lets +onlyGivenNames u; apply cut u; unfold u; clear u; rotate_left; clear_value u; intro hu; rotate_right)
    | (extract_lets +onlyGivenNames u; subst u) | assumption | exact .refl _ _ | apply (State.publish_touches ..).thn
    | apply (State.setRing_touches ..).thn | apply update
  all_goals first
    | decide
    | (intro q hq; cases q <;> first | exact absurd (by decide) hq | simp only [Part.same, and_self])
    | simp only [State.shaped, imp_self]

theorem inputRecord_touches (r : Bytes) (payloads : List (Option Bytes)) (s : State) :
    Touches [.code, .host] s (inputRecord r payloads s) := by
  unfold inputRecord
  repeat' with_reducible first
    | (extract_lets +onlyGivenNames u; apply cut u; unfold u; clear u; rotate_left; clear_value u; intro hu; rotate_right)
    | (extract_lets +onlyGivenNames u; subst u) | assumption | exact .refl _ _ | apply (raise_touches ..).thn
    | apply (takeRecord_touches ..).thn | split | apply update
  all_goals first
    | decide
    | (intro q hq; cases q <;> first | exact absurd (by decide) hq | simp only [Part.same, and_self])
    | simp only [State.shaped, imp_self]

theorem writePointer_touches {ps : List Part} (n value : Nat) (after : State → State) (s : State)
    (hafter : ∀ u, Touches ps u (after u)) (hps : [.code, .host] ⊆ ps := by decide) :
    Touches ps s (writePointer n value after s) := by
  unfold writePointer
  simp only []
  repeat' split
  · exact refl ..
  · exact (raise_touches ..).mono hps
  · exact (raise_touches ..).mono hps
  · exact (hafter _).via ((State.setRing_touches ..).mono (List.Subset.trans
    (by decide : [Part.host] ⊆ [Part.code, .host]) hps))
      (fun _ h => h)

theorem afterRoom_touches (s : State) : Touches [.job, .code, .tier, .host] s (afterRoom s) := by
  unfold afterRoom
  repeat' with_reducible first
    | exact .refl _ _ | apply (drainAll_touches ..).thn | apply (stopComplete_touches ..).thn
  all_goals decide

theorem setHost_touches (s : State) (x : HostState)
    (h : x.rings.length = s.host.rings.length ∧ x.msixDue.length = s.host.msixDue.length
      ∧ x.msixLast.length = s.host.msixLast.length) : Touches [.host] s { s with host := x } := by
  obtain ⟨rings, due, last⟩ := h
  refine update (refl ..) ?_ ?_
  · simp only [State.shaped, rings, due, last, imp_self]
  · intro q hq; cases q <;> first | exact absurd (by decide) hq | simp only [Part.same, and_self]

theorem arriveRecords_touches (s : State) : Touches [.host] s (arriveRecords s) :=
  setHost_touches _ _ ⟨rfl, rfl, rfl⟩

theorem enableRing_touches (n : Nat) (s : State) : Touches [.job, .code, .tier, .host] s (enableRing n s) := by
  unfold enableRing
  repeat' with_reducible first
    | (extract_lets +onlyGivenNames u; apply cut u; unfold u; clear u; rotate_left; clear_value u; intro hu; rotate_right)
    | (extract_lets +onlyGivenNames u; subst u) | assumption | exact .refl _ _ | apply (State.publish_touches ..).thn
    | apply (State.setRing_touches ..).thn | apply (afterRoom_touches ..).thn | apply (raise_touches ..).thn | split
    | apply update
  all_goals first
    | decide
    | (intro q hq; cases q <;> first | exact absurd (by decide) hq | simp only [Part.same, and_self])
    | simp only [State.shaped, imp_self]

theorem disableRing_touches (n : Nat) (s : State) : Touches [.code, .host] s (disableRing n s) := by
  unfold disableRing
  repeat' with_reducible first
    | (extract_lets +onlyGivenNames u; apply cut u; unfold u; clear u; rotate_left; clear_value u; intro hu; rotate_right)
    | (extract_lets +onlyGivenNames u; subst u) | assumption | exact .refl _ _ | apply (State.setRing_touches ..).thn
    | apply (raise_touches ..).thn | split | apply update
  all_goals first
    | decide
    | (intro q hq; cases q <;> first | exact absurd (by decide) hq | simp only [Part.same, and_self])
    | simp only [State.shaped, imp_self]

theorem complete_touches (c : Completion) (data : Bytes) (s : State) : Touches [.host] s (complete c data s) := by
  unfold complete
  repeat' with_reducible first
    | (extract_lets +onlyGivenNames u; subst u) | exact .refl _ _ | apply update
  all_goals first
    | decide
    | (intro q hq; cases q <;> first | exact absurd (by decide) hq | simp only [Part.same, and_self])
    | simp only [State.shaped, imp_self]

theorem readThrough_touches {ps : List Part} (f : State → Bytes × State) (s : State) (hf : ∀ u, Touches ps u (f u).2)
    (hps : [.host] ⊆ ps := by decide) : Touches ps s (readThrough f s) := by
  unfold readThrough
  split
  · exact (complete_touches ..).via (hf s) hps
  · exact (complete_touches ..).mono hps

theorem readLow_touches (off value : Nat) (s : State) : Touches [.host] s (readLow off value s).2 :=
  update (refl ..) id (by intro q hq; cases q <;> first | exact absurd (by decide) hq | simp only [Part.same, and_self])

theorem readHigh_touches (off value : Nat) (s : State) : Touches [.host] s (readHigh off value s).2 :=
  update (refl ..) id (by intro q hq; cases q <;> first | exact absurd (by decide) hq | simp only [Part.same, and_self])

theorem readErrWord_touches (n w : Nat) (s : State) : Touches [.host] s (readErrWord n w s).2 := by
  have latch (l : List (Nat × Bytes)) : Touches [.host] s { s with host := { s.host with errLatch := l } } :=
    update (refl ..) id (by
      intro q hq; cases q <;> first | exact absurd (by decide) hq | simp only [Part.same, and_self])
  unfold readErrWord
  dsimp only
  split
  · exact latch _
  · dsimp only
    split
    · exact latch _
    · exact refl ..

theorem readBarWord_touches (off : Nat) (s : State) : Touches [.host] s (readBarWord off s).2 := by
  unfold readBarWord
  repeat' split
  all_goals with_reducible first
    | exact .refl _ _ | exact readErrWord_touches .. | exact readLow_touches .. | exact readHigh_touches ..

theorem readBar0_touches (off size : Nat) (s : State) : Touches [.host] s (readBar0 off size s).2 := by
  simp only [readBar0]
  split
  · exact readBarWord_touches ..
  · split
    · exact update (refl ..) id (by
        intro q hq; cases q <;> first | exact absurd (by decide) hq | simp only [Part.same, and_self])
    · exact .via (readBarWord_touches ..) (readBarWord_touches ..)

theorem badAccess_touches (off : Nat) (size : Nat) (write : Bool) (s : State) :
    Touches [.code, .host] s (badAccess off size write s) := by
  unfold badAccess
  repeat' split
  · exact raise_touches ..
  · exact refl ..
  · exact .via (raise_touches ..) ((complete_touches ..).mono)
  · exact readThrough_touches _ _ fun _ => refl ..

theorem writeTable_touches (off : Nat) (data : Bytes) (s : State) : Touches [.host] s (writeTable off data s) := by
  unfold writeTable
  repeat' with_reducible first
    | (extract_lets +onlyGivenNames u; subst u) | assumption | exact .refl _ _ | apply Touches.foldl; intro _ _
    | split | apply update
  all_goals first
    | decide
    | (intro q hq; cases q <;> first | exact absurd (by decide) hq | simp only [Part.same, and_self])
    | simp only [State.shaped, imp_self]

theorem writeWindow_touches (off : Nat) (data : Bytes) (s : State) :
    Touches [.mem, .host] s (writeWindow off data s) := by
  unfold writeWindow
  repeat' with_reducible first
    | (extract_lets +onlyGivenNames u; apply cut u; unfold u; clear u; rotate_left; clear_value u; intro hu; rotate_right)
    | (extract_lets +onlyGivenNames u; subst u) | assumption | exact .refl _ _ | apply (State.writeMem_touches ..).thn
    | split | apply update
  all_goals first
    | decide
    | (intro q hq; cases q <;> first | exact absurd (by decide) hq | simp only [Part.same, and_self])
    | simp only [State.shaped, imp_self]

theorem configurationWord_touches (offset : Nat) (s : State) : Touches [] s (configurationWord offset s).2 := by
  unfold configurationWord
  split
  · exact refl ..
  · exact State.free_touches s

theorem resetStop_touches (s : State) : Touches jobParts s (resetStop s) := by
  unfold resetStop
  repeat' with_reducible first
    | (extract_lets +onlyGivenNames u; apply cut u; unfold u; clear u; rotate_left; clear_value u; intro hu; rotate_right) | assumption
    | exact .refl _ _ | apply (applyStop_touches ..).thn | apply (sendAbort_touches ..).thn
    | apply (startAbort_touches ..).thn | split
  all_goals decide

theorem beginFlr_touches (s : State) : Touches jobParts s (beginFlr s) := by
  unfold beginFlr
  extract_lets active host job begun stopped ended
  have hbegun : Touches jobParts s begun := update (refl ..) id (by
    intro q hq; cases q <;> first | exact absurd (by decide) hq | simp only [Part.same, and_self])
  have hstopped : Touches jobParts s stopped := by
    unfold stopped
    split
    · exact .via (resetStop_touches _) hbegun
    · exact hbegun
  refine .via (stopComplete_touches _) (update hstopped ?_ ?_)
  · rintro ⟨rings, -, rest⟩
    exact ⟨(List.length_map _).trans rings, rfl, rest⟩
  · intro q hq; cases q <;> first | exact absurd (by decide) hq | simp only [Part.same, and_self]

theorem linkDown_touches (s : State) : Touches [.host] s (linkDown s) := by
  unfold linkDown
  repeat' with_reducible first
    | (extract_lets +onlyGivenNames u; subst u) | exact .refl _ _ | apply update
  all_goals first
    | decide
    | (intro q hq; cases q <;> first | exact absurd (by decide) hq | simp only [Part.same, and_self])
    | simp only [State.shaped, imp_self]

theorem notePort_touches (n : Nat) (code : Nat) (s : State) : Touches [.link] s (notePort n code s) := by
  unfold notePort
  repeat' with_reducible first
    | (extract_lets +onlyGivenNames u; subst u) | exact .refl _ _ | apply (State.setPort_touches ..).thn
    | apply update
  all_goals decide

theorem portDown_touches (n : Nat) (lane : Option Nat) (s : State) : Touches faultParts s (portDown n lane s) := by
  unfold portDown
  repeat' with_reducible first
    | (extract_lets +onlyGivenNames u; apply cut u; unfold u; clear u; rotate_left; clear_value u; intro hu; rotate_right) | assumption
    | exact .refl _ _ | apply (State.setPort_touches ..).thn | apply (countError_touches ..).thn
    | apply (notePort_touches ..).thn | apply (raiseAs_touches ..).thn | apply (startAbort_touches ..).thn | split
    | apply update
  all_goals decide

theorem takeHeader_touches (n : Nat) (f : Bytes) (s : State) : Touches faultParts s (takeHeader n f s) := by
  unfold takeHeader
  repeat' with_reducible first
    | (extract_lets +onlyGivenNames u; subst u) | assumption | exact .refl _ _ | apply (State.setPort_touches ..).thn
    | apply (portDown_touches ..).thn | apply (pump_touches ..).thn | split | apply update
  all_goals decide

theorem passOn_touches (n : Nat) (f : Bytes) (s : State) : Touches [.link] s (passOn n f s) := by
  unfold passOn
  repeat' with_reducible first
    | (extract_lets +onlyGivenNames u; subst u) | assumption | exact .refl _ _ | apply (returnCredit_touches ..).thn
    | apply (sendControl_touches ..).thn | apply (sendData_touches ..).thn | split
  all_goals decide

theorem hear_touches (n errors : Nat) (f : Bytes) (s : State) : Touches [.link] s (hear n errors f s).2 :=
  State.setPort_touches ..

theorem deliverFlit_touches {ps : List Part} (n : Nat) (f : Bytes) (fwd : State → Bool) (act : State → State)
    (s : State)
    (hact : ∀ u, Touches ps u (act u)) (hps : [.link] ⊆ ps := by decide) :
    Touches ps s (deliverFlit n f fwd act s) := by
  have pass (u : State) : Touches [.link] u (passOn n f (sendPlain n 0 false 0 0 [] u)) :=
    .via (passOn_touches ..) (sendPlain_touches ..)
  unfold deliverFlit
  simp only []
  repeat' split
  · exact (hact _).via ((pass s).mono hps) (fun _ h => h)
  · exact (hact _).via ((returnCredit_touches ..).mono hps) (fun _ h => h)
  · exact (hact _).via ((returnCredit_touches ..).mono hps) (fun _ h => h)
  · exact (pass s).mono hps

theorem receive_touches {ps : List Part} (n op : Nat) (f : Bytes) (errors : Nat) (fwd : State → Bool)
    (act : State → State) (s : State) (hact : ∀ u, Touches ps u (act u)) (hps : faultParts ⊆ ps := by decide) :
    Touches ps s (receive n op f errors fwd act s) := by
  have link : [.link] ⊆ ps := List.Subset.trans (by decide : [Part.link] ⊆ faultParts) hps
  have heard := (hear_touches n errors f s).mono link
  have header := (takeHeader_touches n f (hear n errors f s).2).via heard hps
  unfold receive
  simp only []
  repeat' split
  · exact refl ..
  · exact (sendPlain_touches ..).via heard link
  · exact heard
  · exact header
  · exact (sendPlain_touches ..).via header link
  · exact (deliverFlit_touches _ _ _ _ _ hact link).via ((State.setPort_touches ..).via header link) (fun _ h => h)

theorem hearPlain_touches {ps : List Part} (n errors : Nat) (f : Bytes) (wanted : Bool) (act : State → State)
    (s : State)
    (hact : ∀ u, Touches ps u (act u)) (hps : [.link] ⊆ ps := by decide) :
    Touches ps s (hearPlain n errors f wanted act s) := by
  have heard := (hear_touches n errors f s).mono hps
  unfold hearPlain
  simp only []
  repeat' split
  · exact refl ..
  · exact (hact _).via heard (fun _ h => h)
  · exact heard

theorem sendProbe_touches (l : List Nat) (s : State) : Touches [.link] s (sendProbe l s) := by
  unfold sendProbe
  repeat' with_reducible first
    | exact .refl _ _ | apply (sendPlain_touches ..).thn
  all_goals decide

theorem bringUpPort_touches (n : Nat) (s : State) : Touches [.link] s (bringUpPort n s) := by
  unfold bringUpPort
  repeat' with_reducible first
    | (extract_lets +onlyGivenNames u; apply cut u; unfold u; clear u; rotate_left; clear_value u; intro hu; rotate_right)
    | (extract_lets +onlyGivenNames u; subst u) | assumption | exact .refl _ _ | apply (State.setPort_touches ..).thn
    | apply (sendPlain_touches ..).thn | split | apply update
  all_goals first
    | decide
    | (intro q hq; cases q <;> first | exact absurd (by decide) hq | simp only [Part.same, and_self])
    | simp only [State.shaped, imp_self]

theorem takeIdent_touches (n : Nat) (f : Bytes) (delayNs : Nat) (s : State) :
    Touches [.code, .link, .host] s (takeIdent n f delayNs s) := by
  unfold takeIdent
  repeat' with_reducible first
    | (extract_lets +onlyGivenNames u; apply cut u; unfold u; clear u; rotate_left; clear_value u; intro hu; rotate_right)
    | (extract_lets +onlyGivenNames u; subst u) | assumption | exact .refl _ _ | apply (State.setPort_touches ..).thn
    | apply (formFails_touches ..).thn | apply (notePort_touches ..).thn | apply (raiseAs_touches ..).thn
    | apply (sendProbe_touches ..).thn | apply Touches.foldl; intro _ _ | split | apply update
  all_goals decide

theorem closeRing_touches (l : List Nat) (s : State) : Touches [.code, .link, .host] s (closeRing l s) := by
  unfold closeRing
  repeat' with_reducible first
    | (extract_lets +onlyGivenNames u; subst u) | assumption | exact .refl _ _ | apply (formFails_touches ..).thn
    | split | apply update
  all_goals first
    | decide
    | (intro q hq; cases q <;> first | exact absurd (by decide) hq | simp only [Part.same, and_self])
    | simp only [State.shaped, imp_self]

theorem tryClose_touches (s : State) : Touches [.code, .link, .host] s (tryClose s) := by
  unfold tryClose
  repeat' with_reducible first
    | exact .refl _ _ | apply (closeRing_touches ..).thn | split | apply update
  all_goals decide

theorem takeProbe_touches (f : Bytes) (s : State) : Touches [.code, .link, .host] s (takeProbe f s) := by
  unfold takeProbe
  repeat' with_reducible first
    | (extract_lets +onlyGivenNames u; apply cut u; unfold u; clear u; rotate_left; clear_value u; intro hu; rotate_right)
    | (extract_lets +onlyGivenNames u; subst u) | assumption | exact .refl _ _ | apply (formFails_touches ..).thn
    | apply (sendProbe_touches ..).thn | apply (tryClose_touches ..).thn | split | apply update
  all_goals first
    | decide
    | (intro q hq; cases q <;> first | exact absurd (by decide) hq | simp only [Part.same, and_self])
    | simp only [State.shaped, imp_self]

theorem trainingFlit_touches (n : Nat) (f : Bytes) (errors delayNs : Nat) (s : State) :
    Touches [.code, .link, .host] s (trainingFlit n f errors delayNs s) := by
  refine hearPlain_touches _ _ _ _ _ _ fun u => ?_
  repeat' split
  · exact takeIdent_touches ..
  · exact takeProbe_touches ..
  · exact refl ..

theorem tickDelay_touches (n hops : Nat) (s : State) : Touches [] s (tickDelay n hops s).2 := by
  unfold tickDelay
  generalize ns _ = base
  generalize List.range hops = l
  suffices ∀ acc : Time × State, Touches [] s acc.2 → Touches [] s (l.foldl (fun (acc : Time × State) _ =>
      let (v, s) := acc.2.free
      (acc.1 + ns (v.toNat % 65536), s)) acc).2 from this _ (refl ..)
  induction l with
  | nil => exact fun _ h => h
  | cons _ _ ih => exact fun acc h => ih _ ((State.free_touches acc.2).via h)

theorem takeTick_touches (n : Nat) (f : Bytes) (s : State) : Touches runParts s (takeTick n f s) := by
  unfold takeTick
  repeat' with_reducible first
    | (extract_lets +onlyGivenNames u; subst u) | assumption | exact .refl _ _ | apply (boundary_touches ..).thn
    | apply (duskStop_touches ..).thn | apply (tickDelay_touches ..).thn | split
  all_goals decide

theorem takeReady_touches (f : Bytes) (s : State) : Touches [.link] s (takeReady f s) := by
  unfold takeReady
  repeat' with_reducible first
    | (extract_lets +onlyGivenNames u; subst u) | assumption | exact .refl _ _ | split | apply update
  all_goals first
    | decide
    | (intro q hq; cases q <;> first | exact absurd (by decide) hq | simp only [Part.same, and_self])
    | simp only [State.shaped, imp_self]

theorem takeAbortFlit_touches (f : Bytes) (s : State) : Touches jobParts s (takeAbortFlit f s) := by
  unfold takeAbortFlit
  repeat' with_reducible first
    | exact .refl _ _ | apply (applyStop_touches ..).thn | apply (raiseAs_touches ..).thn
    | apply (takeAbort_touches ..).thn | split
  all_goals decide

theorem adoptTick_touches (c : Option Nat) (s : State) : Touches jobParts s (adoptTick c s) := by
  unfold adoptTick
  split
  · exact refl ..
  next q _ =>
    split
    · exact refl ..
    · extract_lets ck ak t job u
      have hu : Touches jobParts s u := update ((withdrawRequests_touches c s).mono) id (by
        intro q hq; cases q <;> first | exact absurd (by decide) hq | simp only [Part.same, and_self])
      clear_value u job t ak ck
      split
      · exact hu
      · split
        next v h => exact .via (restoreCheckpoint_touches h) hu
        · exact .via (stopJob_touches ..) (.via (raise_touches ..) hu)

theorem ringRestored_touches (s : State) : Touches jobParts s (ringRestored s) := by
  unfold ringRestored
  repeat' with_reducible first
    | (extract_lets +onlyGivenNames u; apply cut u; unfold u; clear u; rotate_left; clear_value u; intro hu; rotate_right)
    | (extract_lets +onlyGivenNames u; subst u) | assumption | exact .refl _ _ | apply (adoptTick_touches ..).thn
    | apply (sendBothWays_touches ..).thn | split | apply update
  all_goals first
    | decide
    | (intro q hq; cases q <;> first | exact absurd (by decide) hq | simp only [Part.same, and_self])
    | simp only [State.shaped, imp_self]

theorem takeResume_touches (f : Bytes) (s : State) : Touches jobParts s (takeResume f s) := by
  unfold takeResume
  repeat' with_reducible first
    | (extract_lets +onlyGivenNames u; subst u) | assumption | exact .refl _ _ | apply (adoptTick_touches ..).thn
    | split | apply update
  all_goals first
    | decide
    | (intro q hq; cases q <;> first | exact absurd (by decide) hq | simp only [Part.same, and_self])
    | simp only [State.shaped, imp_self]

theorem takeStart_touches (b : Bytes) (s : State) :
    Touches [.tick, .job, .frames, .code, .progress, .engines, .mem, .tier, .media, .link, .host, .integrity]
      s (takeStart b s) := by
  unfold takeStart
  repeat' with_reducible first
    | (extract_lets +onlyGivenNames u; subst u) | exact .refl _ _ | apply (placeStart_touches ..).thn
    | apply (refuseStart_touches ..).thn | split | apply update
  all_goals first
    | decide
    | (intro q hq; cases q <;> first | exact absurd (by decide) hq | simp only [Part.same, and_self])
    | simp only [State.shaped, imp_self]

theorem takeRequest_touches (f : Bytes) (s : State) : Touches jobParts s (takeRequest f s) := by
  unfold takeRequest
  repeat' with_reducible first
    | (extract_lets +onlyGivenNames u; subst u) | assumption | exact .refl _ _ | apply (applyStop_touches ..).thn
    | apply (noteEnd_touches ..).thn | apply (noteKeys_touches ..).thn | apply (noteSplit_touches ..).thn
    | apply (takeStart_touches ..).thn | split | apply update
  all_goals decide

theorem writeOut_touches (cx : Access) (o : Out) (s : State) : Touches [.mem, .host] s (writeOut cx o s) := by
  unfold writeOut
  repeat' with_reducible first
    | (extract_lets +onlyGivenNames u; apply cut u; unfold u; clear u; rotate_left; clear_value u; intro hu; rotate_right) | assumption
    | exact .refl _ _ | apply (writeCode_touches ..).thn | apply (writeScale_touches ..).thn
    | apply Touches.foldl; intro _ _
  all_goals decide

theorem signal_touches (ev : Nat) (core : Nat) (idx : Nat) (s : State) :
    Touches jobParts s (signal ev core idx s) := by
  unfold signal
  repeat' with_reducible first
    | (extract_lets +onlyGivenNames u; apply cut u; unfold u; clear u; rotate_left; clear_value u; intro hu; rotate_right)
    | (extract_lets +onlyGivenNames u; subst u) | assumption | exact .refl _ _ | apply (commandFault_touches ..).thn
    | split | apply update
  all_goals first
    | decide
    | (intro q hq; cases q <;> first | exact absurd (by decide) hq | simp only [Part.same, and_self])
    | simp only [State.shaped, imp_self]

theorem requestEdge_touches (core : Nat) (s : State) : Touches [.engines] s (requestEdge core s) := by
  unfold requestEdge
  repeat' with_reducible first
    | (extract_lets +onlyGivenNames u; subst u) | exact .refl _ _ | split | apply update
  all_goals first
    | decide
    | (intro q hq; cases q <;> first | exact absurd (by decide) hq | simp only [Part.same, and_self])
    | simp only [State.shaped, imp_self]

theorem takeEdge_touches (core : Nat) (s : State) : Touches [.engines] s (takeEdge core s) := by
  unfold takeEdge
  repeat' with_reducible first
    | (extract_lets +onlyGivenNames u; subst u) | exact .refl _ _ | apply update
  all_goals first
    | decide
    | (intro q hq; cases q <;> first | exact absurd (by decide) hq | simp only [Part.same, and_self])
    | simp only [State.shaped, List.length_set, imp_self]

theorem waitIssue_touches (core : Nat) (c : Bytes) (s : State) : Touches [.engines] s (waitIssue core c s) := by
  unfold waitIssue
  repeat' with_reducible first
    | exact .refl _ _ | apply (requestEdge_touches ..).thn | split
  all_goals decide

theorem startGuest_touches (g : Guest) (s : State) : Touches [.engines] s (startGuest s g) := by
  unfold startGuest
  repeat' with_reducible first
    | (extract_lets +onlyGivenNames u; apply cut u; unfold u; clear u; rotate_left; clear_value u; intro hu; rotate_right)
    | (extract_lets +onlyGivenNames u; subst u) | assumption | exact .refl _ _ | apply (requestEdge_touches ..).thn
    | apply (takeEdge_touches ..).thn | split | apply update
  all_goals first
    | decide
    | (intro q hq; cases q <;> first | exact absurd (by decide) hq | simp only [Part.same, and_self])
    | simp only [State.shaped, imp_self]

theorem startGuests_touches (s : State) : Touches [.engines] s (startGuests s) := by
  unfold startGuests
  repeat' with_reducible first
    | exact .refl _ _ | apply (startGuest_touches ..).thn | apply Touches.foldl; intro _ _
  all_goals decide

theorem addGuest_touches (host : Nat) (core : Nat) (place : Nat) (c : Bytes) (arbiter : Bool) (s : State) :
    Touches [.engines] s (addGuest host core place c arbiter s) := by
  unfold addGuest
  repeat' with_reducible first
    | (extract_lets +onlyGivenNames u; subst u) | exact .refl _ _ | apply update
  all_goals first
    | decide
    | (intro q hq; cases q <;> first | exact absurd (by decide) hq | simp only [Part.same, and_self])
    | simp only [State.shaped, imp_self]

theorem selectCirrus_touches (core place : Nat) (c : Bytes) (agreed : Option (Nat × Nat)) (s : State) :
    Touches [.engines, .integrity] s (selectCirrus core place c agreed s).2 := by
  unfold selectCirrus
  repeat' split
  · exact refl ..
  · exact refl ..
  · refine .via (addGuest_touches ..) (update (refl ..) id ?_)
    intro q hq; cases q <;> first | exact absurd (by decide) hq | simp only [Part.same, and_self]
  · exact (countKind_touches ..).mono

theorem markIssued_touches (core : Nat) (place : Nat) (s : State) :
    Touches [.engines] s (markIssued core place s) := by
  unfold markIssued
  repeat' with_reducible first
    | (extract_lets +onlyGivenNames u; apply cut u; unfold u; clear u; rotate_left; clear_value u; intro hu; rotate_right)
    | (extract_lets +onlyGivenNames u; subst u) | assumption | exact .refl _ _ | apply (refillBuffer_touches ..).thn
    | split | apply update
  all_goals first
    | decide
    | (intro q hq; cases q <;> first | exact absurd (by decide) hq | simp only [Part.same, and_self])
    | simp only [State.shaped, List.length_set, imp_self]

theorem chargeTensor_touches (core : Nat) (i : Nat) (s : State) : Touches [.tier] s (chargeTensor core s i) := by
  unfold chargeTensor
  repeat' with_reducible first
    | (extract_lets +onlyGivenNames u; subst u) | assumption | exact .refl _ _ | apply (chargeCore_touches ..).thn
    | split | apply update
  all_goals decide

theorem launch_touches (core : Nat) (place : Nat) (c : Bytes) (cx : Access) (w : Work) (complete : Bool) (s : State) :
    Touches jobParts s (launch core place c cx w complete s) := by
  unfold launch
  repeat' with_reducible first
    | (extract_lets +onlyGivenNames u; apply cut u; unfold u; clear u; rotate_left; clear_value u; intro hu; rotate_right)
    | (extract_lets +onlyGivenNames u; subst u) | assumption | exact .refl _ _ | apply (commandFault_touches ..).thn
    | apply (complete_touches ..).thn | apply (markIssued_touches ..).thn | apply (raise_touches ..).thn
    | apply (selectCirrus_touches ..).thn | apply (startGuests_touches ..).thn | apply (takeEdge_touches ..).thn
    | apply (touchEntries_touches ..).thn | apply (writeOut_touches ..).thn | apply Touches.foldl; intro _ _ | split
    | apply update
  all_goals first
    | decide
    | (intro q hq; cases q <;> first | exact absurd (by decide) hq | simp only [Part.same, and_self])
    | simp only [State.shaped, imp_self]

theorem applyAtomic_touches (op : AtomicOp) (wide : Bool) (addr : Nat) (v : Nat) (cmp : Nat) (result : Option
    (Space × Nat)) (s : State) :
    Touches [.mem, .host] s (applyAtomic op wide addr v cmp result s) := by
  unfold applyAtomic
  repeat' with_reducible first
    | (extract_lets +onlyGivenNames u; apply cut u; unfold u; clear u; rotate_left; clear_value u; intro hu; rotate_right)
    | (extract_lets +onlyGivenNames u; subst u) | assumption | exact .refl _ _ | apply (State.writeMem_touches ..).thn
    | split | apply update
  all_goals decide

theorem contribute_touches (core : Nat) (idx : Nat) (o : OrderedSlot) (s : State) :
    Touches jobParts s (contribute core idx o s) := by
  unfold contribute
  repeat' with_reducible first
    | (extract_lets +onlyGivenNames u; subst u) | assumption | exact .refl _ _ | apply (commandFault_touches ..).thn
    | split | apply update
  all_goals first
    | decide
    | (intro q hq; cases q <;> first | exact absurd (by decide) hq | simp only [Part.same, and_self])
    | simp only [State.shaped, imp_self]

theorem applyStaged_touches (r : Run) (e : Staged) (s : State) : Touches jobParts s (applyStaged r e s) := by
  unfold applyStaged
  repeat' with_reducible first
    | (extract_lets +onlyGivenNames u; subst u) | assumption | exact .refl _ _ | apply (addRequest_touches ..).thn
    | apply (applyAtomic_touches ..).thn | apply (contribute_touches ..).thn | split | apply update
  all_goals decide

theorem commitOne_touches (r : Run) (s : State) : Touches jobParts s (commitOne r s) := by
  unfold commitOne
  repeat' with_reducible first
    | (extract_lets +onlyGivenNames u; apply cut u; unfold u; clear u; rotate_left; clear_value u; intro hu; rotate_right)
    | (extract_lets +onlyGivenNames u; subst u) | assumption | exact .refl _ _ | apply (applyStaged_touches ..).thn
    | apply (signal_touches ..).thn | apply Touches.foldl; intro _ _ | split | apply update
  all_goals first
    | decide
    | (intro q hq; cases q <;> first | exact absurd (by decide) hq | simp only [Part.same, and_self])
    | simp only [State.shaped, imp_self]

theorem commitRun_touches (r : Run) (s : State) : Touches jobParts s (commitRun r s) := by
  unfold commitRun
  repeat' with_reducible first
    | exact .refl _ _ | apply (commitOne_touches ..).thn | apply (sendReady_touches ..).thn
  all_goals decide

theorem commitIfReady_touches (r : Run) (s : State) : Touches jobParts s (commitIfReady r s) := by
  unfold commitIfReady
  repeat' with_reducible first
    | exact .refl _ _ | apply (commitRun_touches ..).thn | split
  all_goals decide

theorem commitCovered_touches (r : Run) (s : State) : Touches jobParts s (commitCovered r s) := by
  unfold commitCovered
  repeat' with_reducible first
    | exact .refl _ _ | apply (commitRun_touches ..).thn | apply Touches.foldl; intro _ _ | split | apply update
  all_goals decide

theorem cirrusLost_touches (r : Run) (s : State) : Touches faultParts s (cirrusLost r s) := by
  unfold cirrusLost
  repeat' with_reducible first
    | exact .refl _ _ | apply (levelTwo_touches ..).thn
  all_goals decide

theorem finishRun_touches (r : Run) (err : BitVec 64) (s : State) : Touches faultParts s (finishRun r err s) := by
  unfold finishRun
  repeat' with_reducible first
    | (extract_lets +onlyGivenNames u; apply cut u; unfold u; clear u; rotate_left; clear_value u; intro hu; rotate_right)
    | (extract_lets +onlyGivenNames u; subst u) | assumption | exact .refl _ _ | apply (State.setRun_touches ..).thn
    | apply (cirrusLost_touches ..).thn | apply (commitCovered_touches ..).thn | apply (commitIfReady_touches ..).thn
    | apply (startGuests_touches ..).thn | split | apply update
  all_goals first
    | decide
    | (intro q hq; cases q <;> first | exact absurd (by decide) hq | simp only [Part.same, and_self])
    | simp only [State.shaped, List.length_set, imp_self]

theorem finish_touches (core : Nat) (idx : Nat) (err : BitVec 64) (s : State) :
    Touches faultParts s (finish core idx err s) := by
  unfold finish
  repeat' with_reducible first
    | exact .refl _ _ | apply (finishRun_touches ..).thn | split | apply update
  all_goals decide

theorem deadlinePassed_touches (core : Nat) (idx : Nat) (s : State) :
    Touches jobParts s (deadlinePassed core idx s) := by
  unfold deadlinePassed
  repeat' with_reducible first
    | exact .refl _ _ | apply (commandFault_touches ..).thn | apply (startAbort_touches ..).thn | split | apply update
  all_goals decide

theorem beginArbitration_touches (r : Run) (d0 : Nat × Nat) (d1 : Nat × Nat) (s : State) :
    Touches jobParts s (beginArbitration r d0 d1 s) := by
  unfold beginArbitration
  repeat' with_reducible first
    | (extract_lets +onlyGivenNames u; apply cut u; unfold u; clear u; rotate_left; clear_value u; intro hu; rotate_right)
    | (extract_lets +onlyGivenNames u; subst u) | assumption | exact .refl _ _ | apply (State.setRun_touches ..).thn
    | apply (addGuest_touches ..).thn | apply (countKind_touches ..).thn | apply (enterSquall_touches ..).thn
    | apply (raiseAs_touches ..).thn | apply (startGuests_touches ..).thn | split | apply update
  all_goals first
    | decide
    | (intro q hq; cases q <;> first | exact absurd (by decide) hq | simp only [Part.same, and_self])
    | simp only [State.shaped, imp_self]

theorem endGuests_touches (r : Run) (s : State) : Touches [.engines] s (endGuests r s) := by
  unfold endGuests
  repeat' with_reducible first
    | exact .refl _ _ | apply (dropGuests_touches ..).thn | apply (startGuests_touches ..).thn
  all_goals decide

theorem compareDigests_touches (core : Nat) (idx : Nat) (err : BitVec 64) (s : State) :
    Touches jobParts s (compareDigests core idx err s) := by
  unfold compareDigests
  repeat' with_reducible first
    | (extract_lets +onlyGivenNames u; apply cut u; unfold u; clear u; rotate_left; clear_value u; intro hu; rotate_right)
    | (extract_lets +onlyGivenNames u; subst u) | assumption | exact .refl _ _ | apply (State.setRun_touches ..).thn
    | apply (beginArbitration_touches ..).thn | apply (commitIfReady_touches ..).thn
    | apply (countKind_touches ..).thn | apply (endGuests_touches ..).thn | split | apply update
  all_goals decide

theorem arbitrate_touches (core : Nat) (idx : Nat) (err : BitVec 64) (s : State) :
    Touches faultParts s (arbitrate core idx err s) := by
  unfold arbitrate
  repeat' with_reducible first
    | (extract_lets +onlyGivenNames u; apply cut u; unfold u; clear u; rotate_left; clear_value u; intro hu; rotate_right)
    | (extract_lets +onlyGivenNames u; subst u) | assumption | exact .refl _ _ | apply (State.setRun_touches ..).thn
    | apply (cirrusLost_touches ..).thn | apply (commitIfReady_touches ..).thn | apply (countError_touches ..).thn
    | apply (endGuests_touches ..).thn | apply (killRun_touches ..).thn | apply (startAbort_touches ..).thn | split
    | apply update
  all_goals first
    | decide
    | (intro q hq; cases q <;> first | exact absurd (by decide) hq | simp only [Part.same, and_self])
    | simp only [State.shaped, imp_self]

theorem parityFault_touches (core : Nat) (idx : Nat) (duplicate : Bool) (s : State) :
    Touches faultParts s (parityFault core idx duplicate s) := by
  unfold parityFault
  repeat' with_reducible first
    | (extract_lets +onlyGivenNames u; apply cut u; unfold u; clear u; rotate_left; clear_value u; intro hu; rotate_right)
    | (extract_lets +onlyGivenNames u; subst u) | assumption | exact .refl _ _ | apply (State.setRun_touches ..).thn
    | apply (commitIfReady_touches ..).thn | apply (countError_touches ..).thn | apply (countKind_touches ..).thn
    | apply (endGuests_touches ..).thn | apply (levelOne_touches ..).thn | split | apply update
  all_goals decide

theorem control_touches (op : Nat) (core : Nat) (s : State) : Touches faultParts s (control op core s) := by
  unfold control
  repeat' with_reducible first
    | (extract_lets +onlyGivenNames u; apply cut u; unfold u; clear u; rotate_left; clear_value u; intro hu; rotate_right) | assumption
    | exact .refl _ _ | apply (finish_touches ..).thn | apply (launch_touches ..).thn | split | apply update
  all_goals decide

theorem setTransfer_touches (t : Transfer) (s : State) : Touches [.link] s (setTransfer t s) := by
  unfold setTransfer
  repeat' with_reducible first
    | (extract_lets +onlyGivenNames u; subst u) | exact .refl _ _ | apply update
  all_goals first
    | decide
    | (intro q hq; cases q <;> first | exact absurd (by decide) hq | simp only [Part.same, and_self])
    | simp only [State.shaped, imp_self]

theorem sendMessage_touches (op : Nat) (c : Bytes) (dst : Nat) (b : Bytes) (s : State) :
    Touches [.link] s (sendMessage op c dst b s) := by
  unfold sendMessage
  repeat' with_reducible first
    | exact .refl _ _ | apply (sendData_touches ..).thn | apply Touches.foldl; intro _ _
  all_goals decide

theorem sendCollControl_touches (op : Nat) (c : Bytes) (dst : Nat) (payload : Bytes) (s : State) :
    Touches [.link] s (sendCollControl op c dst payload s) := by
  unfold sendCollControl
  repeat' with_reducible first
    | exact .refl _ _ | apply (sendControl_touches ..).thn
  all_goals decide

theorem setLocalDone_touches (c : Bytes) (s : State) : Touches [.link] s (setLocalDone c s) := by
  unfold setLocalDone
  repeat' with_reducible first
    | (extract_lets +onlyGivenNames u; subst u) | exact .refl _ _ | apply (setTransfer_touches ..).thn | apply update
  all_goals decide

theorem mmFinish_touches (core : Nat) (c : Bytes) (s : State) : Touches jobParts s (mmFinish core c s) := by
  unfold mmFinish
  repeat' with_reducible first
    | (extract_lets +onlyGivenNames u; subst u) | assumption | exact .refl _ _ | apply (commandFault_touches ..).thn
    | apply (setLocalDone_touches ..).thn | apply (writeOut_touches ..).thn | apply Touches.foldl; intro _ _ | split
    | apply update
  all_goals decide

theorem moveLocal_touches (core : Nat) (c : Bytes) (s : State) :
    Touches [.mem, .link, .host] s (moveLocal core c s) := by
  unfold moveLocal
  repeat' with_reducible first
    | (extract_lets +onlyGivenNames u; apply cut u; unfold u; clear u; rotate_left; clear_value u; intro hu; rotate_right)
    | (extract_lets +onlyGivenNames u; subst u) | assumption | exact .refl _ _ | apply (setLocalDone_touches ..).thn
    | apply (writeOut_touches ..).thn | apply Touches.foldl; intro _ _ | split
  all_goals decide

theorem progressSend_touches (core : Nat) (c : Bytes) (q : Nat × Nat) (s : State) :
    Touches [.link] s (progressSend core c q s) := by
  unfold progressSend
  repeat' with_reducible first
    | (extract_lets +onlyGivenNames u; apply cut u; unfold u; clear u; rotate_left; clear_value u; intro hu; rotate_right)
    | (extract_lets +onlyGivenNames u; subst u) | assumption | exact .refl _ _ | apply (sendMessage_touches ..).thn
    | apply (setTransfer_touches ..).thn | split | apply update
  all_goals decide

theorem landSegments_touch {α : Type} (f : State × Nat → α → State × Nat) (l : List α) {s : State} {acc : State × Nat}
    (hf : ∀ acc g, Touches [.mem, .host] acc.1 (f acc g).1) (h : Touches [.mem, .host] s acc.1) :
    Touches [.mem, .host] s (l.foldl f acc).1 := by
  induction l generalizing acc with
  | nil => exact h
  | cons g l ih => exact ih (.via (hf acc g) h)

theorem landData_touches (core : Nat) (c : Bytes) (q : Nat × Nat) (s : State) :
    Touches [.mem, .host] s (landData core c q s) := by
  unfold landData
  extract_lets
  split
  · exact writeOut_touches ..
  · exact landSegments_touch _ _ (fun _ _ => writeOut_touches ..) (refl ..)

theorem progressReceive_touches (core : Nat) (c : Bytes) (q : Nat × Nat) (s : State) :
    Touches [.mem, .link, .host] s (progressReceive core c q s) := by
  unfold progressReceive
  repeat' with_reducible first
    | (extract_lets +onlyGivenNames u; apply cut u; unfold u; clear u; rotate_left; clear_value u; intro hu; rotate_right)
    | (extract_lets +onlyGivenNames u; subst u) | assumption | exact .refl _ _ | apply (landData_touches ..).thn
    | apply (sendCollControl_touches ..).thn | apply (setTransfer_touches ..).thn | split | apply update
  all_goals decide

theorem progress_touches (r : Run) (s : State) : Touches jobParts s (progress r s) := by
  unfold progress
  repeat' with_reducible first
    | (extract_lets +onlyGivenNames u; apply cut u; unfold u; clear u; rotate_left; clear_value u; intro hu; rotate_right)
    | (extract_lets +onlyGivenNames u; subst u) | assumption | exact .refl _ _ | apply (State.setRun_touches ..).thn
    | apply (mmFinish_touches ..).thn | apply (progressReceive_touches ..).thn | apply (progressSend_touches ..).thn
    | apply Touches.foldl; intro _ _ | split | apply update
  all_goals decide

theorem chargeLink_touches (i : Nat) (s : State) : Touches [.tier] s (chargeLink s i) := by
  unfold chargeLink
  repeat' with_reducible first
    | (extract_lets +onlyGivenNames u; subst u) | assumption | exact .refl _ _ | apply (chargeHbm_touches ..).thn
    | split
  all_goals decide

theorem takeClear_touches (f : Bytes) (s : State) : Touches jobParts s (takeClear f s) := by
  unfold takeClear
  repeat' with_reducible first
    | (extract_lets +onlyGivenNames u; apply cut u; unfold u; clear u; rotate_left; clear_value u; intro hu; rotate_right)
    | (extract_lets +onlyGivenNames u; subst u) | assumption | exact .refl _ _ | apply (progress_touches ..).thn
    | apply (setTransfer_touches ..).thn | split | apply update
  all_goals decide

theorem takeColl_touches (change : Transfer → Transfer) (f : Bytes) (s : State) :
    Touches jobParts s (takeColl change f s) := by
  unfold takeColl
  repeat' with_reducible first
    | exact .refl _ _ | apply (progress_touches ..).thn | apply (setTransfer_touches ..).thn | split | apply update
  all_goals decide

theorem setDynamic_touches (target : Target) (address : BitVec 7) (s : State) :
    Touches [.pins] s (setDynamic target address s) := by
  unfold setDynamic
  repeat' with_reducible first
    | (extract_lets +onlyGivenNames u; subst u) | exact .refl _ _ | split | apply update
  all_goals first
    | decide
    | (intro q hq; cases q <;> first | exact absurd (by decide) hq | simp only [Part.same, and_self])
    | simp only [State.shaped, imp_self]

theorem answer_touches (target : Target) (b : Bytes) (s : State) : Touches [.host] s (answer target b s) := by
  unfold answer
  repeat' with_reducible first
    | (extract_lets +onlyGivenNames u; subst u) | exact .refl _ _ | split | apply update
  all_goals first
    | decide
    | (intro q hq; cases q <;> first | exact absurd (by decide) hq | simp only [Part.same, and_self])
    | simp only [State.shaped, imp_self]

theorem dropRecord_touches (s : State) : Touches [.host, .pins] s (dropRecord s) := by
  unfold dropRecord
  repeat' with_reducible first
    | (extract_lets +onlyGivenNames u; subst u) | exact .refl _ _ | apply update
  all_goals first
    | decide
    | (intro q hq; cases q <;> first | exact absurd (by decide) hq | simp only [Part.same, and_self])
    | simp only [State.shaped, imp_self]

theorem dawnRaise_touches (code : Nat) (arg : Nat) (s : State) :
    Touches [.code, .host, .dawn] s (dawnRaise code arg s) := by
  unfold dawnRaise
  repeat' with_reducible first
    | (extract_lets +onlyGivenNames u; subst u) | exact .refl _ _ | apply (raise_touches ..).thn | split
    | apply update
  all_goals first
    | decide
    | (intro q hq; cases q <;> first | exact absurd (by decide) hq | simp only [Part.same, and_self])
    | simp only [State.shaped, imp_self]

theorem dawnEclipse_touches (code : Nat) (arg : Nat) (s : State) :
    Touches eclipseParts s (dawnEclipse code arg s) := by
  unfold dawnEclipse
  repeat' with_reducible first
    | (extract_lets +onlyGivenNames u; apply cut u; unfold u; clear u; rotate_left; clear_value u; intro hu; rotate_right)
    | (extract_lets +onlyGivenNames u; subst u) | assumption | exact .refl _ _ | apply (dawnRaise_touches ..).thn
    | apply (eclipseState_touches ..).thn | apply update
  all_goals first
    | decide
    | (intro q hq; cases q <;> first | exact absurd (by decide) hq | simp only [Part.same, and_self])
    | simp only [State.shaped, imp_self]

theorem dawnStep_touches {ps : List Part} (f : State → State) (s : State) (hf : ∀ u, Touches ps u (f u)) :
    Touches ps s (dawnStep f s) := by
  unfold dawnStep
  split
  · exact hf s
  · exact refl ..

theorem writeMarks_touches (kind : Nat) (pending : Bool) (tries : Bool) (s : State) :
    Touches [.flash] s (writeMarks kind pending tries s) := by
  unfold writeMarks
  repeat' with_reducible first
    | exact .refl _ _ | apply (writeBoot_touches ..).thn
  all_goals decide

theorem beginTrial_touches (kind : Nat) (s : State) :
    Touches [.code, .host, .flash, .dawn] s (beginTrial kind s) := by
  unfold beginTrial
  repeat' with_reducible first
    | exact .refl _ _ | apply (dawnRaise_touches ..).thn | apply (writeMarks_touches ..).thn | split | apply update
  all_goals decide

theorem slotVerifies_touches (kind slot : Nat) (s : State) :
    Touches [.code, .host, .dawn] s (slotVerifies kind slot s).2 := by
  unfold slotVerifies
  extract_lets
  repeat' split
  · exact refl ..
  · exact dawnRaise_touches ..
  · exact refl ..

theorem activeSlot_touches (kind : Nat) (other : Bool) (s : State) :
    Touches [.code, .host, .dawn] s (activeSlot kind other s).2 := by
  simp only [activeSlot]
  repeat' with_reducible first
    | exact .refl _ _ | apply (dawnRaise_touches ..).thn | apply (slotVerifies_touches ..).thn | split
  all_goals decide

theorem chooseSlot_touches (kind : Nat) (trial : Bool) (s : State) :
    Touches [.code, .host, .flash, .dawn] s (chooseSlot kind trial s).2 := by
  have verify (slot : Nat) {ok : Bool} {t : State} (h : slotVerifies kind slot s = (ok, t)) :
      Touches [.code, .host, .flash, .dawn] s t := by
    have := slotVerifies_touches kind slot s
    rw [h] at this
    exact this.mono
  simp only [chooseSlot]
  split
  · split
    next t h => exact verify _ h
    next t h =>
      exact .via (activeSlot_touches ..) (.via (dawnRaise_touches ..) (.via (writeMarks_touches ..) (verify _ h)))
  · exact (activeSlot_touches ..).mono

theorem recoveryBoot_touches (puf : Bytes) (s : State) :
    Touches [.job, .code, .host, .dawn, .pins] s (recoveryBoot puf s) := by
  unfold recoveryBoot
  repeat' with_reducible first
    | (extract_lets +onlyGivenNames u; apply cut u; unfold u; clear u; rotate_left; clear_value u; intro hu; rotate_right)
    | (extract_lets +onlyGivenNames u; subst u) | assumption | exact .refl _ _ | apply (dawnRaise_touches ..).thn
    | split | apply update
  all_goals first
    | decide
    | (intro q hq; cases q <;> first | exact absurd (by decide) hq | simp only [Part.same, and_self])
    | simp only [State.shaped, imp_self]

theorem pickFirmware_touches (trial : Bool) (puf : Bytes) (s : State) :
    Touches [.job, .code, .host, .flash, .plans, .dawn, .pins] s (pickFirmware trial puf s) := by
  have chosen {o : Option Nat} {t : State} (h : chooseSlot 0 trial s = (o, t)) :
      Touches [.job, .code, .host, .flash, .plans, .dawn, .pins] s t := by
    have := chooseSlot_touches 0 trial s
    rw [h] at this
    exact this.mono
  unfold pickFirmware
  split
  next t h => exact .via (recoveryBoot_touches ..) (chosen h)
  next n t h =>
    exact update (chosen h) id (by
      intro q hq; cases q <;> first | exact absurd (by decide) hq | simp only [Part.same, and_self])

theorem pickPlanImage_touches (trial : Bool) (s : State) :
    Touches [.code, .host, .flash, .plans, .dawn] s (pickPlanImage trial s) := by
  have chosen {o : Option Nat} {t : State} (h : chooseSlot 1 trial s = (o, t)) :
      Touches [.code, .host, .flash, .plans, .dawn] s t := by
    have := chooseSlot_touches 1 trial s
    rw [h] at this
    exact this.mono
  unfold pickPlanImage
  split
  next t h => exact .via (dawnRaise_touches ..) (chosen h)
  next n t h =>
    exact update (chosen h) id (by
      intro q hq; cases q <;> first | exact absurd (by decide) hq | simp only [Part.same, and_self])

theorem checkSafety_touches (s : State) : Touches eclipseParts s (checkSafety s) := by
  unfold checkSafety
  repeat' with_reducible first
    | (extract_lets +onlyGivenNames u; subst u) | exact .refl _ _ | apply (dawnEclipse_touches ..).thn | split
    | apply update
  all_goals first
    | decide
    | (intro q hq; cases q <;> first | exact absurd (by decide) hq | simp only [Part.same, and_self])
    | simp only [State.shaped, imp_self]

theorem deriveIdentity_touches (puf : Bytes) (s : State) : Touches eclipseParts s (deriveIdentity puf s) := by
  unfold deriveIdentity
  repeat' with_reducible first
    | (extract_lets +onlyGivenNames u; apply cut u; unfold u; clear u; rotate_left; clear_value u; intro hu; rotate_right)
    | (extract_lets +onlyGivenNames u; subst u) | assumption | exact .refl _ _ | apply (dawnEclipse_touches ..).thn
    | apply (dawnRaise_touches ..).thn | split | apply update
  all_goals first
    | decide
    | (intro q hq; cases q <;> first | exact absurd (by decide) hq | simp only [Part.same, and_self])
    | simp only [State.shaped, imp_self]

theorem checkCounters_touches (ok : Bool) (s : State) : Touches eclipseParts s (checkCounters ok s) := by
  unfold checkCounters
  repeat' with_reducible first
    | exact .refl _ _ | apply (dawnEclipse_touches ..).thn | split
  all_goals decide

theorem retried_touches (step : Nat) (failures : Nat) (code : Nat) (arg : Nat) (s : State) :
    Touches eclipseParts s (retried step failures code arg s) := by
  unfold retried
  repeat' with_reducible first
    | exact .refl _ _ | apply (dawnEclipse_touches ..).thn | apply (dawnRaise_touches ..).thn | split | apply update
  all_goals decide

theorem trainMemory_touches (failures : Nat) (s : State) : Touches eclipseParts s (trainMemory failures s) := by
  refine .via (dawnStep_touches (ps := [.link]) _ _ fun u => ?_) ((retried_touches ..).mono)
  refine update (refl ..) ?_ ?_
  · simp only [State.shaped, List.length_map, imp_self]
  · intro q hq; cases q <;> first | exact absurd (by decide) hq | simp only [Part.same, and_self]

theorem admitPlan_touches (cx : LoadContext) (raws : List Bytes) (i : Nat) (s : State) :
    Touches [.code, .tier, .host, .plans, .dawn] s (admitPlan cx raws s i) := by
  unfold admitPlan
  repeat' with_reducible first
    | (extract_lets +onlyGivenNames u; apply cut u; unfold u; clear u; rotate_left; clear_value u; intro hu; rotate_right)
    | (extract_lets +onlyGivenNames u; subst u) | assumption | exact .refl _ _ | apply (dawnRaise_touches ..).thn
    | apply Touches.foldl; intro _ _ | split | apply update
  all_goals first
    | decide
    | (intro q hq; cases q <;> first | exact absurd (by decide) hq | simp only [Part.same, and_self])
    | simp only [State.shaped, imp_self]

theorem admitPlans_touches (s : State) : Touches [.code, .tier, .host, .plans, .dawn] s (admitPlans s) := by
  unfold admitPlans
  repeat' with_reducible first
    | (extract_lets +onlyGivenNames u; subst u) | assumption | exact .refl _ _ | apply (admitPlan_touches ..).thn
    | apply Touches.foldl; intro _ _
  all_goals decide

theorem copyBody_touches (s : State) : Touches [.mem, .host, .dawn] s (copyBody s) := by
  unfold copyBody
  repeat' with_reducible first
    | (extract_lets +onlyGivenNames u; apply cut u; unfold u; clear u; rotate_left; clear_value u; intro hu; rotate_right)
    | (extract_lets +onlyGivenNames u; subst u) | assumption | exact .refl _ _ | apply (State.writeMem_touches ..).thn
    | apply update
  all_goals first
    | decide
    | (intro q hq; cases q <;> first | exact absurd (by decide) hq | simp only [Part.same, and_self])
    | simp only [State.shaped, imp_self]

theorem copyContents_touches (s : State) : Touches [.mem, .host] s (copyContents s) := by
  unfold copyContents
  repeat' with_reducible first
    | exact .refl _ _ | apply (State.writeMem_touches ..).thn | apply Touches.foldl; intro _ _
  all_goals decide

theorem setTier_touches (s : State) (n : Nat) (x : TierState) :
    Touches [.tier] s { s with freeCtr := n, tier := x } :=
  update (refl ..) id (by intro q hq; cases q <;> first | exact absurd (by decide) hq | simp only [Part.same, and_self])

theorem pinFill_touches (s : State) (entry : Nat) : Touches faultParts s (pinFill s entry) := by
  have begun : Touches faultParts s
      (endFill true [] (beginFill { s with tier := { s.tier with queue := [⟨0, 0, entry⟩] } })) :=
    .via (endFill_touches ..) (.via (beginFill_touches _) ((setTier_touches s s.freeCtr _).mono))
  unfold pinFill
  extract_lets tier first second third
  have filled : Touches faultParts s third := by
    unfold third
    split
    · exact .via (endFill_touches ..) begun
    · exact begun
  exact .via (setTier_touches third _ _) filled

theorem fillPinned_touches (s : State) : Touches faultParts s (fillPinned s) :=
  .foldl (fun _ _ => dawnStep_touches _ _ fun _ => pinFill_touches ..)
    (.via (fillBuckets_touches _) ((setTier_touches s s.freeCtr _).mono))

theorem loadTables_touches (ok : Bool) (s : State) : Touches [.code, .banks, .host, .dawn] s (loadTables ok s) := by
  unfold loadTables
  repeat' with_reducible first
    | (extract_lets +onlyGivenNames u; subst u) | assumption | exact .refl _ _ | apply (dawnRaise_touches ..).thn
    | apply (swapBanks_touches ..).thn | apply (writeInactive_touches ..).thn | split
  all_goals decide

theorem newTrackers_touches (s : State) : Touches [.tick] s (newTrackers s) := by
  unfold newTrackers
  repeat' with_reducible first
    | (extract_lets +onlyGivenNames u; subst u) | exact .refl _ _ | apply update
  all_goals first
    | decide
    | (intro q hq; cases q <;> first | exact absurd (by decide) hq | simp only [Part.same, and_self])
    | simp only [State.shaped, imp_self]

theorem loadPlans_touches (tablesOk : Bool) (s : State) :
    Touches [.tick, .job, .frames, .code, .banks, .progress, .engines, .mem, .tier, .media, .link, .host, .plans,
      .dawn, .faults, .integrity, .pins]
      s (loadPlans tablesOk s) := by
  unfold loadPlans
  repeat' with_reducible first
    | exact .refl _ _ | apply (admitPlans_touches ..).thn | apply (copyBody_touches ..).thn
    | apply (copyContents_touches ..).thn | apply (fillPinned_touches ..).thn | apply (loadTables_touches ..).thn
    | apply (newTrackers_touches ..).thn | split
  all_goals decide

theorem readHistory_touches (bad : Bool) (s : State) : Touches [.faults, .integrity] s (readHistory bad s) := by
  unfold readHistory
  repeat' with_reducible first
    | (extract_lets +onlyGivenNames u; subst u) | exact .refl _ _ | split | apply update
  all_goals first
    | decide
    | (intro q hq; cases q <;> first | exact absurd (by decide) hq | simp only [Part.same, and_self])
    | simp only [State.shaped, imp_self]

theorem judgeHistory_touches (bad : Bool) (s : State) : Touches eclipseParts s (judgeHistory bad s) := by
  unfold judgeHistory
  repeat' with_reducible first
    | (extract_lets +onlyGivenNames u; apply cut u; unfold u; clear u; rotate_left; clear_value u; intro hu; rotate_right)
    | (extract_lets +onlyGivenNames u; subst u) | assumption | exact .refl _ _ | apply (dawnEclipse_touches ..).thn
    | apply (dawnRaise_touches ..).thn | split | apply update
  all_goals first
    | decide
    | (intro q hq; cases q <;> first | exact absurd (by decide) hq | simp only [Part.same, and_self])
    | simp only [State.shaped, imp_self]

theorem advanceBoot_touches (s : State) : Touches [.flash] s (advanceBoot s) := by
  unfold advanceBoot
  repeat' with_reducible first
    | (extract_lets +onlyGivenNames u; subst u) | assumption | exact .refl _ _ | apply (writeBoot_touches ..).thn
    | split
  all_goals decide

theorem raiseCounters_touches (s : State) : Touches [.flash] s (raiseCounters s) := by
  unfold raiseCounters
  repeat' with_reducible first
    | (extract_lets +onlyGivenNames u; subst u) | assumption | exact .refl _ _ | split | apply update
  all_goals first
    | decide
    | (intro q hq; cases q <;> first | exact absurd (by decide) hq | simp only [Part.same, and_self])
    | simp only [State.shaped, imp_self]

theorem formRing_touches (i : DawnInput) (s : State) : Touches [.code, .link, .host] s (formRing i s) := by
  unfold formRing
  repeat' with_reducible first
    | exact .refl _ _ | apply (bringUpPort_touches ..).thn | apply (trainingFlit_touches ..).thn
    | apply Touches.foldl; intro _ _
  all_goals decide

theorem passDawn_touches (s : State) :
    Touches [.host, .flash, .dawn, .integrity, .stratus, .pins] s (passDawn s) := by
  unfold passDawn
  repeat' with_reducible first
    | (extract_lets +onlyGivenNames u; apply cut u; unfold u; clear u; rotate_left; clear_value u; intro hu; rotate_right)
    | (extract_lets +onlyGivenNames u; subst u) | assumption | exact .refl _ _ | apply (advanceBoot_touches ..).thn
    | apply (raiseCounters_touches ..).thn | apply update
  all_goals first
    | decide
    | (intro q hq; cases q <;> first | exact absurd (by decide) hq | simp only [Part.same, and_self])
    | simp only [State.shaped, imp_self]

theorem powerRails_touches (ga : BitVec 4) (s : State) : Touches [.dawn, .stratus] s (powerRails ga s) := by
  unfold powerRails
  repeat' with_reducible first
    | (extract_lets +onlyGivenNames u; subst u) | exact .refl _ _ | apply update
  all_goals first
    | decide
    | (intro q hq; cases q <;> first | exact absurd (by decide) hq | simp only [Part.same, and_self])
    | simp only [State.shaped, imp_self]

theorem drawKey_touches (s : State) : Touches [.dawn] s (drawKey s) := by
  refine update ((State.free_touches s).mono) id ?_
  intro q hq; cases q <;> first | exact absurd (by decide) hq | simp only [Part.same, and_self]

theorem bootImages_touches (puf : Bytes) (s : State) :
    Touches (.flash :: .plans :: eclipseParts) s (bootImages puf s) :=
  .via (dawnStep_touches _ _ checkSafety_touches) (.via (dawnStep_touches _ _ fun _ => pickPlanImage_touches ..)
    (.via (pickFirmware_touches ..) (.via (beginTrial_touches ..) ((beginTrial_touches ..).mono))))

theorem bringUp_touches (i : DawnInput) (s : State) : Touches allParts s (bringUp i s) :=
  .via (dawnStep_touches _ _ passDawn_touches) (.via (dawnStep_touches _ _ fun _ => formRing_touches ..)
    (.via (dawnStep_touches _ _ fun _ => judgeHistory_touches ..) (.via
      (dawnStep_touches _ _ fun _ => loadPlans_touches ..)
      (.via (dawnStep_touches _ _ fun _ => retried_touches ..) (.via
        (dawnStep_touches _ _ fun _ => trainMemory_touches ..)
        (.via (dawnStep_touches _ _ fun _ => checkCounters_touches ..)
          (.via (dawnStep_touches _ _ fun _ => deriveIdentity_touches ..) (.via (bootImages_touches ..)
            (.via (readHistory_touches ..) (.via (drawKey_touches _) ((powerRails_touches ..).mono)))))))))))

theorem reportTrips_touches (s : State) : Touches [.code, .host, .stratus] s (reportTrips s) := by
  unfold reportTrips
  repeat' with_reducible first
    | (extract_lets +onlyGivenNames u; apply cut u; unfold u; clear u; rotate_left; clear_value u; intro hu; rotate_right)
    | (extract_lets +onlyGivenNames u; subst u) | assumption | exact .refl _ _ | apply (raise_touches ..).thn
    | apply Touches.foldl; intro _ _ | split | apply update
  all_goals first
    | decide
    | (intro q hq; cases q <;> first | exact absurd (by decide) hq | simp only [Part.same, and_self])
    | simp only [State.shaped, imp_self]

theorem coldDawn_touches (i : DawnInput) (s : State) : Touches allParts s (coldDawn i s) := by
  unfold coldDawn
  repeat' with_reducible first
    | (extract_lets +onlyGivenNames u; apply cut u; unfold u; clear u; rotate_left; clear_value u; intro hu; rotate_right)
    | (extract_lets +onlyGivenNames u; subst u) | assumption | exact .refl _ _ | apply (bringUp_touches ..).thn
    | apply (reportTrips_touches ..).thn | apply (trip_touches ..).thn | split | apply update
  all_goals first
    | decide
    | (intro q hq; cases q <;> first | exact absurd (by decide) hq | simp only [Part.same, and_self])
    | simp only [State.shaped, imp_self]

theorem dawnOverrun_touches (step : Nat) (s : State) :
    Touches [.tick, .job, .frames, .code, .banks, .progress, .engines, .mem, .tier, .media, .link, .host, .flash,
      .plans, .dawn, .faults, .integrity, .nimbus, .pins]
      s (dawnOverrun step s) := by
  unfold dawnOverrun
  repeat' with_reducible first
    | (extract_lets +onlyGivenNames u; apply cut u; unfold u; clear u; rotate_left; clear_value u; intro hu; rotate_right)
    | (extract_lets +onlyGivenNames u; subst u) | assumption | exact .refl _ _ | apply (coldReset_touches ..).thn
    | apply (dawnEclipse_touches ..).thn | split | apply update
  all_goals first
    | decide
    | (intro q hq; cases q <;> first | exact absurd (by decide) hq | simp only [Part.same])
    | simp only [State.shaped, imp_self]

theorem missedRecords_touches (fuel : Nat) (s : State) :
    Touches [.tick, .job, .frames, .code, .tier, .link, .host, .integrity] s (missedRecords fuel s) := by
  induction fuel generalizing s with
  | zero => exact refl ..
  | succ fuel ih =>
    simp only [missedRecords]
    split
    · exact .via (ih _) (deliver_touches s)
    · exact refl ..

theorem passWarm_touches (s : State) :
    Touches [.tick, .job, .frames, .code, .banks, .progress, .engines, .mem, .tier, .media, .link, .host, .dawn,
      .integrity, .stratus, .pins]
      s (passWarm s) := by
  unfold passWarm
  repeat' with_reducible first
    | (extract_lets +onlyGivenNames u; apply cut u; unfold u; clear u; rotate_left; clear_value u; intro hu; rotate_right)
    | (extract_lets +onlyGivenNames u; subst u) | assumption | exact .refl _ _ | apply (drawKey_touches ..).thn
    | apply (endComputeReset_touches ..).thn | apply (endReset_touches ..).thn | apply (loadBank_touches ..).thn
    | apply (missedRecords_touches ..).thn | apply update
  all_goals first
    | decide
    | (intro q hq; cases q <;> first | exact absurd (by decide) hq | simp only [Part.same, and_self])
    | simp only [State.shaped, List.length_map, imp_self]

theorem warmDawn_touches (selfTestOk : Bool) (tablesOk : Bool) (s : State) :
    Touches offParts s (warmDawn selfTestOk tablesOk s) := by
  unfold warmDawn
  repeat' with_reducible first
    | exact .refl _ _ | apply (coldReset_touches ..).thn | apply (passWarm_touches ..).thn | split
  all_goals decide

theorem issue_touches {core : Nat} {host : Bytes} {asked : Bytes → Bool} {tensors : State → Bytes → List Nat}
    {work : Access → Bytes → State → Work} {s t : State} (h : issue core host asked tensors work s = .next t) :
    Touches jobParts s t := by
  unfold issue at h
  repeat' split at h
  all_goals first | cases h | skip
  · exact refl ..
  · exact refl ..
  · exact (waitIssue_touches ..).mono
  · exact .via (launch_touches ..) (.foldl (fun _ _ => (chargeTensor_touches ..).mono) (refl ..))

/-- What a collective that issues does: it is launched, each peer from which data is to come has its CLEAR,
a move makes its local part, and the run goes as far as it can. -/
def collStarted (core place : Nat) (c : Bytes) (s : State) : State :=
  let s := launch core place c (accessFor s core c []) {} false ((collTensors s c).foldl chargeLink s)
  let s := (collPeers s c).foldl (fun s q =>
    let (np, nd) := incoming s c q.1
    if np + nd == 0 then s else sendCollControl 0x10 c q.2 [] s) s
  let s := if isMm c then s else moveLocal core c s
  match s.run core (cmdIndex c) with | some r => progress r s | none => s

theorem issueColl_next {asked : Bytes → Bool} {core : Nat} {s t : State} (h : issueColl asked core s = .next t) :
    t = s ∨ (∃ c, t = waitIssue core c s) ∨ ∃ place c, t = collStarted core place c s := by
  unfold issueColl at h
  split at h
  · cases h
    exact .inl rfl
  next place c _ =>
    split at h
    · cases h
      exact .inl rfl
    split at h
    · cases h
      exact .inr (.inl ⟨c, rfl⟩)
    split at h
    · cases h
    · cases h
      exact .inr (.inr ⟨place, c, rfl⟩)

theorem collStarted_touches (core place : Nat) (c : Bytes) (s : State) :
    Touches jobParts s (collStarted core place c s) := by
  unfold collStarted
  extract_lets u v w
  have hu : Touches jobParts s u :=
    .via (launch_touches ..) (.foldl (fun _ _ => (chargeLink_touches ..).mono) (refl ..))
  have hv : Touches jobParts s v := by
    refine .foldl (fun x q => ?_) hu
    dsimp only
    split
    · exact refl ..
    · exact (sendCollControl_touches ..).mono
  have hw : Touches jobParts s w := by
    unfold w
    split
    · exact hv
    · exact .via (moveLocal_touches ..) hv
  split
  · exact .via (progress_touches ..) hw
  · exact hw

theorem issueColl_touches {asked : Bytes → Bool} {core : Nat} {s t : State} (h : issueColl asked core s = .next t) :
    Touches jobParts s t := by
  obtain rfl | ⟨c, rfl⟩ | ⟨place, c, rfl⟩ := issueColl_next h
  · exact refl ..
  · exact (waitIssue_touches ..).mono
  · exact collStarted_touches ..
end Sys2Proof.Machine

namespace Sys2Proof

open Machine

/-- The parts of the state that a command can touch. -/
def Instr.scope (c : Instr) : List Part := match c with
  | .framePulseEdge .. | .wordClockEdge .. | .internalBoundary .. | .flywheelBoundary ..
  | .boundaryForwardTimeout .. => runParts
  | .lockLossTimeout .. | .wordClockUnlock .. => [.tick, .job, .code, .tier, .host, .integrity]
  | .wordClockLock .. => [.tick]
  | .tickCommit .. => [.job, .frames, .mem, .tier, .media, .link, .host, .integrity]
  | .deliverySlot .. => [.tick, .job, .frames, .code, .tier, .link, .host, .integrity]
  | .drainEnd .. => [.tick, .job, .frames, .progress, .engines, .tier, .media, .link, .integrity]
  | .recoveryComplete .. | .jobStart .. => .banks :: faultParts
  | .wait .. | .signal .. | .commit .. | .commandFinish .. | .cirrusArbitration .. | .parityFault ..
  | .uncorrectableError .. | .partitionFault .. | .fillComplete .. | .data .. | .part .. | .clear .. | .done ..
  | .ready .. | .abort .. | .resume .. | .request .. | .idleFlit .. | .nak .. | .replayStallTimeout ..
  | .fecLockLoss .. => faultParts
  | .eccCorrected .. | .watchPeriodEnd .. => [.code, .host, .integrity]
  | .historyWrite .. => [.code, .host, .flash, .integrity]
  | .fillStart .. => [.code, .tier, .host]
  | .accessUnitStaged .. | .decodedPictureStaged .. => [.frames, .code, .mem, .tier, .media, .host]
  | .tick .. => .nimbus :: faultParts
  | .ident .. | .probe .. | .portTrainingTimeout .. => [.code, .link, .host]
  | .portUp .. | .memberDuskCause .. | .newestCommittedTickReport .. => [.link]
  | .ringT0Decision .. =>
    [.tick, .job, .frames, .code, .progress, .engines, .mem, .tier, .media, .link, .host, .integrity]
  | .jobEnd .. | .keyframe .. | .splitExact .. => [.job, .code, .link, .host]
  | .maintEnter .. | .maintExit .. => [.job, .code, .host]
  | .storeWrite .. | .attest .. | .telemetry .. | .historyRead .. | .registerWrite .. => [.code, .mem, .host]
  | .tableLoad .. | .selftest .. => .banks :: verdictParts
  | .stageImage .. => .flash :: eclipseParts
  | .mailboxUnknownOpcode .. | .errEntryRead .. | .msixSignal .. | .configurationRequest .. | .pcieLinkLoss ..
  | .i3cStatus .. | .i3cTelemetry .. | .i3cSafety .. | .i3cTrip .. | .i3cUnknownCommand .. | .perstNDeassert ..
  | .errEntryLastRead .. => [.host]
  | .inputRecord .. | .hqInTail .. | .mbxReqTail .. | .hqBase .. | .hqSize .. | .hqStatusBase .. | .ringDisable ..
  | .unsupportedBar0Access .. | .register64LowRead .. | .dmaCompletionError .. | .flrComplete ..
  | .register64HighRead .. => [.code, .host]
  | .hqOutHead .. | .hqDataHead .. | .mbxRspHead .. | .evtHead .. | .ringEnable .. | .pcieLinkTrained .. =>
    [.job, .code, .tier, .host]
  | .sensorImplausible .. | .nimbusDuskRequest .. =>
    [.tick, .job, .code, .tier, .link, .host, .integrity, .nimbus, .stratus]
  | .nimbusSample .. | .valveCommandUpdate .. => [.nimbus]
  | .watchdogService .. => [.host, .stratus]
  | .i3cSetdasa .. | .i3cEntdaa .. | .i3cSetmrl .. => [.pins]
  | .i3cEvent .. | .inBandInterruptRetry .. => [.host, .pins]
  | .mpLockstepFault .. | .clockLockLoss .. | .moduleReset .. | .pwrEnAssert .. | .pwrEnDeassert ..
  | .senseNOpen .. | .senseNClosed .. | .coldDawn .. | .dawnStepOverrun .. | .warmDawn .. | .stratusTrip ..
  | .hwOvercurrentTrip .. | .powerStageConducting .. | .safeStateExit .. | .watchdogMiss ..
  | .stratusAnswerMissing .. | .stratusSupplyLoss .. | .stratusSupplyReturn .. => allParts
  | _ => jobParts

end Sys2Proof

namespace Sys2Proof.Machine

open Touches

theorem execFramePulseEdge_touches {t : Nat} {s u : State} (h : execFramePulseEdge t s = .next u) :
    Touches runParts (s.arrive t) u := by
  cases h
  generalize s.arrive _ = u
  repeat' with_reducible first
    | exact .refl _ _ | apply (pulseEdge_touches ..).thn | split
  all_goals decide

theorem execWordClockEdge_touches {t : Nat} {inTolerance : Bool} {s u : State}
    (h : execWordClockEdge t inTolerance s = .next u) :
    Touches runParts (s.arrive t) u := by
  cases h
  generalize s.arrive _ = u
  repeat' with_reducible first
    | exact .refl _ _ | apply (wordEdge_touches ..).thn | split
  all_goals decide

theorem execWordClockLock_touches {rate : Timed Nat} {s u : State} (h : execWordClockLock rate s = .next u) :
    Touches [.tick] (s.arrive rate.time) u := by
  cases h
  generalize s.arrive _ = u
  repeat' with_reducible first
    | exact .refl _ _ | apply (showLock_touches ..).thn | apply (setClock_touches ..).thn | split
  all_goals decide

theorem execWordClockUnlock_touches {rate : Timed Nat} {s u : State} (h : execWordClockUnlock rate s = .next u) :
    Touches [.tick, .job, .code, .tier, .host, .integrity] (s.arrive rate.time) u := by
  cases h
  generalize s.arrive _ = u
  repeat' with_reducible first
    | exact .refl _ _ | apply (clockUnlock_touches ..).thn | split
  all_goals decide

theorem execEccCorrected_touches {t : Nat} {kind : CorrectedKind} {partition : Nat} {s u : State}
    (h : execEccCorrected t kind partition s = .next u) :
    Touches [.code, .host, .integrity] (s.arrive t) u := by
  cases h
  generalize s.arrive _ = u
  repeat' with_reducible first
    | exact .refl _ _ | apply (raiseAs_touches ..).thn | apply (countKind_touches ..).thn | split
  all_goals decide

theorem execUncorrectableError_touches {t : Nat} {kind : UncorrectableKind} {unit site : BitVec 32} {s u : State}
    (h : execUncorrectableError t kind unit site s = .next u) :
    Touches faultParts (s.arrive t) u := by
  cases h
  generalize s.arrive _ = u
  repeat' with_reducible first
    | exact .refl _ _ | apply (countKind_touches ..).thn | apply (setStatus_touches ..).thn
    | apply (poison_touches ..).thn | apply (levelTwo_touches ..).thn | apply (bridgeFault_touches ..).thn | split
  all_goals decide

theorem execPartitionFault_touches {t partition : Nat} {unit site : BitVec 32} {s u : State}
    (h : execPartitionFault t partition unit site s = .next u) : Touches faultParts (s.arrive t) u := by
  cases h
  generalize s.arrive _ = u
  have counted : Touches faultParts u (countError 0x4303 .management true unit site partition u) :=
    (countError_touches ..).mono
  dsimp only
  repeat' split
  · exact refl ..
  · exact counted
  · exact .via (beginReset_touches ..) counted

theorem execWatchPeriodEnd_touches {t : Nat} {s u : State} (h : execWatchPeriodEnd t s = .next u) :
    Touches [.code, .host, .integrity] (s.arrive t) u := by
  cases h
  generalize s.arrive _ = u
  repeat' with_reducible first
    | exact .refl _ _ | apply (raise_touches ..).thn | apply (applyWatchEnd_touches ..).thn
    | apply (pageSoon_touches ..).thn | split | apply update
  all_goals first
    | decide
    | (intro q hq; cases q <;> first | exact absurd (by decide) hq | simp only [Part.same, and_self])
    | simp only [State.shaped, imp_self]

theorem execAccessUnitStaged_touches {t entry frame tick : Nat} {s u : State}
    (h : execAccessUnitStaged t entry frame tick s = .next u) :
    Touches [.frames, .code, .mem, .tier, .media, .host] (s.arrive t) u := by
  cases h
  generalize s.arrive _ = u
  repeat' with_reducible first
    | exact .refl _ _ | apply (stageUnit_touches ..).thn | split
  all_goals decide

theorem execDecodedPictureStaged_touches {t entry frame tick set : Nat} {s u : State}
    (h : execDecodedPictureStaged t entry frame tick set s = .next u) :
    Touches [.frames, .code, .mem, .tier, .media, .host] (s.arrive t) u := by
  cases h
  generalize s.arrive _ = u
  repeat' with_reducible first
    | exact .refl _ _ | apply (stagePicture_touches ..).thn | split
  all_goals decide

theorem execData_touches {t port : Nat} {flit : Bytes} {errors : Nat} {s u : State}
    (h : execData t port flit errors s = .next u) :
    Touches faultParts (s.arrive t) u := by
  cases h
  generalize s.arrive _ = u
  repeat' with_reducible first
    | exact .refl _ _ | apply (takeColl_touches ..).thn | (apply receive_touches; try intro _) | split | apply update
  all_goals decide

theorem execPart_touches {t port : Nat} {flit : Bytes} {errors : Nat} {s u : State}
    (h : execPart t port flit errors s = .next u) :
    Touches faultParts (s.arrive t) u := by
  cases h
  generalize s.arrive _ = u
  repeat' with_reducible first
    | exact .refl _ _ | apply (takeColl_touches ..).thn | (apply receive_touches; try intro _) | split | apply update
  all_goals decide

theorem execClear_touches {t port : Nat} {flit : Bytes} {errors : Nat} {s u : State}
    (h : execClear t port flit errors s = .next u) :
    Touches faultParts (s.arrive t) u := by
  cases h
  generalize s.arrive _ = u
  repeat' with_reducible first
    | exact .refl _ _ | apply (takeClear_touches ..).thn | (apply receive_touches; try intro _) | split
  all_goals decide

theorem execDone_touches {t port : Nat} {flit : Bytes} {errors : Nat} {s u : State}
    (h : execDone t port flit errors s = .next u) :
    Touches faultParts (s.arrive t) u := by
  cases h
  generalize s.arrive _ = u
  repeat' with_reducible first
    | exact .refl _ _ | apply (takeColl_touches ..).thn | (apply receive_touches; try intro _) | split | apply update
  all_goals decide

theorem execTick_touches {t port : Nat} {flit : Bytes} {errors : Nat} {s u : State}
    (h : execTick t port flit errors s = .next u) :
    Touches (.nimbus :: faultParts) (s.arrive t) u := by
  cases h
  generalize s.arrive _ = u
  repeat' with_reducible first
    | exact .refl _ _ | apply (takeTick_touches ..).thn | (apply receive_touches; try intro _) | split
  all_goals decide

theorem execReady_touches {t port : Nat} {flit : Bytes} {errors : Nat} {s u : State}
    (h : execReady t port flit errors s = .next u) :
    Touches faultParts (s.arrive t) u := by
  cases h
  generalize s.arrive _ = u
  repeat' with_reducible first
    | exact .refl _ _ | apply (takeReady_touches ..).thn | (apply receive_touches; try intro _) | split
  all_goals decide

theorem execAbort_touches {t port : Nat} {flit : Bytes} {errors : Nat} {s u : State}
    (h : execAbort t port flit errors s = .next u) :
    Touches faultParts (s.arrive t) u := by
  cases h
  generalize s.arrive _ = u
  repeat' with_reducible first
    | exact .refl _ _ | apply (takeAbortFlit_touches ..).thn | (apply receive_touches; try intro _) | split
  all_goals decide

theorem execResume_touches {t port : Nat} {flit : Bytes} {errors : Nat} {s u : State}
    (h : execResume t port flit errors s = .next u) :
    Touches faultParts (s.arrive t) u := by
  cases h
  generalize s.arrive _ = u
  repeat' with_reducible first
    | exact .refl _ _ | apply (takeResume_touches ..).thn | (apply receive_touches; try intro _) | split
  all_goals decide

theorem execRequest_touches {t port : Nat} {flit : Bytes} {errors : Nat} {s u : State}
    (h : execRequest t port flit errors s = .next u) :
    Touches faultParts (s.arrive t) u := by
  cases h
  generalize s.arrive _ = u
  repeat' with_reducible first
    | exact .refl _ _ | apply (takeRequest_touches ..).thn | (apply receive_touches; try intro _) | split
  all_goals decide

theorem execIdent_touches {t port : Nat} {flit : Bytes} {errors delayNs : Nat} {s u : State}
    (h : execIdent t port flit errors delayNs s = .next u) :
    Touches [.code, .link, .host] (s.arrive t) u := by
  cases h
  generalize s.arrive _ = u
  repeat' with_reducible first
    | exact .refl _ _ | apply (takeIdent_touches ..).thn | (apply hearPlain_touches; try intro _) | split
  all_goals decide

theorem execProbe_touches {t port : Nat} {flit : Bytes} {errors : Nat} {s u : State}
    (h : execProbe t port flit errors s = .next u) :
    Touches [.code, .link, .host] (s.arrive t) u := by
  cases h
  generalize s.arrive _ = u
  repeat' with_reducible first
    | exact .refl _ _ | apply (takeProbe_touches ..).thn | (apply hearPlain_touches; try intro _) | split
  all_goals decide

theorem execIdleFlit_touches {t port : Nat} {flit : Bytes} {errors : Nat} {s u : State}
    (h : execIdleFlit t port flit errors s = .next u) :
    Touches faultParts (s.arrive t) u := by
  cases h
  generalize s.arrive _ = u
  repeat' with_reducible first
    | exact .refl _ _ | apply (formationDue_touches ..).thn | apply (takeHeader_touches ..).thn
    | (apply hearPlain_touches; try intro _) | split
  all_goals decide

theorem execNak_touches {t port : Nat} {flit : Bytes} {errors : Nat} {s u : State}
    (h : execNak t port flit errors s = .next u) :
    Touches faultParts (s.arrive t) u := by
  cases h
  generalize s.arrive _ = u
  repeat' with_reducible first
    | exact .refl _ _ | apply (takeHeader_touches ..).thn | (apply hearPlain_touches; try intro _) | split
  all_goals decide

theorem execReplayStallTimeout_touches {t port : Nat} {s u : State} (h : execReplayStallTimeout t port s = .next u) :
    Touches faultParts (s.arrive t) u := by
  cases h
  generalize s.arrive _ = u
  repeat' with_reducible first
    | exact .refl _ _ | apply (portDown_touches ..).thn | split
  all_goals decide

theorem execFecLockLoss_touches {t port lane : Nat} {s u : State} (h : execFecLockLoss t port lane s = .next u) :
    Touches faultParts (s.arrive t) u := by
  cases h
  generalize s.arrive _ = u
  repeat' with_reducible first
    | exact .refl _ _ | apply (portDown_touches ..).thn | split
  all_goals decide

theorem execPortUp_touches {t port : Nat} {s u : State} (h : execPortUp t port s = .next u) :
    Touches [.link] (s.arrive t) u := by
  cases h
  generalize s.arrive _ = u
  repeat' with_reducible first
    | exact .refl _ _ | apply (bringUpPort_touches ..).thn | split
  all_goals decide

theorem execPortTrainingTimeout_touches {t port : Nat} {s u : State}
    (h : execPortTrainingTimeout t port s = .next u) :
    Touches [.code, .link, .host] (s.arrive t) u := by
  cases h
  generalize s.arrive _ = u
  repeat' with_reducible first
    | exact .refl _ _ | apply (State.setPort_touches ..).thn | apply (raiseAs_touches ..).thn
    | apply (formationDue_touches ..).thn | apply (notePort_touches ..).thn | split
  all_goals decide

theorem execReadyTimeout_touches {t : Nat} {s u : State} (h : execReadyTimeout t s = .next u) :
    Touches jobParts (s.arrive t) u := by
  cases h
  generalize s.arrive _ = u
  repeat' with_reducible first
    | exact .refl _ _ | apply (startAbort_touches ..).thn | split
  all_goals decide

theorem execRingRecoveryTimeout_touches {t : Nat} {s u : State} (h : execRingRecoveryTimeout t s = .next u) :
    Touches jobParts (s.arrive t) u := by
  cases h
  generalize s.arrive _ = u
  repeat' with_reducible first
    | exact .refl _ _ | apply (raiseAs_touches ..).thn | apply (duskStop_touches ..).thn | split
  all_goals decide

theorem execJobStart_touches {t : Nat} {req : Bytes} {input : StartInput} {s u : State}
    (h : execJobStart t req input s = .next u) : Touches (.banks :: faultParts) (s.arrive t) u := by
  cases h
  refine .via (serve_touches (ps := .banks :: faultParts) _ _ _ _ _ fun _ => ?_) ((formationDue_touches _).mono)
  exact (startJob_touches ..).mono

theorem execJobEnd_touches {t : Nat} {req : Bytes} {s u : State} (h : execJobEnd t req s = .next u) :
    Touches [.job, .code, .link, .host] (s.arrive t) u := by
  cases h
  generalize s.arrive _ = u
  repeat' with_reducible first
    | exact .refl _ _ | apply (respond_touches ..).thn | apply (forwardRequest_touches ..).thn
    | apply (noteEnd_touches ..).thn | (apply serve_touches; try intro _) | split
  all_goals decide

theorem execJobPreempt_touches {t : Nat} {req : Bytes} {s u : State} (h : execJobPreempt t req s = .next u) :
    Touches jobParts (s.arrive t) u := by
  cases h
  generalize s.arrive _ = u
  repeat' with_reducible first
    | exact .refl _ _ | apply (respond_touches ..).thn | apply (forwardRequest_touches ..).thn
    | apply (applyStop_touches ..).thn | (apply serve_touches; try intro _) | split
  all_goals decide

theorem execJobAbort_touches {t : Nat} {req : Bytes} {s u : State} (h : execJobAbort t req s = .next u) :
    Touches jobParts (s.arrive t) u := by
  cases h
  generalize s.arrive _ = u
  repeat' with_reducible first
    | exact .refl _ _ | apply (respond_touches ..).thn | apply (forwardRequest_touches ..).thn
    | apply (applyStop_touches ..).thn | (apply serve_touches; try intro _) | split
  all_goals decide

theorem execKeyframe_touches {t : Nat} {req : Bytes} {s u : State} (h : execKeyframe t req s = .next u) :
    Touches [.job, .code, .link, .host] (s.arrive t) u := by
  cases h
  generalize s.arrive _ = u
  repeat' with_reducible first
    | exact .refl _ _ | apply (respond_touches ..).thn | apply (forwardRequest_touches ..).thn
    | apply (noteKeys_touches ..).thn | (apply serve_touches; try intro _) | split
  all_goals decide

theorem execSplitExact_touches {t : Nat} {req : Bytes} {s u : State} (h : execSplitExact t req s = .next u) :
    Touches [.job, .code, .link, .host] (s.arrive t) u := by
  cases h
  generalize s.arrive _ = u
  repeat' with_reducible first
    | exact .refl _ _ | apply (respond_touches ..).thn | apply (forwardRequest_touches ..).thn
    | apply (noteSplit_touches ..).thn | (apply serve_touches; try intro _) | split
  all_goals decide

theorem execMaintEnter_touches {t : Nat} {req : Bytes} {s u : State} (h : execMaintEnter t req s = .next u) :
    Touches [.job, .code, .host] (s.arrive t) u := by
  cases h
  generalize s.arrive _ = u
  repeat' with_reducible first
    | exact .refl _ _ | apply (respond_touches ..).thn | (apply serve_touches; try intro _) | split | apply update
  all_goals first
    | decide
    | (intro q hq; cases q <;> first | exact absurd (by decide) hq | simp only [Part.same, and_self])
    | simp only [State.shaped, imp_self]

theorem execMaintExit_touches {t : Nat} {req : Bytes} {s u : State} (h : execMaintExit t req s = .next u) :
    Touches [.job, .code, .host] (s.arrive t) u := by
  cases h
  generalize s.arrive _ = u
  repeat' with_reducible first
    | exact .refl _ _ | apply (respond_touches ..).thn | (apply serve_touches; try intro _) | split | apply update
  all_goals first
    | decide
    | (intro q hq; cases q <;> first | exact absurd (by decide) hq | simp only [Part.same, and_self])
    | simp only [State.shaped, imp_self]

theorem execMailboxUnknownOpcode_touches {t : Nat} {req : Bytes} {s u : State}
    (h : execMailboxUnknownOpcode t req s = .next u) :
    Touches [.host] (s.arrive t) u := by
  cases h
  generalize s.arrive _ = u
  repeat' with_reducible first
    | exact .refl _ _ | apply (respond_touches ..).thn | apply (pickup_touches ..).thn | split
  all_goals decide

theorem execHqInTail_touches {t : Nat} {value : BitVec 32} {s u : State} (h : execHqInTail t value s = .next u) :
    Touches [.code, .host] (s.arrive t) u := by
  cases h
  generalize s.arrive _ = u
  repeat' with_reducible first
    | exact .refl _ _ | apply (arriveRecords_touches ..).thn | (apply writePointer_touches; try intro _) | split
  all_goals decide

theorem execHqOutHead_touches {t : Nat} {value : BitVec 32} {s u : State} (h : execHqOutHead t value s = .next u) :
    Touches [.job, .code, .tier, .host] (s.arrive t) u := by
  cases h
  generalize s.arrive _ = u
  repeat' with_reducible first
    | exact .refl _ _ | apply (afterRoom_touches ..).thn | (apply writePointer_touches; try intro _) | split
  all_goals decide

theorem execHqDataHead_touches {t : Nat} {value : BitVec 32} {s u : State} (h : execHqDataHead t value s = .next u) :
    Touches [.job, .code, .tier, .host] (s.arrive t) u := by
  cases h
  generalize s.arrive _ = u
  repeat' with_reducible first
    | exact .refl _ _ | apply (afterRoom_touches ..).thn | (apply writePointer_touches; try intro _) | split
  all_goals decide

theorem execMbxReqTail_touches {t : Nat} {value : BitVec 32} {s u : State} (h : execMbxReqTail t value s = .next u) :
    Touches [.code, .host] (s.arrive t) u := by
  cases h
  generalize s.arrive _ = u
  repeat' with_reducible first
    | exact .refl _ _ | (apply writePointer_touches; try intro _) | simp only [id_eq] | split
  all_goals decide

theorem execMbxRspHead_touches {t : Nat} {value : BitVec 32} {s u : State} (h : execMbxRspHead t value s = .next u) :
    Touches [.job, .code, .tier, .host] (s.arrive t) u := by
  cases h
  generalize s.arrive _ = u
  repeat' with_reducible first
    | exact .refl _ _ | apply (afterRoom_touches ..).thn | (apply writePointer_touches; try intro _) | split
  all_goals decide

theorem execEvtHead_touches {t : Nat} {value : BitVec 32} {s u : State} (h : execEvtHead t value s = .next u) :
    Touches [.job, .code, .tier, .host] (s.arrive t) u := by
  cases h
  generalize s.arrive _ = u
  repeat' with_reducible first
    | exact .refl _ _ | apply (afterRoom_touches ..).thn | (apply writePointer_touches; try intro _) | split
  all_goals decide

theorem execHqBase_touches {t ring : Nat} {value : BitVec 64} {s u : State}
    (h : execHqBase t ring value s = .next u) :
    Touches [.code, .host] (s.arrive t) u := by
  cases h
  generalize s.arrive _ = u
  repeat' with_reducible first
    | exact .refl _ _ | apply (State.setRing_touches ..).thn | apply (raise_touches ..).thn | split | apply update
  all_goals decide

theorem execHqSize_touches {t ring : Nat} {value : BitVec 32} {s u : State}
    (h : execHqSize t ring value s = .next u) :
    Touches [.code, .host] (s.arrive t) u := by
  cases h
  generalize s.arrive _ = u
  repeat' with_reducible first
    | exact .refl _ _ | apply (State.setRing_touches ..).thn | apply (raise_touches ..).thn | split | apply update
  all_goals decide

theorem execHqStatusBase_touches {t : Nat} {value : BitVec 64} {s u : State}
    (h : execHqStatusBase t value s = .next u) :
    Touches [.code, .host] (s.arrive t) u := by
  cases h
  generalize s.arrive _ = u
  repeat' with_reducible first
    | exact .refl _ _ | apply (raise_touches ..).thn | split | apply update
  all_goals first
    | decide
    | (intro q hq; cases q <;> first | exact absurd (by decide) hq | simp only [Part.same, and_self])
    | simp only [State.shaped, imp_self]

theorem execRingEnable_touches {t ring : Nat} {s u : State} (h : execRingEnable t ring s = .next u) :
    Touches [.job, .code, .tier, .host] (s.arrive t) u := by
  cases h
  generalize s.arrive _ = u
  repeat' with_reducible first
    | exact .refl _ _ | apply (enableRing_touches ..).thn | split
  all_goals decide

theorem execRingDisable_touches {t ring : Nat} {s u : State} (h : execRingDisable t ring s = .next u) :
    Touches [.code, .host] (s.arrive t) u := by
  cases h
  generalize s.arrive _ = u
  repeat' with_reducible first
    | exact .refl _ _ | apply (disableRing_touches ..).thn | split
  all_goals decide

theorem execRegisterWrite_touches {t : Nat} {addr : BarAddress} {data : Bytes} {s u : State}
    (h : execRegisterWrite t addr data s = .next u) :
    Touches [.code, .mem, .host] (s.arrive t) u := by
  cases h
  generalize s.arrive _ = u
  repeat' with_reducible first
    | exact .refl _ _ | apply (badAccess_touches ..).thn | apply (writeTable_touches ..).thn
    | apply (writeWindow_touches ..).thn | split
  all_goals decide

theorem execRegister64LowRead_touches {t : Nat} {read : BarRead} {s u : State}
    (h : execRegister64LowRead t read s = .next u) :
    Touches [.code, .host] (s.arrive t) u := by
  cases h
  generalize s.arrive _ = u
  repeat' with_reducible first
    | exact .refl _ _ | apply (readBar0_touches ..).thn | apply (badAccess_touches ..).thn
    | (apply readThrough_touches; try intro _) | split
  all_goals decide

theorem execErrEntryRead_touches {t n : Nat} {s u : State} (h : execErrEntryRead t n s = .next u) :
    Touches [.host] (s.arrive t) u := by
  cases h
  generalize s.arrive _ = u
  repeat' with_reducible first
    | exact .refl _ _ | apply (readBarWord_touches ..).thn | (apply readThrough_touches; try intro _) | split
  all_goals decide

theorem execMsixSignal_touches {t vector : Nat} {s u : State} (h : execMsixSignal t vector s = .next u) :
    Touches [.host] (s.arrive t) u := by
  cases h
  generalize s.arrive _ = u
  repeat' with_reducible first
    | exact .refl _ _ | split | apply update
  all_goals first
    | decide
    | (intro q hq; cases q <;> first | exact absurd (by decide) hq | simp only [Part.same, and_self])
    | simp only [State.shaped, List.length_set, imp_self]

theorem execDmaCompletionError_touches {t : Nat} {ring : Option Nat} {s u : State}
    (h : execDmaCompletionError t ring s = .next u) :
    Touches [.code, .host] (s.arrive t) u := by
  cases h
  generalize s.arrive _ = u
  repeat' with_reducible first
    | exact .refl _ _ | apply (State.setRing_touches ..).thn | apply (raise_touches ..).thn
    | apply (recordAer_touches ..).thn | apply (recordAer_touches ..).thn | split | apply update
  all_goals first
    | decide
    | (intro q hq; cases q <;> first | exact absurd (by decide) hq | simp only [Part.same, and_self])
    | simp only [State.shaped, imp_self]

theorem execConfigurationRequest_touches {offset : Timed Nat} {s u : State}
    (h : execConfigurationRequest offset s = .next u) :
    Touches [.host] (s.arrive offset.time) u := by
  cases h
  generalize s.arrive _ = u
  repeat' with_reducible first
    | exact .refl _ _ | apply (complete_touches ..).thn | apply (configurationWord_touches ..).thn | split
  all_goals decide

theorem execFunctionLevelReset_touches {t : Nat} {s u : State} (h : execFunctionLevelReset t s = .next u) :
    Touches jobParts (s.arrive t) u := by
  cases h
  generalize s.arrive _ = u
  repeat' with_reducible first
    | exact .refl _ _ | apply (beginFlr_touches ..).thn | split
  all_goals decide

theorem execFlrComplete_touches {t : Nat} {s u : State} (h : execFlrComplete t s = .next u) :
    Touches [.code, .host] (s.arrive t) u := by
  cases h
  generalize s.arrive _ = u
  repeat' with_reducible first
    | exact .refl _ _ | apply (raiseAs_touches ..).thn | split | apply update
  all_goals first
    | decide
    | (intro q hq; cases q <;> first | exact absurd (by decide) hq | simp only [Part.same, and_self])
    | simp only [State.shaped, imp_self]

theorem execConventionalReset_touches {t : Nat} {s u : State} (h : execConventionalReset t s = .next u) :
    Touches jobParts (s.arrive t) u := by
  cases h
  generalize s.arrive _ = u
  repeat' with_reducible first
    | exact .refl _ _ | apply (beginFlr_touches ..).thn | apply (linkDown_touches ..).thn | split
  all_goals decide

theorem execPwrEnAssert_touches {vinOk : Timed Bool} {s u : State} (h : execPwrEnAssert vinOk s = .next u) :
    Touches allParts (s.arrive vinOk.time) u := by
  cases h
  generalize s.arrive _ = u
  repeat' with_reducible first
    | exact .refl _ _ | apply (evaluatePower_touches ..).thn | split | apply update
  all_goals first
    | decide
    | (intro q hq; cases q <;> first | exact absurd (by decide) hq | simp only [Part.same, and_self])
    | simp only [State.shaped, imp_self]

theorem execPwrEnDeassert_touches {t : Nat} {s u : State} (h : execPwrEnDeassert t s = .next u) :
    Touches allParts (s.arrive t) u := by
  cases h
  generalize s.arrive _ = u
  repeat' with_reducible first
    | exact .refl _ _ | apply (removePower_touches ..).thn | split | apply update
  all_goals first
    | decide
    | (intro q hq; cases q <;> first | exact absurd (by decide) hq | simp only [Part.same, and_self])
    | simp only [State.shaped, imp_self]

theorem execSenseNOpen_touches {t : Nat} {s u : State} (h : execSenseNOpen t s = .next u) :
    Touches allParts (s.arrive t) u := by
  cases h
  generalize s.arrive _ = u
  repeat' with_reducible first
    | exact .refl _ _ | apply (removePower_touches ..).thn | split | apply update
  all_goals first
    | decide
    | (intro q hq; cases q <;> first | exact absurd (by decide) hq | simp only [Part.same, and_self])
    | simp only [State.shaped, imp_self]

theorem execSenseNClosed_touches {t : Nat} {s u : State} (h : execSenseNClosed t s = .next u) :
    Touches allParts (s.arrive t) u := by
  cases h
  generalize s.arrive _ = u
  repeat' with_reducible first
    | exact .refl _ _ | apply (evaluatePower_touches ..).thn | split | apply update
  all_goals first
    | decide
    | (intro q hq; cases q <;> first | exact absurd (by decide) hq | simp only [Part.same, and_self])
    | simp only [State.shaped, imp_self]

theorem execStratusTrip_touches {t : Nat} {input : TripInput} {s u : State}
    (h : execStratusTrip t input s = .next u) :
    Touches allParts (s.arrive t) u := by
  cases h
  generalize s.arrive _ = u
  repeat' with_reducible first
    | exact .refl _ _ | apply (trip_touches ..).thn | split | apply update
  all_goals first
    | decide
    | (intro q hq; cases q <;> first | exact absurd (by decide) hq | simp only [Part.same, and_self])
    | simp only [State.shaped, imp_self]

theorem execHwOvercurrentTrip_touches {t : Nat} {s u : State} (h : execHwOvercurrentTrip t s = .next u) :
    Touches allParts (s.arrive t) u := by
  cases h
  generalize s.arrive _ = u
  repeat' with_reducible first
    | exact .refl _ _ | apply (trip_touches ..).thn | split
  all_goals decide

theorem execPowerStageConducting_touches {t : Nat} {s u : State} (h : execPowerStageConducting t s = .next u) :
    Touches allParts (s.arrive t) u := by
  cases h
  generalize s.arrive _ = u
  repeat' with_reducible first
    | exact .refl _ _ | apply (trip_touches ..).thn | split
  all_goals decide

theorem execSafeStateExit_touches {readings : Timed Readings} {s u : State}
    (h : execSafeStateExit readings s = .next u) :
    Touches allParts (s.arrive readings.time) u := by
  cases h
  generalize s.arrive _ = u
  repeat' with_reducible first
    | exact .refl _ _ | apply (evaluatePower_touches ..).thn | split | apply update
  all_goals first
    | decide
    | (intro q hq; cases q <;> first | exact absurd (by decide) hq | simp only [Part.same, and_self])
    | simp only [State.shaped, imp_self]

theorem execSensorImplausible_touches {t : Nat} {pair : SensorPair} {s u : State}
    (h : execSensorImplausible t pair s = .next u) :
    Touches [.tick, .job, .code, .tier, .link, .host, .integrity, .nimbus, .stratus] (s.arrive t) u := by
  cases h
  generalize s.arrive _ = u
  repeat' with_reducible first
    | exact .refl _ _ | apply (safetyDusk_touches ..).thn | split
  all_goals decide

theorem execNimbusSample_touches {t : Nat} {readings : Readings} {s u : State}
    (h : execNimbusSample t readings s = .next u) :
    Touches [.nimbus] (s.arrive t) u := by
  cases h
  generalize s.arrive _ = u
  repeat' with_reducible first
    | exact .refl _ _ | apply (sample_touches ..).thn | split
  all_goals decide

theorem execValveCommandUpdate_touches {t : Nat} {s u : State} (h : execValveCommandUpdate t s = .next u) :
    Touches [.nimbus] (s.arrive t) u := by
  cases h
  generalize s.arrive _ = u
  repeat' with_reducible first
    | exact .refl _ _ | apply (updateValve_touches ..).thn | split
  all_goals decide

theorem execNimbusDuskRequest_touches {t : Nat} {code : Nat} {s u : State}
    (h : execNimbusDuskRequest t code s = .next u) :
    Touches [.tick, .job, .code, .tier, .link, .host, .integrity, .nimbus, .stratus] (s.arrive t) u := by
  cases h
  generalize s.arrive _ = u
  repeat' with_reducible first
    | exact .refl _ _ | apply (safetyDusk_touches ..).thn | split
  all_goals decide

theorem execWatchdogService_touches {t seq : Nat} {crcOk : Bool} {s u : State}
    (h : execWatchdogService t seq crcOk s = .next u) :
    Touches [.host, .stratus] (s.arrive t) u := by
  cases h
  generalize s.arrive _ = u
  repeat' with_reducible first
    | exact .refl _ _ | split | apply update
  all_goals first
    | decide
    | (intro q hq; cases q <;> first | exact absurd (by decide) hq | simp only [Part.same, and_self])
    | simp only [State.shaped, imp_self]

theorem execWatchdogMiss_touches {t : Nat} {s u : State} (h : execWatchdogMiss t s = .next u) :
    Touches allParts (s.arrive t) u := by
  cases h
  generalize s.arrive _ = u
  repeat' with_reducible first
    | exact .refl _ _ | apply (raiseAs_touches ..).thn | apply (forceModuleReset_touches ..).thn | split
    | apply update
  all_goals first
    | decide
    | (intro q hq; cases q <;> first | exact absurd (by decide) hq | simp only [Part.same, and_self])
    | simp only [State.shaped, imp_self]

theorem execStratusAnswerMissing_touches {t : Nat} {s u : State} (h : execStratusAnswerMissing t s = .next u) :
    Touches allParts (s.arrive t) u := by
  cases h
  generalize s.arrive _ = u
  repeat' with_reducible first
    | exact .refl _ _ | apply (raiseAs_touches ..).thn | apply (killCompute_touches ..).thn
    | apply (killMedia_touches ..).thn | apply (powerOff_touches ..).thn | split | apply update
  all_goals first
    | decide
    | (intro q hq; cases q <;> first | exact absurd (by decide) hq | simp only [Part.same, and_self])
    | simp only [State.shaped, imp_self]

theorem execI3cStatus_touches {t : Nat} {s u : State} (h : execI3cStatus t s = .next u) :
    Touches [.host] (s.arrive t) u := by
  cases h
  generalize s.arrive _ = u
  repeat' with_reducible first
    | exact .refl _ _ | apply (answer_touches ..).thn | split
  all_goals decide

theorem execI3cEvent_touches {t : Nat} {s u : State} (h : execI3cEvent t s = .next u) :
    Touches [.host, .pins] (s.arrive t) u := by
  cases h
  generalize s.arrive _ = u
  repeat' with_reducible first
    | exact .refl _ _ | apply (answer_touches ..).thn | apply (dropRecord_touches ..).thn | split
  all_goals decide

theorem execI3cTelemetry_touches {t : Nat} {s u : State} (h : execI3cTelemetry t s = .next u) :
    Touches [.host] (s.arrive t) u := by
  cases h
  generalize s.arrive _ = u
  repeat' with_reducible first
    | exact .refl _ _ | apply (answer_touches ..).thn | split
  all_goals decide

theorem execI3cSafety_touches {t : Nat} {s u : State} (h : execI3cSafety t s = .next u) :
    Touches [.host] (s.arrive t) u := by
  cases h
  generalize s.arrive _ = u
  repeat' with_reducible first
    | exact .refl _ _ | apply (answer_touches ..).thn | split
  all_goals decide

theorem execI3cTrip_touches {t arg : Nat} {s u : State} (h : execI3cTrip t arg s = .next u) :
    Touches [.host] (s.arrive t) u := by
  cases h
  generalize s.arrive _ = u
  repeat' with_reducible first
    | exact .refl _ _ | apply (answer_touches ..).thn | split
  all_goals decide

theorem execInBandInterruptRetry_touches {t : Nat} {accepted : Bool} {s u : State}
    (h : execInBandInterruptRetry t accepted s = .next u) :
    Touches [.host, .pins] (s.arrive t) u := by
  cases h
  generalize s.arrive _ = u
  repeat' with_reducible first
    | exact .refl _ _ | apply (answer_touches ..).thn | apply (dropRecord_touches ..).thn | split | apply update
  all_goals first
    | decide
    | (intro q hq; cases q <;> first | exact absurd (by decide) hq | simp only [Part.same, and_self])
    | simp only [State.shaped, imp_self]

theorem execPartitionResetComplete_touches {t partition : Nat} {s u : State}
    (h : execPartitionResetComplete t partition s = .next u) :
    Touches jobParts (s.arrive t) u := by
  cases h
  generalize s.arrive _ = u
  repeat' with_reducible first
    | exact .refl _ _ | apply (endReset_touches ..).thn | apply (endComputeReset_touches ..).thn | split
  all_goals decide

theorem execMemberDuskCause_touches {t position code : Nat} {s u : State}
    (h : execMemberDuskCause t position code s = .next u) :
    Touches [.link] (s.arrive t) u := by
  cases h
  generalize s.arrive _ = u
  repeat' with_reducible first
    | exact .refl _ _ | split | apply update
  all_goals first
    | decide
    | (intro q hq; cases q <;> first | exact absurd (by decide) hq | simp only [Part.same, and_self])
    | simp only [State.shaped, imp_self]

theorem execNewestCommittedTickReport_touches {t position tick : Nat} {restored : Bool} {s u : State}
    (h : execNewestCommittedTickReport t position tick restored s = .next u) :
    Touches [.link] (s.arrive t) u := by
  cases h
  generalize s.arrive _ = u
  repeat' with_reducible first
    | exact .refl _ _ | split | apply update
  all_goals first
    | decide
    | (intro q hq; cases q <;> first | exact absurd (by decide) hq | simp only [Part.same, and_self])
    | simp only [State.shaped, imp_self]

theorem execStratusSupplyLoss_touches {t : Nat} {s u : State} (h : execStratusSupplyLoss t s = .next u) :
    Touches allParts (s.arrive t) u := by
  cases h
  generalize s.arrive _ = u
  repeat' with_reducible first
    | exact .refl _ _ | apply (powerOff_touches ..).thn | split | apply update
  all_goals first
    | decide
    | (intro q hq; cases q <;> first | exact absurd (by decide) hq | simp only [Part.same, and_self])
    | simp only [State.shaped, imp_self]

theorem execStratusSupplyReturn_touches {t : Nat} {pins : SupplyPins} {vinOk : Bool} {s u : State}
    (h : execStratusSupplyReturn t pins vinOk s = .next u) :
    Touches allParts (s.arrive t) u := by
  cases h
  generalize s.arrive _ = u
  repeat' with_reducible first
    | exact .refl _ _ | apply (evaluatePower_touches ..).thn | split | apply update
  all_goals first
    | decide
    | (intro q hq; cases q <;> first | exact absurd (by decide) hq | simp only [Part.same, and_self])
    | simp only [State.shaped, imp_self]

theorem execPerstNDeassert_touches {t : Nat} {s u : State} (h : execPerstNDeassert t s = .next u) :
    Touches [.host] (s.arrive t) u := by
  cases h
  generalize s.arrive _ = u
  repeat' with_reducible first
    | exact .refl _ _ | split | apply update
  all_goals first
    | decide
    | (intro q hq; cases q <;> first | exact absurd (by decide) hq | simp only [Part.same, and_self])
    | simp only [State.shaped, imp_self]

theorem execPcieLinkTrained_touches {t mbps : Nat} {s u : State} (h : execPcieLinkTrained t mbps s = .next u) :
    Touches [.job, .code, .tier, .host] (s.arrive t) u := by
  cases h
  generalize s.arrive _ = u
  repeat' with_reducible first
    | exact .refl _ _ | apply (afterRoom_touches ..).thn | split | apply update
  all_goals first
    | decide
    | (intro q hq; cases q <;> first | exact absurd (by decide) hq | simp only [Part.same, and_self])
    | simp only [State.shaped, imp_self]

theorem execRegister64HighRead_touches {t offset : Nat} {s u : State}
    (h : execRegister64HighRead t offset s = .next u) :
    Touches [.code, .host] (s.arrive t) u := by
  cases h
  generalize s.arrive _ = u
  repeat' with_reducible first
    | exact .refl _ _ | apply (readBarWord_touches ..).thn | apply (badAccess_touches ..).thn
    | (apply readThrough_touches; try intro _) | split
  all_goals decide

theorem execErrEntryLastRead_touches {t n : Nat} {s u : State} (h : execErrEntryLastRead t n s = .next u) :
    Touches [.host] (s.arrive t) u := by
  cases h
  generalize s.arrive _ = u
  repeat' with_reducible first
    | exact .refl _ _ | apply (readBarWord_touches ..).thn | (apply readThrough_touches; try intro _) | split
  all_goals decide

theorem execI3cSetmrl_touches {t : Nat} {value : BitVec 16} {s u : State} (h : execI3cSetmrl t value s = .next u) :
    Touches [.pins] (s.arrive t) u := by
  cases h
  generalize s.arrive _ = u
  repeat' with_reducible first
    | exact .refl _ _ | split | apply update
  all_goals first
    | decide
    | (intro q hq; cases q <;> first | exact absurd (by decide) hq | simp only [Part.same, and_self])
    | simp only [State.shaped, imp_self]

theorem issueOf_scope {c : Instr} {e : Issue} (h : issueOf c = some e) : c.scope = jobParts := by
  cases c <;> cases h <;> rfl

theorem collectiveOf_scope {c : Instr} {e : Nat × (Bytes → Bool)}
    (h : collectiveOf c = some e) : c.scope = jobParts := by
  cases c <;> cases h <;> rfl

/-- A command that issues to no engine touches at most the parts of its scope, once it has arrived. -/
theorem exec_touches_of_control {c : Instr} {s t : State} (hi : issueOf c = none) (hc : collectiveOf c = none)
    (h : exec c s = .next t) : Touches c.scope (s.arrive c.time) t := by
  cases c with
  | framePulseEdge => exact execFramePulseEdge_touches h
  | wordClockEdge => exact execWordClockEdge_touches h
  | internalBoundary => cases h; exact (internalEdge_touches ..).mono (ps := runParts)
  | flywheelBoundary => cases h; exact (flywheelEdge_touches ..).mono (ps := runParts)
  | boundaryForwardTimeout => cases h; exact (forwardTimeout_touches ..).mono (ps := runParts)
  | lockLossTimeout =>
    cases h
    exact (lockTimeout_touches ..).mono (ps := [.tick, .job, .code, .tier, .host, .integrity])
  | wordClockLock => exact execWordClockLock_touches h
  | wordClockUnlock => exact execWordClockUnlock_touches h
  | computeCutoff => cases h; exact (cutoff_touches ..).mono (ps := jobParts)
  | tickCommitDeadline => cases h; exact (commitDeadline_touches ..).mono (ps := jobParts)
  | tickCommit =>
    cases h
    exact (commitTick_touches ..).mono (ps := [.job, .frames, .mem, .tier, .media, .link, .host, .integrity])
  | deliverySlot =>
    cases h
    exact (deliver_touches ..).mono (ps := [.tick, .job, .frames, .code, .tier, .link, .host, .integrity])
  | drainEnd =>
    cases h
    exact (drainEnd_touches ..).mono
      (ps := [.tick, .job, .frames, .progress, .engines, .tier, .media, .link, .integrity])
  | recoveryComplete => cases h; exact (recoveryComplete_touches ..).mono (ps := .banks :: faultParts)
  | recoveryTimeout => cases h; exact (recoveryTimeout_touches ..).mono (ps := jobParts)
  | wait => cases h; exact (control_touches ..).mono (ps := faultParts)
  | signal => cases h; exact (control_touches ..).mono (ps := faultParts)
  | commit => cases h; exact (control_touches ..).mono (ps := faultParts)
  | commandFinish => cases h; exact (finish_touches ..).mono (ps := faultParts)
  | commandDeadline => cases h; exact (deadlinePassed_touches ..).mono (ps := jobParts)
  | cirrusCompare => cases h; exact (compareDigests_touches ..).mono (ps := jobParts)
  | cirrusArbitration => cases h; exact (arbitrate_touches ..).mono (ps := faultParts)
  | parityFault => cases h; exact (parityFault_touches ..).mono (ps := faultParts)
  | eccCorrected => exact execEccCorrected_touches h
  | uncorrectableError => exact execUncorrectableError_touches h
  | mpLockstepFault => cases h; exact (levelThree_touches ..).mono (ps := allParts)
  | clockLockLoss => cases h; exact (levelThree_touches ..).mono (ps := allParts)
  | partitionFault => exact execPartitionFault_touches h
  | historyWrite => cases h; exact (historyWrite_touches ..).mono (ps := [.code, .host, .flash, .integrity])
  | watchPeriodEnd => exact execWatchPeriodEnd_touches h
  | fillStart => cases h; exact (beginFill_touches ..).mono (ps := [.code, .tier, .host])
  | fillComplete => cases h; exact (endFill_touches ..).mono (ps := faultParts)
  | accessUnitStaged => exact execAccessUnitStaged_touches h
  | decodedPictureStaged => exact execDecodedPictureStaged_touches h
  | data => exact execData_touches h
  | part => exact execPart_touches h
  | clear => exact execClear_touches h
  | done => exact execDone_touches h
  | tick => exact execTick_touches h
  | ready => exact execReady_touches h
  | abort => exact execAbort_touches h
  | resume => exact execResume_touches h
  | request => exact execRequest_touches h
  | ident => exact execIdent_touches h
  | probe => exact execProbe_touches h
  | idleFlit => exact execIdleFlit_touches h
  | nak => exact execNak_touches h
  | replayStallTimeout => exact execReplayStallTimeout_touches h
  | fecLockLoss => exact execFecLockLoss_touches h
  | portUp => exact execPortUp_touches h
  | portTrainingTimeout => exact execPortTrainingTimeout_touches h
  | readyTimeout => exact execReadyTimeout_touches h
  | ringRestored => cases h; exact (ringRestored_touches ..).mono (ps := jobParts)
  | ringRecoveryTimeout => exact execRingRecoveryTimeout_touches h
  | ringT0Decision =>
    cases h
    exact (ringDecision_touches ..).mono
      (ps := [.tick, .job, .frames, .code, .progress, .engines, .mem, .tier, .media, .link, .host, .integrity])
  | jobStart => exact execJobStart_touches h
  | jobEnd => exact execJobEnd_touches h
  | jobPreempt => exact execJobPreempt_touches h
  | jobAbort => exact execJobAbort_touches h
  | keyframe => exact execKeyframe_touches h
  | splitExact => exact execSplitExact_touches h
  | maintEnter => exact execMaintEnter_touches h
  | maintExit => exact execMaintExit_touches h
  | storeWrite => cases h; exact (storeWrite_touches ..).mono (ps := [.code, .mem, .host])
  | tableLoad => cases h; exact (tableLoad_touches ..).mono (ps := .banks :: verdictParts)
  | selftest => cases h; exact (selfTest_touches ..).mono (ps := .banks :: verdictParts)
  | attest => cases h; exact (attest_touches ..).mono (ps := [.code, .mem, .host])
  | stageImage => cases h; exact (stageImage_touches ..).mono (ps := .flash :: eclipseParts)
  | telemetry => cases h; exact (telemetry_touches ..).mono (ps := [.code, .mem, .host])
  | historyRead => cases h; exact (historyRead_touches ..).mono (ps := [.code, .mem, .host])
  | moduleReset => cases h; exact (moduleReset_touches ..).mono (ps := allParts)
  | mailboxUnknownOpcode => exact execMailboxUnknownOpcode_touches h
  | inputRecord => cases h; exact (inputRecord_touches ..).mono (ps := [.code, .host])
  | hqInTail => exact execHqInTail_touches h
  | hqOutHead => exact execHqOutHead_touches h
  | hqDataHead => exact execHqDataHead_touches h
  | mbxReqTail => exact execMbxReqTail_touches h
  | mbxRspHead => exact execMbxRspHead_touches h
  | evtHead => exact execEvtHead_touches h
  | hqBase => exact execHqBase_touches h
  | hqSize => exact execHqSize_touches h
  | hqStatusBase => exact execHqStatusBase_touches h
  | ringEnable => exact execRingEnable_touches h
  | ringDisable => exact execRingDisable_touches h
  | registerWrite => exact execRegisterWrite_touches h
  | unsupportedBar0Access => cases h; exact (badAccess_touches ..).mono (ps := [.code, .host])
  | register64LowRead => exact execRegister64LowRead_touches h
  | errEntryRead => exact execErrEntryRead_touches h
  | msixSignal => exact execMsixSignal_touches h
  | dmaCompletionError => exact execDmaCompletionError_touches h
  | configurationRequest => exact execConfigurationRequest_touches h
  | functionLevelReset => exact execFunctionLevelReset_touches h
  | flrComplete => exact execFlrComplete_touches h
  | conventionalReset => exact execConventionalReset_touches h
  | pcieLinkLoss => cases h; exact (linkDown_touches ..).mono (ps := [.host])
  | pwrEnAssert => exact execPwrEnAssert_touches h
  | pwrEnDeassert => exact execPwrEnDeassert_touches h
  | senseNOpen => exact execSenseNOpen_touches h
  | senseNClosed => exact execSenseNClosed_touches h
  | coldDawn => cases h; exact (coldDawn_touches ..).mono (ps := allParts)
  | dawnStepOverrun => cases h; exact (dawnOverrun_touches ..).mono (ps := allParts)
  | warmDawn => cases h; exact (warmDawn_touches ..).mono (ps := allParts)
  | stratusTrip => exact execStratusTrip_touches h
  | hwOvercurrentTrip => exact execHwOvercurrentTrip_touches h
  | powerStageConducting => exact execPowerStageConducting_touches h
  | safeStateExit => exact execSafeStateExit_touches h
  | sensorImplausible => exact execSensorImplausible_touches h
  | nimbusSample => exact execNimbusSample_touches h
  | valveCommandUpdate => exact execValveCommandUpdate_touches h
  | nimbusDuskRequest => exact execNimbusDuskRequest_touches h
  | watchdogService => exact execWatchdogService_touches h
  | watchdogMiss => exact execWatchdogMiss_touches h
  | stratusAnswerMissing => exact execStratusAnswerMissing_touches h
  | i3cSetdasa => cases h; exact (setDynamic_touches ..).mono (ps := [.pins])
  | i3cEntdaa => cases h; exact (setDynamic_touches ..).mono (ps := [.pins])
  | i3cStatus => exact execI3cStatus_touches h
  | i3cEvent => exact execI3cEvent_touches h
  | i3cTelemetry => exact execI3cTelemetry_touches h
  | i3cSafety => exact execI3cSafety_touches h
  | i3cTrip => exact execI3cTrip_touches h
  | i3cUnknownCommand => cases h; exact (answer_touches ..).mono (ps := [.host])
  | inBandInterruptRetry => exact execInBandInterruptRetry_touches h
  | partitionResetComplete => exact execPartitionResetComplete_touches h
  | memberDuskCause => exact execMemberDuskCause_touches h
  | newestCommittedTickReport => exact execNewestCommittedTickReport_touches h
  | stratusSupplyLoss => exact execStratusSupplyLoss_touches h
  | stratusSupplyReturn => exact execStratusSupplyReturn_touches h
  | perstNDeassert => exact execPerstNDeassert_touches h
  | pcieLinkTrained => exact execPcieLinkTrained_touches h
  | register64HighRead => exact execRegister64HighRead_touches h
  | errEntryLastRead => exact execErrEntryLastRead_touches h
  | i3cSetmrl => exact execI3cSetmrl_touches h
  | allreduce | reduceScatter | collReduce | shift | broadcast | allgather | collGather => cases hc
  | _ => cases hi

/-- Every command touches at most the parts of its scope, once it has arrived. -/
theorem exec_touches {c : Instr} {s t : State} (h : exec c s = .next t) : Touches c.scope (s.arrive c.time) t := by
  cases hi : issueOf c with
  | some e =>
    rw [exec_of_issueOf hi] at h
    rw [issueOf_scope hi]
    exact issue_touches h
  | none =>
    cases hc : collectiveOf c with
    | some e =>
      rw [exec_of_collectiveOf hc] at h
      rw [collectiveOf_scope hc]
      exact issueColl_touches h
    | none => exact exec_touches_of_control hi hc h

/-- A step touches what its front command touches, once that has been taken off the queue. -/
theorem exec_shaped {c : Instr} {s t : State} (hs : s.shaped) (h : exec c s = .next t) : t.shaped :=
  (exec_touches h).shaped (s := s.arrive c.time) hs

/-- Settles O5: a step idles, or is the front command's effect, under which every file keeps its size. -/
theorem stepKeepsShape : Obligations.StepKeepsShape := by
  intro s t hs h
  obtain ⟨-, rfl⟩ | ⟨c, rest, -, hx⟩ := step_cases h
  · exact hs
  · exact exec_shaped (s := s.withQueue rest) hs hx

end Sys2Proof.Machine
end

section
/-! PROOFS. What every command leaves as it was: the parts of the state outside its scope. -/

namespace Sys2Proof.Machine

/-- A command keeps every part outside its scope; its arrival moves only the clock. -/
theorem exec_same {c : Instr} {s u : State} (h : exec c s = .next u) (q : Part) (hq : q ∉ c.scope) : q.same s u := by
  have kept := (exec_touches h).same q hq
  cases q <;> exact kept

/-- Memories that differ in the host memory alone. -/
theorem Mems.get_of_host {m n : Mems} (h : { n with host := m.host } = m) (sp : Space) (hsp : sp ≠ .host) :
    n.get sp = m.get sp := by
  rw [← h]
  cases sp <;> first | rfl | exact absurd rfl hsp

/-- Settles O60: each clause is a part of the state, and outside its exceptions no command has that part in its scope. -/
theorem commandsKeepWhatTheyDoNotConcern : Obligations.CommandsKeepWhatTheyDoNotConcern := by
  intro c s u h hr
  have kept (q : Part) (hq : c.scope.contains q = false) : q.same s u := exec_same h q (by simpa using hq)
  clear h
  cases c
  all_goals try (cases hr; done)
  all_goals refine ⟨kept .plans rfl, ?_, ?_, ?_, ?_, ?_⟩
  all_goals first
    | exact trivial
    | exact kept .banks rfl
    | exact kept .stratus rfl
    | exact kept .nimbus rfl
    | exact kept .faults rfl
    | (intro hd; cases hd; done)
    | refine fun _ => ⟨?_, ?_, ?_, ?_, ?_⟩
  all_goals first
    | exact trivial
    | exact Mems.get_of_host (kept .mem rfl)
    | exact kept .media rfl
    | exact kept .tick rfl
    | exact kept .progress rfl
    | exact kept .link rfl

end Sys2Proof.Machine
end

section
/-! PROOFS. Mailbox requests: what a request that is picked up and not refused does. -/

namespace Sys2Proof.Machine

set_option Elab.async false

/-! ### Fields that an operation keeps, from the parts that it touches -/

namespace Touches

variable {ps : List Part} {s t : State}

theorem tick_eq (h : Touches ps s t) (hq : .tick ∉ ps := by decide) : t.tick = s.tick := h.same .tick hq

theorem tier_eq (h : Touches ps s t) (hq : .tier ∉ ps := by decide) : t.tier = s.tier := h.same .tier hq

theorem media_eq (h : Touches ps s t) (hq : .media ∉ ps := by decide) : t.media = s.media := h.same .media hq

theorem link_eq (h : Touches ps s t) (hq : .link ∉ ps := by decide) : t.link = s.link := h.same .link hq

theorem flash_eq (h : Touches ps s t) (hq : .flash ∉ ps := by decide) : t.flash = s.flash := h.same .flash hq

theorem host_eq (h : Touches ps s t) (hq : .host ∉ ps := by decide) : t.host = s.host := (h.same .host hq).1

theorem nimbus_eq (h : Touches ps s t) (hq : .nimbus ∉ ps := by decide) : t.nimbus = s.nimbus := h.same .nimbus hq

theorem stratus_eq (h : Touches ps s t) (hq : .stratus ∉ ps := by decide) : t.stratus = s.stratus := h.same .stratus hq

theorem job_eq (h : Touches ps s t) (hj : .job ∉ ps := by decide) (hf : .frames ∉ ps := by decide)
    (hc : .code ∉ ps := by decide) : t.job = s.job := by
  have job := h.same .job hj
  have frames := h.same .frames hf
  have code := (h.same .code hc).1
  simp only [Part.same] at job frames
  rw [← frames, ← code] at job
  exact job

theorem compute_eq (h : Touches ps s t) (hb : .banks ∉ ps := by decide) (hp : .progress ∉ ps := by decide)
    (he : .engines ∉ ps := by decide) : t.compute = s.compute := by
  have engines := h.same .engines he
  obtain ⟨bank, bank0, bank1⟩ := h.same .banks hb
  obtain ⟨done, counts, ordered⟩ := h.same .progress hp
  simp only [Part.same] at engines
  rw [← bank, ← bank0, ← bank1, ← done, ← counts, ← ordered] at engines
  exact engines

theorem dawn_eq (h : Touches ps s t) (hp : .plans ∉ ps := by decide) (hd : .dawn ∉ ps := by decide) :
    t.dawn = s.dawn := by
  have dawn := h.same .dawn hd
  obtain ⟨plans, image, firmware, layout⟩ := h.same .plans hp
  simp only [Part.same] at dawn
  rw [← plans, ← image, ← firmware, ← layout] at dawn
  exact dawn

theorem integrity_eq (h : Touches ps s t) (hi : .integrity ∉ ps := by decide) (hf : .faults ∉ ps := by decide)
    (hc : .code ∉ ps := by decide) : t.integrity = s.integrity := by
  have integrity := h.same .integrity hi
  obtain ⟨entries, permanent, unit, rule⟩ := h.same .faults hf
  have code := (h.same .code hc).2
  simp only [Part.same] at integrity
  rw [← entries, ← permanent, ← unit, ← rule, ← code] at integrity
  exact integrity

theorem mem_eq (h : Touches ps s t) (sp : Space) (hsp : sp ≠ .host := by decide) (hm : .mem ∉ ps := by decide) :
    t.mem.get sp = s.mem.get sp := Mems.get_of_host (h.same .mem hm) sp hsp

theorem hbm_eq (h : Touches ps s t) (hm : .mem ∉ ps := by decide) : t.mem.hbm = s.mem.hbm := h.mem_eq .hbm (hm := hm)

theorem sideband_eq (h : Touches ps s t) (hp : .pins ∉ ps := by decide) (hh : .host ∉ ps := by decide) :
    t.sideband = s.sideband := by
  have pins := h.same .pins hp
  have queue := (h.same .host hh).2.2
  simp only [Part.same] at pins
  rw [← queue] at pins
  exact pins

end Touches

/-! ### Requests -/

theorem pickup_still (s : State) : (pickup s).still = s.still := by
  unfold pickup
  rw [State.publish_still]
  rfl

@[simp] theorem pickup_now (s : State) : (pickup s).now = s.now := congrArg (·.2.1) (pickup_still s)

@[simp] theorem pickup_tick (s : State) : (pickup s).tick = s.tick := congrArg (·.2.2.1) (pickup_still s)

@[simp] theorem pickup_job (s : State) : (pickup s).job = s.job := congrArg (·.2.2.2.1) (pickup_still s)

@[simp] theorem pickup_compute (s : State) : (pickup s).compute = s.compute := congrArg (·.2.2.2.2.1) (pickup_still s)

@[simp] theorem pickup_dawn (s : State) : (pickup s).dawn = s.dawn :=
  (pickup_touches s).dawn_eq

@[simp] theorem pickup_flash (s : State) : (pickup s).flash = s.flash := (pickup_touches s).flash_eq

@[simp] theorem pickup_integrity (s : State) : (pickup s).integrity = s.integrity := (pickup_touches s).integrity_eq

@[simp] theorem pickup_link (s : State) : (pickup s).link = s.link := (pickup_touches s).link_eq

@[simp] theorem pickup_hbm (s : State) : (pickup s).mem.hbm = s.mem.hbm := (pickup_touches s).hbm_eq

@[simp] theorem pickup_store (s : State) : (pickup s).mem.store = s.mem.store := (pickup_touches s).mem_eq .store

/-- A pickup leaves the writes through BAR2 that still concern a pending request. -/
theorem pickup_windowWrites (s : State) : (pickup s).host.windowWrites = stillPending s (s.ring 4).mine := by
  unfold pickup State.publish
  dsimp only
  split <;> rfl

/-- A request that the state of the module lets through, and that passes its own checks, is picked up and worked on. -/
theorem serve_of_serves {op : Nat} {req : Bytes} {s : State} (h : s.serves op req) {checks : List (Bool × Nat)}
    (hc : firstFailure checks = none) (work : State → State) : serve op req checks work s = work (pickup s) := by
  obtain ⟨opened, asked, allowed⟩ := h
  have later : stateRefusal (pickup s) op req = none := by
    rw [← allowed]
    unfold stateRefusal
    rw [pickup_dawn]
  simp [serve, opened, asked, later, hc]

theorem serves_arrive {op : Nat} {req : Bytes} {s : State} (h : s.serves op req) (t : Time) :
    (s.arrive t).serves op req := h

@[simp] theorem firstFailure_nil : firstFailure [] = none := rfl

@[simp] theorem firstFailure_cons_true (c : Nat) (l : List (Bool × Nat)) :
    firstFailure ((true, c) :: l) = firstFailure l := by
  simp [firstFailure]

theorem forwardRequest_job (req : Bytes) (s : State) : (forwardRequest req s).job = s.job :=
  (forwardRequest_touches req s).job_eq

theorem forwardRequest_compute (req : Bytes) (s : State) : (forwardRequest req s).compute = s.compute :=
  (forwardRequest_touches req s).compute_eq

/-- Settles O16: each request passes its checks, and its work is a note in the job. -/
theorem switchesAreNotedForTheBoundary : Obligations.SwitchesAreNotedForTheBoundary := by
  intro t req s head
  refine ⟨fun hs run clear => ?_, fun hs phase clear mask => ?_, fun hs phase clear flag able => ?_⟩
  · refine ⟨forwardRequest req (noteEnd (pickup (s.arrive t))), congrArg Host.Outcome.next ?_, ?_, ?_⟩
    · rw [serve_of_serves (serves_arrive hs t) (by simp [run, clear, head])]
      simp [endTickFor]
    · rw [forwardRequest_job]
      simp [noteEnd]
    · rw [forwardRequest_compute]
      simp [noteEnd]
  · refine ⟨forwardRequest req (noteKeys (byteAt req 8) (pickup (s.arrive t))), congrArg Host.Outcome.next ?_, ?_, ?_⟩
    · rw [serve_of_serves (serves_arrive hs t) (by
        rcases phase with p | p <;> simp [State.inStates, p, clear, head, mask])]
    · rw [forwardRequest_job]
      simp [noteKeys, Nat.mod_eq_of_lt mask]
    · rw [forwardRequest_compute]
      simp [noteKeys]
  · refine ⟨forwardRequest req (noteSplit (byteAt req 8 == 1) (pickup (s.arrive t))), congrArg Host.Outcome.next ?_, ?_,
      ?_⟩
    · rw [serve_of_serves (serves_arrive hs t) (by
        rcases phase with p | p <;> simp [State.inStates, p, clear, head, flag, able])]
    · rw [forwardRequest_job]
      simp [noteSplit]
    · rw [forwardRequest_compute]
      simp [noteSplit]

/-! ### Bytes of a memory -/

theorem Memory.length_readBytes (m : Memory) (a n : Nat) : (m.readBytes a n).length = n := by
  induction n generalizing a with
  | zero => rfl
  | succ n ih => rw [Memory.readBytes, List.length_cons, ih]

theorem Memory.getElem_readBytes (m : Memory) (a n i : Nat) (h : i < (m.readBytes a n).length) :
    (m.readBytes a n)[i] = m.read (a + i) := by
  induction n generalizing a i with
  | zero => exact absurd h (Nat.not_lt_zero i)
  | succ n ih =>
    cases i with
    | zero => rfl
    | succ i =>
      have lt : i < (m.readBytes (a + 1) n).length := Nat.lt_of_succ_lt_succ h
      exact (ih (a + 1) i lt).trans (by rw [Nat.add_assoc, Nat.add_comm 1 i])

/-- What has been written reads back. -/
theorem Memory.readBytes_writeBytes_self {m : Memory} (h : m.wf = true) (a : Nat) (l : Bytes) :
    (m.writeBytes a l).readBytes a l.length = l := by
  refine List.ext_getElem (Memory.length_readBytes ..) fun i hi hl => ?_
  rw [Memory.getElem_readBytes, Memory.read_writeBytes_inside h a l i hl]

theorem Mems.wf_hbm {m : Mems} (h : m.wf = true) : m.hbm.wf = true := Mems.wf_get h .hbm

theorem Mems.wf_store {m : Mems} (h : m.wf = true) : m.store.wf = true := Mems.wf_get h .store

/-! ### Requests that read or write the host-exchange area -/

/-- A request reads what stands in its area where no write through BAR2 has touched it while the request was pending. -/
theorem readRequest_pickup {s : State} {off n : Nat}
    (h : ∀ w ∈ s.host.windowWrites, w.1 + w.2.1 ≤ off ∨ off + n ≤ w.1) :
    readRequest off n (pickup s) = ((pickup s).readExchange off n, pickup s) := by
  rw [readRequest, if_neg]
  simp only [pickup_windowWrites, stillPending, List.any_eq_true, not_exists, not_and, Bool.and_eq_true,
    decide_eq_true_eq]
  intro w hw
  have := h w (List.mem_filter.mp hw).1
  omega

theorem storeWrite_pickup {req : Bytes} {s : State} (hs : s.serves 0x0012 req) (phase : s.job.phase = .maintenance)
    (clear : bodyClear req [(16, 24)] = true) (whole : le req 32 8 % 16384 = 0)
    (fits : le req 24 8 + le req 32 8 ≤ 0x40000000000) (area : exchangeOk (le req 16 8) (le req 32 8) = true)
    (quiet : ∀ w ∈ s.host.windowWrites, w.1 + w.2.1 ≤ le req 16 8 ∨ le req 16 8 + le req 32 8 ≤ w.1) :
    storeWrite req s = respond req 0 []
      ((pickup s).writeMem .store (le req 24 8) ((pickup s).readExchange (le req 16 8) (le req 32 8))) := by
  unfold storeWrite
  rw [serve_of_serves hs (by simp [State.inStates, phase, clear, whole, fits, area]), readRequest_pickup quiet]

theorem store_written (req b : Bytes) (a : Nat) (s : State) :
    (respond req 0 [] ((pickup s).writeMem .store a b)).mem.store = s.mem.store.writeBytes a b := by
  rw [respond_store]
  exact congrArg (Memory.writeBytes · a b) (pickup_store s)

/-- Settles O18: each request passes its checks; STORE_WRITE then copies the area that it names. -/
theorem maintenanceWritesTheStore : Obligations.MaintenanceWritesTheStore := by
  refine ⟨fun t req s clear => ⟨fun hs phase none => ?_, fun hs phase => ?_⟩,
    fun t req s wf hs phase clear whole fits area quiet => ?_⟩
  · refine ⟨{ pickup (s.arrive t) with job := { (pickup (s.arrive t)).job with
      phase := .maintenance, retained := .none, resumable := false } }, congrArg Host.Outcome.next ?_, ?_⟩
    · rw [serve_of_serves (serves_arrive hs t) (by simp [phase, none, clear])]
    · simp
  · refine ⟨{ pickup (s.arrive t) with job := { (pickup (s.arrive t)).job with phase := .idle } },
      congrArg Host.Outcome.next ?_, ?_⟩
    · rw [serve_of_serves (serves_arrive hs t) (by simp [phase, clear])]
    · simp
  · have wfStore : s.mem.store.wf = true := Mems.wf_store wf
    refine ⟨_, congrArg Host.Outcome.next (storeWrite_pickup (serves_arrive hs t) phase clear whole fits area quiet), ?_,
      fun i hi => ?_, fun a ha => ?_⟩
    · simp [Mems.put]
    · have inside : i < ((pickup (s.arrive t)).readExchange (le req 16 8) (le req 32 8)).length :=
        (Memory.length_readBytes ..).symm ▸ hi
      rw [store_written]
      exact (Memory.read_writeBytes_inside wfStore _ _ _ inside).trans ((Memory.getElem_readBytes _ _ _ _ inside).trans
        (congrArg (Memory.read · _) (pickup_hbm _)))
    · rw [store_written]
      exact Memory.read_writeBytes_outside wfStore _ _ _ ((Memory.length_readBytes ..).symm ▸ ha)

/-- A report that is written to the exchange area stands there, and no other byte of the HBM changes. -/
theorem report_written {s u : State} (wf : s.mem.wf = true) (same : u.mem.hbm = s.mem.hbm) (req b : Bytes) (off : Nat) :
    (respond req 0 [] (u.writeExchange off b)).readExchange off b.length = b
      ∧ ∀ a, a < exchangeBase + off ∨ exchangeBase + off + b.length ≤ a
        → (respond req 0 [] (u.writeExchange off b)).mem.hbm.read a = s.mem.hbm.read a := by
  have written : (respond req 0 [] (u.writeExchange off b)).mem.hbm = s.mem.hbm.writeBytes (exchangeBase + off) b := by
    simp [State.writeExchange, State.writeMem, Mems.put, Mems.get, same]
  refine ⟨?_, fun a ha => ?_⟩
  · rw [State.readExchange, State.readMem, Mems.get, written]
    exact Memory.readBytes_writeBytes_self (Mems.wf_hbm wf) _ _
  · rw [written]
    exact Memory.read_writeBytes_outside (Mems.wf_hbm wf) _ _ _ ha

theorem telemetry_pickup {req : Bytes} {s : State} (hs : s.serves 0x0022 req) (clear : bodyClear req [(16, 8)] = true)
    (area : exchangeOk (le req 16 8) (telemetryBytes s).length = true) :
    telemetry req s = respond req 0 [] ((pickup s).writeExchange (le req 16 8) (telemetryBytes (pickup s))) := by
  unfold telemetry
  rw [serve_of_serves hs (by simp [clear, area])]

theorem historyRead_pickup {req : Bytes} {s : State} (hs : s.serves 0x0023 req) (clear : bodyClear req [(16, 8)] = true)
    (area : exchangeOk (le req 16 8) 0x400000 = true) :
    historyRead req s = respond req 0 [] ((pickup s).writeExchange (le req 16 8) (historyRegion s)) := by
  unfold historyRead
  rw [serve_of_serves hs (by simp [clear, area])]
  simp only [historyRegion, pickup_flash]

theorem attest_pickup {req : Bytes} {s : State} (hs : s.serves 0x0020 req) (clear : bodyClear req [(16, 40)] = true)
    (area : exchangeOk (le req 48 8) 12288 = true) (secret : s.dawn.secret ≠ []) (cert : s.dawn.certOk = true) :
    attest req s = respond req 0 [] ((pickup s).free.2.writeExchange (le req 48 8)
      (attestReport (slice req 16 32) (pickup s).free.1 (pickup s))) := by
  unfold attest
  rw [serve_of_serves hs (by simp [clear, area, List.isEmpty_eq_false_iff.mpr secret, cert])]
  rfl

/-- Settles O20: each request passes its checks, and its work is one write of its report. -/
theorem reportsAreWrittenToTheExchangeArea : Obligations.ReportsAreWrittenToTheExchangeArea := by
  intro t req s wf
  refine ⟨fun hs clear area => ?_, fun hs clear area => ?_, fun hs clear area secret cert => ?_⟩
  · refine ⟨_, congrArg Host.Outcome.next (telemetry_pickup (serves_arrive hs t) clear area), ?_⟩
    exact report_written (u := pickup (s.arrive t)) wf (pickup_hbm _) req _ _
  · have region : historyRegion (s.arrive t) = historyRegion s := by simp only [historyRegion, State.arrive_flash]
    have done := historyRead_pickup (serves_arrive hs t) clear area
    rw [region] at done
    refine ⟨_, congrArg Host.Outcome.next done, ?_⟩
    exact report_written (u := pickup (s.arrive t)) wf (pickup_hbm _) req _ _
  · refine ⟨_, (pickup (s.arrive t)).free.1,
      congrArg Host.Outcome.next (attest_pickup (serves_arrive hs t) clear area secret cert), ?_⟩
    exact report_written (u := (pickup (s.arrive t)).free.2) wf (pickup_hbm _) req _ _

/-! ### Function banks and self-test windows -/

theorem loadBank_banks (f : FunctionBank → FunctionBank) (s : State) :
    (loadBank true f s).activeBank = f s.inactiveBank ∧ (loadBank true f s).inactiveBank = s.activeBank := by
  by_cases h : s.compute.bank = 0
  · simp [loadBank, swapBanks, writeInactive, State.activeBank, State.inactiveBank, h]
  · have other : 1 - s.compute.bank = 0 := by omega
    simp [loadBank, swapBanks, writeInactive, State.activeBank, State.inactiveBank, h, other]

theorem loadBank_job (f : FunctionBank → FunctionBank) (s : State) : (loadBank true f s).job = s.job := by
  simp [loadBank, swapBanks, writeInactive, apply_ite State.job]

theorem loadBank_dawn (ok : Bool) (f : FunctionBank → FunctionBank) (s : State) : (loadBank ok f s).dawn = s.dawn :=
  (loadBank_touches ok f s).dawn_eq

theorem loadBank_integrity (f : FunctionBank → FunctionBank) (s : State) :
    (loadBank true f s).integrity = s.integrity := by
  simp [loadBank, swapBanks, writeInactive, apply_ite State.integrity]

/-- A write that does not read back swaps no banks. -/
theorem loadBank_false_activeBank (f : FunctionBank → FunctionBank) (s : State) :
    (loadBank false f s).activeBank = s.activeBank := by
  by_cases h : s.compute.bank = 0 <;> simp [loadBank, writeInactive, State.activeBank, h]

theorem failedUnit_congr {s u : State} (h : u.activeBank = s.activeBank) (w : WindowInput) :
    failedUnit u w = failedUnit s w := by
  have same : unitFails u w = unitFails s w := by
    funext core
    simp only [unitFails, h]
  rw [failedUnit, failedUnit, same]

/-- A window that passes puts what it restores in the place of the active bank. -/
theorem selfTestWindow_of_passes {s u : State} {w : WindowInput} (restore : FunctionBank → FunctionBank)
    (pass : windowPasses s w = true) (compute : u.compute = s.compute) (dawn : u.dawn = s.dawn) :
    ∃ v, selfTestWindow restore w u = (none, none, v) ∧ v.activeBank = restore u.activeBank ∧ v.job = u.job
      ∧ v.integrity = u.integrity := by
  simp only [windowPasses, Bool.and_eq_true, Option.isNone_iff_eq_none] at pass
  obtain ⟨⟨first, second⟩, healthy⟩ := pass
  have banks : u.inactiveBank = s.inactiveBank := by rw [State.inactiveBank, State.inactiveBank, compute]
  have tables : referenceTables u = referenceTables s := by rw [referenceTables, referenceTables, dawn]
  have tested : failedUnit (loadBank true (fun b => { b with tables := referenceTables u }) u) w = none := by
    rw [← healthy]
    apply failedUnit_congr
    rw [(loadBank_banks ..).1, (loadBank_banks ..).1, banks, tables]
  refine ⟨loadBank true restore (loadBank true (fun b => { b with tables := referenceTables u }) u), ?_, ?_, ?_, ?_⟩
  · simp [selfTestWindow, first, second, tested]
  · rw [(loadBank_banks ..).1, (loadBank_banks ..).2]
  · rw [loadBank_job, loadBank_job]
  · rw [loadBank_integrity, loadBank_integrity]

/-- A window whose first write does not read back leaves the active bank. -/
theorem selfTestWindow_of_mismatch {w : WindowInput} (restore : FunctionBank → FunctionBank) (first : w.firstOk = false)
    (s : State) : ∃ v, selfTestWindow restore w s = (some 0x4209, w.failed, v) ∧ v.activeBank = s.activeBank := by
  refine ⟨loadBank false (fun b => { b with tables := referenceTables s }) s, ?_, loadBank_false_activeBank _ s⟩
  simp [selfTestWindow, first]

/-- A window in which a unit fails names it. -/
theorem selfTestWindow_of_failed {w : WindowInput} (restore : FunctionBank → FunctionBank) {unit : BitVec 32}
    (first : w.firstOk = true) (failed : w.failed = some unit) (s : State) :
    ∃ c v, selfTestWindow restore w s = (c, some unit, v) ∧ v.dawn = s.dawn := by
  refine ⟨if w.secondOk then none else some 0x4209,
    loadBank w.secondOk restore (loadBank true (fun b => { b with tables := referenceTables s }) s), ?_, ?_⟩
  · simp [selfTestWindow, first, failedUnit, failed]
  · rw [loadBank_dawn, loadBank_dawn]

theorem withSet_holdsSet (b : FunctionBank) (set : Bytes) : (b.withSet set).holdsSet set = true := by
  simp [FunctionBank.holdsSet, FunctionBank.withSet]

theorem permanentRule_of_failedTest (unit : BitVec 32) (es : List HistEntry) :
    ∃ rule, permanentRule unit true es = rule + 1 := by
  unfold permanentRule
  repeat' split
  all_goals first
    | exact ⟨_, rfl⟩
    | contradiction

/-- A unit that fails a test is classified permanent, which is Eclipse (R418). -/
theorem failUnit_some {s : State} (unit : BitVec 32) (h : s.dawn.phase ≠ .eclipse) :
    (failUnit (some unit) s).dawn.phase = .eclipse ∧ (failUnit (some unit) s).integrity.permanent = true
      ∧ (failUnit (some unit) s).integrity.permUnit = unit := by
  obtain ⟨rule, hrule⟩ := permanentRule_of_failedTest unit s.integrity.entries
  rw [failUnit, classify_of_permanentRule h hrule]
  have verdict := enterEclipse_verdict unit (rule + 1) s
  simp only [IntegrityState.verdict, Prod.mk.injEq] at verdict
  exact ⟨enterEclipse_dawnPhase .., verdict.1, verdict.2.1⟩

theorem tableLoad_pickup {req : Bytes} {w : WindowInput} {s : State} (hs : s.serves 0x0013 req)
    (phase : s.job.phase = .idle ∨ s.job.phase = .maintenance) (none : s.job.startReq = none)
    (clear : bodyClear req [(8, 1)] = true) (ready : planReady s (byteAt req 8) = true) :
    tableLoad req w s =
      let r := selfTestWindow (·.withSet (planTables s (byteAt req 8))) w (pickup s)
      failUnit r.2.1 (respond req (r.1.getD 0) [] r.2.2) := by
  have plans : planTables (pickup s) = planTables s := by
    funext i
    simp only [planTables, State.planAt, pickup_dawn]
  unfold tableLoad
  rw [serve_of_serves hs (by rcases phase with p | p <;> simp [State.inStates, p, none, clear, ready]), plans]

theorem selfTest_pickup {req : Bytes} {w : WindowInput} {s : State} (hs : s.serves 0x0014 req)
    (phase : s.job.phase = .idle ∨ s.job.phase = .maintenance) (clear : bodyClear req [] = true) :
    selfTest req w s =
      let held := s.activeBank
      let r := selfTestWindow (fun b => { b with tables := held.tables, micros := held.micros }) w (pickup s)
      failUnit r.2.1 (respond req (if w.firstOk then 0 else 0x4209) (toLe 4 ((r.2.1.map (·.toNat)).getD 0xFFFFFFFF))
        r.2.2) := by
  have held : (pickup s).activeBank = s.activeBank := by simp only [State.activeBank, pickup_compute]
  unfold selfTest
  rw [serve_of_serves hs (by rcases phase with p | p <;> simp [State.inStates, p, clear]), held]

/-- Settles O19: what a request does with its window follows from how the window ends. -/
theorem tablesLoadAndSelfTestJudges : Obligations.TablesLoadAndSelfTestJudges := by
  intro t req w s phase
  have active : (pickup (s.arrive t)).activeBank = s.activeBank := by simp [State.activeBank]
  refine ⟨fun hs none clear ready => ⟨fun pass => ?_, fun first healthy => ?_, fun unit phase' first failed => ?_⟩,
    fun hs clear phase' => ⟨fun pass => ?_, fun unit first failed => ?_⟩⟩
  · obtain ⟨v, hv, bank, job, -⟩ := selfTestWindow_of_passes (u := pickup (s.arrive t))
      (·.withSet (planTables (s.arrive t) (byteAt req 8))) pass (pickup_compute _) (pickup_dawn _)
    refine ⟨v, congrArg Host.Outcome.next ?_, ?_, ?_⟩
    · rw [tableLoad_pickup (serves_arrive hs t) phase none clear ready, hv]
      rfl
    · rw [bank]
      exact withSet_holdsSet ..
    · simp [job]
  · obtain ⟨v, hv, bank⟩ := selfTestWindow_of_mismatch (·.withSet (planTables (s.arrive t) (byteAt req 8))) first
      (pickup (s.arrive t))
    refine ⟨v, congrArg Host.Outcome.next ?_, bank.trans active⟩
    rw [tableLoad_pickup (serves_arrive hs t) phase none clear ready, hv, healthy]
    rfl
  · obtain ⟨c, v, hv, dawn⟩ := selfTestWindow_of_failed (·.withSet (planTables (s.arrive t) (byteAt req 8))) first failed
      (pickup (s.arrive t))
    have running : (respond req (c.getD 0) [] v).dawn.phase ≠ .eclipse := by simpa [dawn] using phase'
    obtain ⟨eclipse, -, charged⟩ := failUnit_some unit running
    refine ⟨failUnit (some unit) (respond req (c.getD 0) [] v), congrArg Host.Outcome.next ?_, eclipse, charged⟩
    rw [tableLoad_pickup (serves_arrive hs t) phase none clear ready, hv]
  · obtain ⟨v, hv, bank, -, integrity⟩ := selfTestWindow_of_passes (u := pickup (s.arrive t)) (fun b =>
      { b with tables := s.activeBank.tables, micros := s.activeBank.micros }) pass (pickup_compute _) (pickup_dawn _)
    have first : w.firstOk = true := by
      simp only [windowPasses, Bool.and_eq_true] at pass
      exact pass.1.1
    refine ⟨v, congrArg Host.Outcome.next ?_, ?_, ?_⟩
    · rw [selfTest_pickup (serves_arrive hs t) phase clear]
      dsimp only
      rw [show (s.arrive t).activeBank = s.activeBank from rfl, hv, first]
      rfl
    · rw [bank, active]
    · simp [integrity]
  · obtain ⟨c, v, hv, dawn⟩ := selfTestWindow_of_failed (fun b =>
      { b with tables := s.activeBank.tables, micros := s.activeBank.micros }) first failed (pickup (s.arrive t))
    have running : (respond req 0 (toLe 4 unit.toNat) v).dawn.phase ≠ .eclipse := by simpa [dawn] using phase'
    obtain ⟨eclipse, permanent, charged⟩ := failUnit_some unit running
    refine ⟨failUnit (some unit) (respond req 0 (toLe 4 unit.toNat) v), congrArg Host.Outcome.next ?_, eclipse,
      permanent, charged⟩
    rw [selfTest_pickup (serves_arrive hs t) phase clear]
    dsimp only
    rw [show (s.arrive t).activeBank = s.activeBank from rfl, hv, first]
    rfl

end Sys2Proof.Machine
end

section
/-! PROOFS. The rings of the host interface: what the module writes moves its own pointers alone. -/

namespace Sys2Proof.Machine

set_option Elab.async false

/-- The rings but for the module's own pointers. -/
def State.setup (s : State) (n : Nat) : Ring := { s.ring n with mine := 0 }

theorem State.ring_setRing (s : State) (n m : Nat) (r : Ring) :
    (s.setRing n r).ring m = if m = n ∧ n < s.host.rings.length then r else s.ring m := by
  simp only [State.ring, State.setRing_host, List.getD_eq_getElem?_getD, List.getElem?_set]
  by_cases h : n = m
  · subst h
    by_cases lt : n < s.host.rings.length <;> simp [lt]
  · simp [h, Ne.symm h]

/-- A ring that is replaced is read back, if the block has it. -/
theorem State.ring_setRing_same {s : State} {n : Nat} (h : n < s.host.rings.length) (r : Ring) :
    (s.setRing n r).ring n = r := by
  rw [State.ring_setRing, if_pos ⟨rfl, h⟩]

theorem getD_of_length_le {α : Type} {l : List α} {n : Nat} (h : l.length ≤ n) (d : α) : l.getD n d = d := by
  rw [List.getD_eq_getElem?_getD, List.getElem?_eq_none h, Option.getD_none]

theorem getD_map {α β : Type} (f : α → β) (l : List α) (n : Nat) (d : α) :
    (l.map f).getD n (f d) = f (l.getD n d) := by
  rw [List.getD_eq_getElem?_getD, List.getD_eq_getElem?_getD, List.getElem?_map]
  cases l[n]? <;> rfl

theorem lt_length_of_enable {s : State} {n : Nat} (h : (s.ring n).enable = true) : n < s.host.rings.length := by
  refine Decidable.byContradiction fun hn => ?_
  rw [State.ring, getD_of_length_le (Nat.le_of_not_lt hn)] at h
  cases h

theorem setRing_setup {s : State} {n : Nat} {r : Ring} (h : { r with mine := 0 } = s.setup n) :
    (s.setRing n r).setup = s.setup := by
  funext m
  rw [State.setup, State.ring_setRing]
  split
  next same => rw [h, same.1]
  · rfl

theorem setHost_setup (s : State) (x : HostState) (h : x.rings = s.host.rings) :
    State.setup { s with host := x } = s.setup := by
  funext n
  simp only [State.setup, State.ring, h]

@[simp] theorem State.produce_setup (s : State) (n : Nat) (b : Bytes) : (s.produce n b).setup = s.setup :=
  setRing_setup rfl

@[simp] theorem State.produceData_setup (s : State) (b : Bytes) : (s.produceData b).setup = s.setup :=
  setRing_setup rfl

@[simp] theorem State.publish_setup (s : State) (v : Option Nat) : (s.publish v).setup = s.setup := by
  unfold State.publish
  generalize s.statusPage = page
  cases v <;> (split <;> rfl)

@[simp] theorem drainEvents_setup (n : Nat) (s : State) : (drainEvents n s).setup = s.setup := by
  induction n generalizing s with
  | zero => rfl
  | succ n ih =>
    unfold drainEvents
    split
    · rfl
    · dsimp only
      split
      · rw [ih, State.publish_setup, State.produce_setup]
        rfl
      · rfl

@[simp] theorem drainResponses_setup (n : Nat) (s : State) : (drainResponses n s).setup = s.setup := by
  induction n generalizing s with
  | zero => rfl
  | succ n ih =>
    unfold drainResponses
    split
    · rfl
    · dsimp only
      split
      · rw [ih, State.publish_setup, State.produce_setup]
        rfl
      · rfl

@[simp] theorem emit_setup (code severity source arg : Nat) (oob : Bool) (s : State) :
    (emit code severity source arg oob s).setup = s.setup := by
  unfold emit
  rw [drainEvents_setup]
  rfl

@[simp] theorem reportDropped_setup (s : State) : (reportDropped s).setup = s.setup := by
  unfold reportDropped
  split
  · rw [emit_setup]
    rfl
  · rfl

@[simp] theorem raiseAs_setup (code : Nat) (alt : Bool) (d : Source) (oob : Bool) (arg : Nat) (s : State) :
    (raiseAs code alt d oob arg s).setup = s.setup := by
  unfold raiseAs State.free
  dsimp only
  rw [emit_setup]
  repeat' split
  all_goals exact reportDropped_setup s

@[simp] theorem raise_setup (code arg : Nat) (s : State) : (raise code arg s).setup = s.setup := raiseAs_setup ..

@[simp] theorem respond_setup (req : Bytes) (status : Nat) (body : Bytes) (s : State) :
    (respond req status body s).setup = s.setup := by
  unfold respond
  rw [drainResponses_setup]
  rfl

@[simp] theorem writeRecord_setup (r : OutRecord) (s : State) : (writeRecord r s).setup = s.setup := by
  have units : (r.units.foldl (fun s u => s.produceData (padUnit u.data)) s).setup = s.setup :=
    List.foldlRecOn _ _ (motive := fun t : State => t.setup = s.setup) rfl
      fun t ht u _ => (State.produceData_setup t _).trans ht
  have written (b : Bytes) : (((r.units.foldl (fun s u => s.produceData (padUnit u.data)) s).produce 1 b).publish
      (some 1)).setup = s.setup := by
    rw [State.publish_setup, State.produce_setup, units]
  unfold writeRecord
  dsimp only
  split
  · rw [raise_setup]
    exact written _
  · exact written _

@[simp] theorem drainRecords_setup (n : Nat) (s : State) : (drainRecords n s).setup = s.setup := by
  induction n generalizing s with
  | zero => rfl
  | succ n ih =>
    unfold drainRecords
    split
    · rfl
    · split
      · rw [ih, writeRecord_setup]
        rfl
      · rfl

@[simp] theorem drainAll_setup (s : State) : (drainAll s).setup = s.setup := by
  simp [drainAll]

@[simp] theorem stopComplete_setup (s : State) : (stopComplete s).setup = s.setup := by
  unfold stopComplete
  dsimp only
  repeat' split
  · rw [raise_setup]
    rfl
  · rfl
  · rfl

@[simp] theorem afterRoom_setup (s : State) : (afterRoom s).setup = s.setup := by
  simp [afterRoom]

@[simp] theorem arriveRecords_setup (s : State) : (arriveRecords s).setup = s.setup :=
  setHost_setup _ _ rfl

/-- Rings of one setup have the same pointers of the host and the same enables. -/
theorem ring_of_setup {s t : State} (h : t.setup = s.setup) (n : Nat) :
    (t.ring n).host = (s.ring n).host ∧ (t.ring n).enable = (s.ring n).enable := by
  have same : t.setup n = s.setup n := congrFun h n
  exact ⟨(congrArg Ring.host same :), (congrArg Ring.enable same :)⟩

/-- What a write to a host pointer does on a bar that is open (R352). -/
theorem writePointer_cases {s : State} {n : Nat} (v : Nat) (after : State → State) (bar : barOpen s = true)
    (ring : ringExists s n = true) :
    ((s.ring n).enable = false → writePointer n v after s = raise 0x6301 n s)
    ∧ ((s.ring n).enable = true → (s.ring n).size < ({ s.ring n with host := v } : Ring).count n →
        writePointer n v after s = raise 0x6905 n s)
    ∧ ((s.ring n).enable = true → ({ s.ring n with host := v } : Ring).count n ≤ (s.ring n).size →
        writePointer n v after s = after (s.setRing n { s.ring n with host := v })) := by
  refine ⟨fun off => ?_, fun on full => ?_, fun on fits => ?_⟩
  · simp [writePointer, bar, ring, off]
  · unfold writePointer
    rw [if_neg (by simp [bar, ring])]
    dsimp only
    rw [if_neg (by simp [on]), if_pos full]
  · unfold writePointer
    rw [if_neg (by simp [bar, ring])]
    dsimp only
    rw [if_neg (by simp [on]), if_neg (Nat.not_lt.mpr fits)]

/-- What follows a write to a host pointer: it keeps the setup of the rings, and touches neither the tick, nor Compute, nor a
memory of the module. -/
def Settles (after : State → State) : Prop :=
  ∀ s, (after s).setup = s.setup ∧ (after s).tick = s.tick ∧ (after s).compute = s.compute
    ∧ (after s).mem.hbm = s.mem.hbm

theorem id_settles : Settles id := fun _ => ⟨rfl, rfl, rfl, rfl⟩

theorem arriveRecords_settles : Settles arriveRecords := fun s =>
  ⟨arriveRecords_setup s, (arriveRecords_touches s).tick_eq, (arriveRecords_touches s).compute_eq,
    (arriveRecords_touches s).hbm_eq⟩

theorem afterRoom_settles : Settles afterRoom := fun s =>
  ⟨afterRoom_setup s, (afterRoom_touches s).tick_eq, (afterRoom_touches s).compute_eq, (afterRoom_touches s).hbm_eq⟩

/-- A pointer write that takes effect, and the two that are ignored with their codes. -/
theorem writePointer_effect {after : State → State} (settles : Settles after) (v n : Nat) {s : State} (t : Time)
    (bar : barOpen s = true) (ring : ringExists s n = true) {r : Host.Outcome State Fault Refusal}
    (hr : r = .next (writePointer n v after (s.arrive t))) :
    ((s.ring n).enable = true → ({ s.ring n with host := v } : Ring).count n ≤ (s.ring n).size
      → ∃ u, r = .next u ∧ (u.ring n).host = v ∧ (u.ring n).enable = true ∧ u.tick = s.tick
          ∧ u.compute = s.compute ∧ u.mem.hbm = s.mem.hbm)
    ∧ ((s.ring n).enable = true → (s.ring n).size < ({ s.ring n with host := v } : Ring).count n
      → ∃ u, r = .next u ∧ (u.ring n).host = (s.ring n).host ∧ u.newest = some 0x6905)
    ∧ ((s.ring n).enable = false
      → ∃ u, r = .next u ∧ (u.ring n).host = (s.ring n).host ∧ u.newest = some 0x6301) := by
  obtain ⟨disabled, exceeds, fits⟩ := writePointer_cases (s := s.arrive t) v after bar ring
  refine ⟨fun on room => ⟨_, hr.trans (congrArg _ (fits on room)), ?_⟩,
    fun on full => ⟨_, hr.trans (congrArg _ (exceeds on full)), (ring_of_setup (raise_setup ..) n).1, raise_newest ..⟩,
    fun off => ⟨_, hr.trans (congrArg _ (disabled off)), (ring_of_setup (raise_setup ..) n).1, raise_newest ..⟩⟩
  obtain ⟨setup, tick, compute, hbm⟩ := settles ((s.arrive t).setRing n { (s.arrive t).ring n with host := v })
  obtain ⟨host, enable⟩ := ring_of_setup setup n
  have written := State.ring_setRing_same (s := s.arrive t) (lt_length_of_enable on) { (s.arrive t).ring n with host := v }
  rw [written] at host enable
  exact ⟨host, enable.trans on, tick, compute, hbm⟩

/-- Settles O23: the six commands are one write to the pointer of their ring. -/
theorem pointerWritesTakeEffect : Obligations.PointerWritesTakeEffect := by
  intro t v s n c hc bar ring
  simp only [List.mem_cons, Prod.mk.injEq, List.not_mem_nil, or_false] at hc
  obtain ⟨rfl, rfl⟩ | ⟨rfl, rfl⟩ | ⟨rfl, rfl⟩ | ⟨rfl, rfl⟩ | ⟨rfl, rfl⟩ | ⟨rfl, rfl⟩ := hc
  · exact writePointer_effect arriveRecords_settles _ _ t bar ring rfl
  · exact writePointer_effect afterRoom_settles _ _ t bar ring rfl
  · exact writePointer_effect afterRoom_settles _ _ t bar ring rfl
  · exact writePointer_effect afterRoom_settles _ _ t bar ring rfl
  · exact writePointer_effect id_settles _ _ t bar ring rfl
  · exact writePointer_effect afterRoom_settles _ _ t bar ring rfl

end Sys2Proof.Machine
end

section
/-! PROOFS. Boundaries and the sources that place them (R15 to R19): where a boundary stands once it has been placed, and the
lock of the sources. -/

namespace Sys2Proof.Machine

set_option Elab.async false

/-! ### What stands of the newest boundary -/

/-- The newest boundary and the newest edge: their indices and instants. -/
def State.beat (s : State) : (Nat × Time × Bool) × Nat × Time :=
  ((s.tick.index, s.tick.boundary, s.tick.placed), s.tick.edgeIndex, s.tick.edgeTime)

theorem State.beat_eq_of_tick {s t : State} (h : t.tick = s.tick) : t.beat = s.beat := by
  rw [beat, beat, h]

theorem Touches.beat_eq {ps : List Part} {s t : State} (h : Touches ps s t) (hp : Part.tick ∉ ps := by decide) :
    t.beat = s.beat := State.beat_eq_of_tick (h.tick_eq hp)

/-- A fold keeps what each of its steps keeps. -/
theorem foldl_keeps {α β : Type} {f : State → α → State} (g : State → β) (hf : ∀ s a, g (f s a) = g s) (l : List α)
    (s : State) : g (l.foldl f s) = g s := by
  induction l generalizing s with
  | nil => rfl
  | cons a l ih => exact (ih _).trans (hf s a)

@[simp] theorem raise_beat (code arg : Nat) (s : State) : (raise code arg s).beat = s.beat := (raise_touches ..).beat_eq

@[simp] theorem forwardTick_beat (how : Placed) (dusk ended : Bool) (s : State) :
    (forwardTick how dusk ended s).beat = s.beat := (forwardTick_touches ..).beat_eq

@[simp] theorem leaveArmed_beat (s : State) : (leaveArmed s).beat = s.beat := by
  unfold leaveArmed
  exact (applyWatchEnd_touches _).beat_eq

@[simp] theorem causeDusk_beat (code : Nat) (s : State) : (causeDusk code s).beat = s.beat := by
  unfold causeDusk
  split
  · exact leaveArmed_beat s
  iterate 3
    split
    · rfl
    · dsimp only
      split
      · exact (reportToHead_touches ..).beat_eq
      · rfl
  · rfl

theorem pushRecord_beat (r : OutRecord) (s : State) : (pushRecord r s).beat = s.beat := by
  have late (t : State) : (markLate (drainRecords 82 t)).beat = t.beat := by
    rw [(markLate_touches _).beat_eq, (drainRecords_touches ..).beat_eq]
  unfold pushRecord
  dsimp only
  split
  · rw [causeDusk_beat, raise_beat, late]
    rfl
  · exact late _

theorem dueRecord_beat (r : OutRecord) (s : State) : (dueRecord r s).beat = s.beat := by
  unfold dueRecord
  split
  · exact pushRecord_beat r s
  · rfl

theorem closeFrames_beat (reason : GapReason) (s : State) : (closeFrames reason s).beat = s.beat :=
  foldl_keeps _ (fun s r => dueRecord_beat r s) _ s

theorem stopJob_beat (reason : GapReason) (keep : Bool) (s : State) : (stopJob reason keep s).beat = s.beat := by
  unfold stopJob
  extract_lets killed kept _ stopping closed marked _ left freed
  have hmarked : marked.beat = closed.beat := by
    unfold marked
    clear_value kept
    split
    · exact (stampCheckpoint_touches ..).beat_eq
    · exact (dropConditioning_touches _).beat_eq
  calc _ = freed.beat := by
        rw [(stopComplete_touches _).beat_eq, (applyWatchEnd_touches _).beat_eq, (releaseFault_touches _).beat_eq]
    _ = left.beat := (freePool_touches left).beat_eq
    _ = closed.beat := hmarked
    _ = killed.beat := closeFrames_beat reason stopping
    _ = s.beat := by rw [(killMedia_touches _).beat_eq, (killCompute_touches _).beat_eq]

@[simp] theorem duskStop_beat (code : Nat) (s : State) : (duskStop code s).beat = s.beat := by
  unfold duskStop
  rw [stopJob_beat]
  split
  · exact raise_beat ..
  · rfl

theorem noteShortfall_beat (s : State) : (noteShortfall s).beat = s.beat := by
  unfold noteShortfall
  split
  · simp
  · rfl

theorem duskHere_beat (how : Placed) (s : State) : (duskHere how s).2.beat = s.beat := by
  unfold duskHere
  repeat' split
  any_goals rfl
  any_goals exact noteShortfall_beat s
  exact raise_beat ..

theorem runBoundary_beat (k : Nat) (how : Placed) (s : State) : (runBoundary k how s).beat = s.beat := by
  have kept {d : Option PendingStop} {t : State} (h : duskHere how s = (d, t)) : t.beat = s.beat := by
    rw [← duskHere_beat how s, h]
  unfold runBoundary
  split
  next d t h => rw [duskStop_beat, kept h]
  next t h =>
    rw [← kept h]
    split
    · rw [(nextAk_touches ..).beat_eq, (startTick_touches ..).beat_eq]
    · split
      · rw [(nextAk_touches ..).beat_eq, (startTick_touches ..).beat_eq, (jobEndEffect_touches ..).beat_eq]
      · rw [(acceptFrame_touches ..).beat_eq, (startTick_touches ..).beat_eq]

theorem squallRecheck_beat (s : State) : (squallRecheck s).beat = s.beat := by
  unfold squallRecheck
  split
  · simp
  · rfl

theorem squallBoundary_beat (k : Nat) (how : Placed) (s : State) : (squallBoundary k how s).beat = s.beat := by
  unfold squallBoundary
  repeat' split
  · rfl
  · simp
  · rw [(squallResume_touches ..).beat_eq, forwardTick_beat]
  · rfl

theorem tickLost_beat (s : State) : (tickLost s).beat = s.beat := by
  unfold tickLost
  rw [duskStop_beat, raise_beat]
  exact forwardTick_beat ..

/-- A boundary leaves index, instant and edge as they are placed (R15 to R19), whatever happens there. -/
theorem boundary_beat (how : Placed) (s : State) : (boundary how s).beat = (placeBoundary s.nextIndex how s).beat := by
  unfold boundary
  extract_lets k third a _ _ b
  have ha : a.beat = (placeBoundary k how s).beat := (reportFlywheel_touches ..).beat_eq
  have hb : b.beat = a.beat := by
    unfold b
    split
    · split
      · simp
      · split
        · simp
        · rw [(startRun_touches ..).beat_eq, forwardTick_beat]
    iterate 2
      split
      · exact tickLost_beat a
      · rw [runBoundary_beat, forwardTick_beat]
    · rw [squallBoundary_beat, squallRecheck_beat]
    · rfl
  rw [← ha, ← hb]
  split <;> rfl

theorem State.hasBoundary_of_beat {s t : State} {k : Nat} {at0 : Time} (h : t.beat = s.beat) (hs : s.hasBoundary k at0) :
    t.hasBoundary k at0 := by
  obtain ⟨rfl, rfl, placed⟩ := hs
  simp only [beat, Prod.mk.injEq] at h
  obtain ⟨⟨index, boundary, hplaced⟩, -, -⟩ := h
  exact ⟨index, boundary, hplaced.trans placed⟩

/-- An edge that is accepted places the next boundary at the present instant, and is the newest edge (R15, R16). -/
theorem boundary_edge (s : State) :
    (boundary .edge s).hasBoundary s.nextIndex s.now
      ∧ (boundary .edge s).tick.edgeIndex = s.nextIndex ∧ (boundary .edge s).tick.edgeTime = s.now := by
  have h := boundary_beat .edge s
  refine ⟨State.hasBoundary_of_beat h ⟨rfl, rfl, rfl⟩, ?_, ?_⟩
  · exact congrArg (·.2.1) h
  · exact congrArg (·.2.2) h

/-- In a job that runs or drains, what is accepted as an edge places the boundary after the newest one. -/
theorem boundary_edge_of_placed {s : State} (placed : s.tick.placed = true) :
    (boundary .edge s).hasBoundary (s.tick.index + 1) s.now
      ∧ (boundary .edge s).tick.edgeIndex = s.tick.index + 1 ∧ (boundary .edge s).tick.edgeTime = s.now := by
  have h := boundary_edge s
  rwa [State.nextIndex, if_pos placed] at h

/-! ### Edges (R15, R16) -/

/-- The job runs or drains. -/
def State.runsOn (s : State) : Prop := s.job.phase = .running ∨ s.job.phase = .draining

theorem showLock_of_runsOn {s : State} (run : s.runsOn) : showLock s = s := by
  unfold showLock
  obtain run | run := run <;> rw [run]

theorem pulseInJob_of_window {s : State} (run : s.runsOn) (placed : s.tick.placed = true)
    (early : s.tick.boundary + s.tick.tp ≤ s.now + windowHalf s.tick.tp)
    (late : s.now ≤ s.tick.boundary + s.tick.tp + windowHalf s.tick.tp) :
    (pulseInJob s).hasBoundary (s.tick.index + 1) s.now ∧ (pulseInJob s).tick.edgeIndex = s.tick.index + 1
      ∧ (pulseInJob s).tick.edgeTime = s.now := by
  have here : (s.job.phase == .squall) = false := by obtain run | run := run <;> rw [run] <;> rfl
  simp only [pulseInJob, if_neg (Nat.not_lt.mpr early), if_pos late, here]
  exact boundary_edge_of_placed (s := { s with tick := { s.tick with trackers := _ } }) placed

theorem pulseInJob_of_early {s : State} (after : s.tick.boundary < s.now)
    (early : s.now + windowHalf s.tick.tp < s.tick.boundary + s.tick.tp) :
    pulseInJob s = raise 0x1902 s.tick.index s := by
  simp only [pulseInJob, if_pos early, if_pos after]

/-- The state with its sources followed this far (R18). -/
def State.withTrackers (s : State) (trackers : List Tracker) : State :=
  { s with tick := { s.tick with trackers := trackers } }

/-- An edge of the job's own frame pulse is judged by its window. -/
theorem pulseEdge_of_own {s : State} (run : s.runsOn) (source : s.tick.source = 1) (own : s.followsRing = false) :
    ∃ trackers, pulseEdge s = pulseInJob (s.withTrackers trackers) := by
  unfold pulseEdge
  extract_lets ours running _ tracked shown
  have same : shown = tracked := showLock_of_runsOn run
  have isOwn : ours = true := by simp [ours, source, own]
  refine ⟨tracked.tick.trackers, ?_⟩
  rw [same]
  obtain run | run := run
  · rw [show tracked.job.phase = .running from run]
    exact if_pos isOwn
  · rw [show tracked.job.phase = .draining from run]
    exact if_pos isOwn

theorem wordPlaces_of_window {s : State} (run : s.runsOn)
    (early : s.tick.edgeTime + (s.tick.index + 1 - s.tick.edgeIndex) * s.tick.tp
      ≤ s.now + ((s.tick.index + 1 - s.tick.edgeIndex) * s.tick.tp / 10000 + us 1))
    (late : s.now ≤ s.tick.edgeTime + (s.tick.index + 1 - s.tick.edgeIndex) * s.tick.tp
      + ((s.tick.index + 1 - s.tick.edgeIndex) * s.tick.tp / 10000 + us 1)) :
    wordPlaces true s = boundary .edge s := by
  unfold wordPlaces
  obtain run | run := run <;> rw [run] <;> simp [early, late]


/-- An edge of the job's own word clock that lies in its window is accepted. -/
theorem wordEdge_of_window {s : State} (source : s.tick.source = 2) (own : s.followsRing = false) (run : s.runsOn)
    (early : s.tick.edgeTime + (s.tick.index + 1 - s.tick.edgeIndex) * s.tick.tp
      ≤ s.now + ((s.tick.index + 1 - s.tick.edgeIndex) * s.tick.tp / 10000 + us 1))
    (late : s.now ≤ s.tick.edgeTime + (s.tick.index + 1 - s.tick.edgeIndex) * s.tick.tp
      + ((s.tick.index + 1 - s.tick.edgeIndex) * s.tick.tp / 10000 + us 1)) :
    wordEdge true s = boundary .edge { s with tick := { s.tick with wordEdge := some s.now } } := by
  have counts : (s.tick.source != 2 || s.followsRing) = false := by simp [source, own]
  refine (if_neg (Bool.eq_false_iff.mp counts)).trans ?_
  exact wordPlaces_of_window (s := { s with tick := { s.tick with wordEdge := some s.now } }) run early late

/-- The internal reference places what is due at the present instant. -/
theorem internalEdge_of_due {s : State} (source : s.tick.source = 0) (own : s.followsRing = false)
    (phase : s.job.phase = .armed ∨ s.runsOn)
    (due : (if s.tick.placed then some (s.tick.boundary + s.tick.tp) else s.tick.start) = some s.now) :
    internalEdge s = boundary .edge s := by
  unfold internalEdge
  rw [due]
  obtain phase | phase | phase := phase <;> simp [phase, source, own]

/-! ### T(0) (R15) -/

theorem Touches.phase_eq {ps : List Part} {s t : State} (h : Touches ps s t) (hp : Part.job ∉ ps := by decide) :
    t.job.phase = s.job.phase := congrArg (·.phase) (h.same .job hp)

theorem decidePath_phase (k : Nat) (s : State) : (decidePath k s).job.phase = s.job.phase := by
  unfold decidePath
  extract_lets due _ cleared judged
  refine (foldl_keeps (·.job.phase) (fun s r => ?_) due cleared : judged.job.phase = _)
  dsimp only
  split
  · exact (touchEntries_touches ..).phase_eq
  · exact (raise_touches ..).phase_eq.trans (touchEntries_touches ..).phase_eq

theorem startTick_phase (k : Nat) (s : State) : (startTick k s).job.phase = s.job.phase := by
  unfold startTick
  extract_lets switched decided _ _ _ cleared fetched
  calc _ = fetched.job.phase := by rw [(fitModel_touches _).phase_eq, (startEncodes_touches ..).phase_eq]
    _ = decided.job.phase := (fetchLists_touches cleared).phase_eq
    _ = switched.job.phase := decidePath_phase k switched
    _ = s.job.phase := (applyWatchEnd_touches _).phase_eq

theorem acceptFrame_phase (k : Nat) (flywheel : Bool) (s : State) : (acceptFrame k flywheel s).job.phase = s.job.phase := by
  unfold acceptFrame
  extract_lets f chosen segs held flags fr _ _ taken reported
  have h : reported.job.phase = taken.job.phase := by
    unfold reported
    split
    · exact (raise_touches ..).phase_eq
    · rfl
  calc _ = reported.job.phase := by
        rw [(releaseHeld_touches _).phase_eq, (startDecodes_touches ..).phase_eq, (writeConditioning_touches ..).phase_eq]
    _ = s.job.phase := h

/-- A job that does not resume runs from its first boundary on. -/
theorem startRun_phase {s : State} (k : Nat) (flywheel : Bool) (fresh : s.job.resume = false) :
    (startRun k flywheel s).job.phase = .running := by
  unfold startRun
  simp only [fresh]
  rw [if_neg (by decide), acceptFrame_phase, startTick_phase, (fillBuckets_touches _).job_eq]

/-- The first edge of a job that does not resume, outside a ring: the job runs. -/
theorem boundary_edge_of_armed {s : State} (armed : s.job.phase = .armed) (alone : s.inRing = false)
    (fresh : s.job.resume = false) (short : linkShort s = false) : (boundary .edge s).job.phase = .running := by
  have run := startRun_phase (s := placeBoundary s.nextIndex .edge s) s.nextIndex false fresh
  have passes : recheck (placeBoundary s.nextIndex .edge s) = none := by
    unfold recheck
    rw [show linkShort (placeBoundary s.nextIndex .edge s) = false from short,
      show (placeBoundary s.nextIndex .edge s).inRing = false from alone]
    rfl
  have alone' : (placeBoundary s.nextIndex .edge s).inRing = false := alone
  have armed' : (placeBoundary s.nextIndex .edge s).job.phase = .armed := armed
  simp [boundary, reportFlywheel, armed', forwardedDusk, passes, forwardTick, alone', isFlywheel, run]

theorem hearsTick_of_passed {s : State} {t : Time} (passed : s.dawn.phase = .passed) : (s.arrive t).hearsTick = true := by
  simp [State.hearsTick, State.arrive, passed]

/-- Settles O8: the five ways end in a boundary that is placed as an edge, the early pulse in its report. -/
theorem edgesPlaceBoundaries : Obligations.EdgesPlaceBoundaries := by
  refine ⟨fun t s passed source own run placed early late => ?_, fun t s passed source own run after early => ?_,
    fun t s n passed source own run placed hn early late => ?_, fun t s source own run placed due => ?_,
    fun t s armed source alone fresh unplaced start short => ⟨_, rfl, ?_⟩⟩
  · refine ⟨_, congrArg Host.Outcome.next (if_pos (hearsTick_of_passed passed)), ?_⟩
    obtain ⟨trackers, h⟩ := pulseEdge_of_own (s := s.arrive t) run source own
    rw [h]
    exact pulseInJob_of_window (s := (s.arrive t).withTrackers trackers) run placed early late
  · refine ⟨_, congrArg Host.Outcome.next (if_pos (hearsTick_of_passed passed)), ?_⟩
    obtain ⟨trackers, h⟩ := pulseEdge_of_own (s := s.arrive t) run source own
    rw [h, pulseInJob_of_early (s := (s.arrive t).withTrackers trackers) after early]
    have kept := raise_touches 0x1902 s.tick.index ((s.arrive t).withTrackers trackers)
    exact ⟨raise_newest .., congrArg (·.index) kept.tick_eq, congrArg (·.boundary) kept.tick_eq, kept.compute_eq⟩
  · refine ⟨_, congrArg Host.Outcome.next (if_pos (hearsTick_of_passed passed)), ?_⟩
    subst hn
    rw [wordEdge_of_window (s := s.arrive t) source own run early late]
    exact boundary_edge_of_placed (s := { s.arrive t with tick := { s.tick with wordEdge := some (max s.now t) } }) placed
  · refine ⟨_, rfl, ?_⟩
    have h : internalEdge (s.arrive t) = boundary .edge (s.arrive t) :=
      internalEdge_of_due source own (.inr run) (by rw [if_pos (by exact placed)]; exact congrArg some due.symm)
    rw [h]
    have := (boundary_edge_of_placed (s := s.arrive t) placed).1
    rwa [show (s.arrive t).now = _ from due] at this
  · have own : s.followsRing = false := by simp [State.followsRing, alone]
    rw [internalEdge_of_due (s := s.arrive t) source own (.inl armed) (by rw [if_neg (by simp [State.arrive, unplaced])]; exact start)]
    refine ⟨?_, boundary_edge_of_armed armed alone fresh short⟩
    have := (boundary_edge (s.arrive t)).1
    rwa [State.nextIndex, if_neg (by simp [State.arrive, unplaced])] at this

/-! ### Lock (R18) -/

@[simp] theorem showLock_trackers (s : State) : (showLock s).tick.trackers = s.tick.trackers := by
  unfold showLock
  repeat' split
  all_goals rfl

@[simp] theorem showLock_clockLock (s : State) : (showLock s).tick.clockLock = s.tick.clockLock := by
  unfold showLock
  repeat' split
  all_goals rfl

theorem showLock_beat (s : State) : (showLock s).beat = s.beat := by
  unfold showLock
  repeat' split
  all_goals rfl

/-- What an ARMED job that loses its lock leaves of the sources: what is tracked of them. -/
theorem lockLost_tracked (s : State) :
    (lockLost s).tick.trackers = s.tick.trackers ∧ (lockLost s).tick.clockLock = s.tick.clockLock := by
  have left (u : State) : (leaveArmed u).tick = { u.tick with start := none } := (applyWatchEnd_touches _).tick_eq
  unfold lockLost
  rw [left, (raiseAs_touches ..).tick_eq]
  exact ⟨rfl, rfl⟩

/-- A tracker once the source may have been silent for too long (R18). -/
def Tracker.timeout (now : Time) (tr : Tracker) : Tracker := match tr.newest with
  | some p => if p + tr.tp + windowHalf tr.tp ≤ now then { tr with newest := none, run := 0, locked := false } else tr
  | none => tr

theorem Tracker.timeout_of_old {tr : Tracker} {p now : Time} (newest : tr.newest = some p)
    (old : p + tr.tp + windowHalf tr.tp ≤ now) :
    tr.timeout now = { tr with newest := none, run := 0, locked := false } := by
  simp only [timeout, newest, if_pos old]

theorem lockTimeout_of_runsOn {s : State} (run : s.runsOn) : lockTimeout s = s := by
  unfold lockTimeout
  obtain run | run := run <;> rw [run]

theorem lockTimeout_trackers {s : State} (run : s.job.phase ≠ .running) (drain : s.job.phase ≠ .draining) :
    (lockTimeout s).tick.trackers = s.tick.trackers.map (Tracker.timeout s.now) := by
  unfold lockTimeout
  split
  · exact absurd ‹_› run
  · exact absurd ‹_› drain
  · dsimp only
    split
    · rw [(lockLost_tracked _).1, showLock_trackers]
      rfl
    · rw [showLock_trackers]
      rfl

theorem not_ticking {s : State} (run : s.job.phase ≠ .running) (drain : s.job.phase ≠ .draining) : s.ticking = false := by
  simp [State.ticking, run, drain]

theorem clockUnlock_clockLock {s : State} (rate : Nat) (run : s.job.phase ≠ .running) (drain : s.job.phase ≠ .draining) :
    (clockUnlock rate s).tick.clockLock = s.tick.clockLock.set rate false := by
  unfold clockUnlock
  rw [if_neg (by simp [not_ticking run drain])]
  dsimp only
  split
  · rw [(lockLost_tracked _).2, showLock_clockLock]
    rfl
  · rw [showLock_clockLock]
    rfl

theorem clockUnlock_of_own {s : State} {rate : Nat} (run : s.runsOn) (own : ownClock rate s = true) :
    clockUnlock rate s = s := by
  have ticks : s.ticking = true := by obtain run | run := run <;> simp [State.ticking, run]
  simp [clockUnlock, ticks, own]

/-- Settles O10: outside RUNNING and DRAINING the trackers time out and the word clock follows its lock, in them neither. -/
theorem lockFollowsTheSource : Obligations.LockFollowsTheSource := by
  refine ⟨fun t s i tr p run drain here newest old => ⟨_, rfl, ?_⟩, fun t rate s passed => ?_,
    fun t rate s passed run drain => ?_, fun t rate s run => ⟨?_, fun own => ?_⟩⟩
  · rw [lockTimeout_trackers (s := s.arrive t) run drain, List.getElem?_map]
    rw [show (s.arrive t).tick.trackers[i]? = some tr from here]
    exact congrArg some (Tracker.timeout_of_old newest old)
  · refine ⟨_, congrArg Host.Outcome.next (if_pos (hearsTick_of_passed passed)), showLock_clockLock _, ?_⟩
    have beat := showLock_beat (setClock rate true (s.arrive t))
    exact ⟨(showLock_touches _).job_eq, congrArg (·.1.1) beat, congrArg (·.1.2.1) beat⟩
  · exact ⟨_, congrArg Host.Outcome.next (if_pos (hearsTick_of_passed passed)),
      clockUnlock_clockLock (s := s.arrive t) rate run drain⟩
  · exact congrArg Host.Outcome.next (lockTimeout_of_runsOn (s := s.arrive t) run)
  · refine congrArg Host.Outcome.next ?_
    dsimp only
    split
    · exact clockUnlock_of_own (s := s.arrive t) run own
    · rfl

end Sys2Proof.Machine
end

section
/-! PROOFS. The commit of a tick (R24), with what READY of a ring's members asks of it (R332). -/

namespace Sys2Proof.Machine

set_option Elab.async false

/-! ### What sending a flit keeps of the links -/

/-- The links without their ports, and without the turns of the transfers that the ports take. -/
def State.exchange (s : State) : LinkState := { s.link with ports := [], turns := [] }

@[simp] theorem setPort_exchange (s : State) (n : Nat) (p : Port) : (s.setPort n p).exchange = s.exchange := rfl

theorem pump_exchange (port : Nat) (s : State) : (pump port s).exchange = s.exchange := by
  unfold pump
  refine foldl_keeps State.exchange (fun s w => ?_) _ _
  split
  · rfl
  · rfl

theorem sendControl_exchange (forward : Bool) (origin : Option Nat) (body : Bytes) (s : State) :
    (sendControl forward origin body s).exchange = s.exchange :=
  pump_exchange ..

theorem sendTo_exchange (op dst : Nat) (payload : Bytes) (s : State) : (sendTo op dst payload s).exchange = s.exchange :=
  sendControl_exchange ..

/-! ### READY -/

theorem inRing_of_job {s t : State} (h : t.job = s.job) : t.inRing = s.inRing := by
  rw [State.inRing, State.hasJob, State.inJob, h]
  rfl

theorem Touches.ak_eq {ps : List Part} {s t : State} (h : Touches ps s t) (hp : Part.job ∉ ps := by decide) :
    t.job.ak = s.job.ak := congrArg (·.ak) (h.same .job hp)


/-- READY goes out once: its own is held with the others. -/
theorem sendReady_ready {s : State} (ring : s.inRing = true) (ticks : s.ticking = true) (complete : allCommitted s = true)
    (unsent : s.link.readySent ≠ some s.tick.index) :
    (sendReady s).link.ready = s.link.ready ++ [(s.job.position, s.tick.index)] := by
  have sent := foldl_keeps (f := fun u p => if p == u.job.position then u else sendTo 0x21 p (toLe 8 s.tick.index) u)
    (fun s => (s.exchange, s.job)) (fun s p => by
      split
      · rfl
      · exact Prod.ext (sendTo_exchange ..) (sendTo_touches ..).job_eq) (List.range s.job.variant) s
  unfold sendReady
  simp only [ring, ticks, complete, Bool.true_and, bne_iff_ne, ne_eq, unsent, not_false_eq_true, if_true]
  have ready := congrArg (·.1.ready) sent
  have position := congrArg (·.2.position) sent
  exact congr (congrArg HAppend.hAppend ready) (congrArg (fun p => [(p, s.tick.index)]) position)

/-- With READY held from every other position, the module's own makes it held from all. -/
theorem readyHeld_sendReady {s : State} (ticks : s.ticking = true) (complete : allCommitted s = true)
    (held : s.inRing = true → s.link.readySent ≠ some s.tick.index
      ∧ ∀ p, p < s.job.variant → p ≠ s.job.position → (p, s.tick.index) ∈ s.link.ready) :
    readyHeld (sendReady s) = true := by
  have sent := sendReady_touches s
  unfold readyHeld
  rw [sent.job_eq, sent.tick_eq]
  by_cases ring : s.inRing = true
  · obtain ⟨unsent, others⟩ := held ring
    rw [sendReady_ready ring ticks complete unsent, Bool.or_eq_true]
    refine .inr (List.all_eq_true.mpr fun p hp => ?_)
    by_cases own : p = s.job.position
    · simp [own]
    · simp [others p (List.mem_range.mp hp) own]
  · rw [Bool.not_eq_true] at ring
    have same : (sendReady s).inRing = s.inRing := inRing_of_job sent.job_eq
    rw [same, ring]
    rfl

/-- What a commit leaves: the tick, and of the job all but its frames and what has committed. -/
theorem commitTick_of_complete {s : State} (ticks : s.ticking = true) (open' : s.tickCommitted = false)
    (live : s.compute.inReset = false) (kept : s.compute.abandoned = false) (complete : allCommitted s = true)
    (ready : readyHeld (sendReady s) = true) :
    (commitTick s).job.committed = some s.tick.index ∧ (commitTick s).job.ckptTick = some s.tick.index
      ∧ (commitTick s).job.akCommitted = s.job.ak ∧ (commitTick s).tick = s.tick := by
  have sent := sendReady_touches s
  have holds : ((sendReady s).ticking && !(sendReady s).tickCommitted && !(sendReady s).compute.inReset
      && !(sendReady s).compute.abandoned && allCommitted (sendReady s) && readyHeld (sendReady s)) = true := by
    have phase : (sendReady s).ticking = s.ticking := by rw [State.ticking, sent.job_eq]; rfl
    have newest : (sendReady s).tickCommitted = s.tickCommitted := by rw [State.tickCommitted, sent.job_eq, sent.tick_eq]; rfl
    have all : allCommitted (sendReady s) = allCommitted s := by rw [allCommitted, sent.compute_eq]; rfl
    rw [phase, newest, all, sent.compute_eq, ticks, open', live, kept, complete, ready]
    rfl
  unfold commitTick
  extract_lets sentState k pictures written
  rw [if_pos holds]
  have kept : Touches [.frames, .media, .mem, .tier, .host, .integrity, .link] s written :=
    .via (writeCheckpoint_touches ..) (.via (commitPictures_touches _) (.via (advanceFrames_touches ..) sent.mono))
  have index : k = s.tick.index := congrArg TickState.index sent.tick_eq
  clear_value written k
  exact ⟨congrArg some index, congrArg some index, kept.ak_eq, kept.tick_eq⟩

/-- Settles O12: with READY held, the conditions of the commit stand as they did before it was sent. -/
theorem tickCommitsWhenComplete : Obligations.TickCommitsWhenComplete := by
  intro t s phase open' live kept complete held
  have ticks : (s.arrive t).ticking = true := by obtain h | h := phase <;> simp [State.ticking, State.arrive, h]
  exact ⟨_, rfl, commitTick_of_complete (s := s.arrive t) ticks open' live kept complete
    (readyHeld_sendReady (s := s.arrive t) ticks complete held)⟩

end Sys2Proof.Machine
end

section
/-! PROOFS. The commands of the engines: what a command finds in the memories (R61), how it issues (R53, R67), waits and
faults. -/

namespace Sys2Proof.Machine

set_option Elab.async false

/-! ### What an access finds -/

/-- Two states in which an access reads the same and writes to the same places: the memories of the module, and where the
resident blocks stand. -/
def Alike (s t : State) : Prop :=
  (∀ sp, sp ≠ .host → t.mem.get sp = s.mem.get sp) ∧ ∀ a, t.residentAddr a = s.residentAddr a

namespace Alike

theorem refl (s : State) : Alike s s := ⟨fun _ _ => rfl, fun _ => rfl⟩

theorem trans {s t u : State} (h : Alike s t) (k : Alike t u) : Alike s u :=
  ⟨fun sp hsp => (k.1 sp hsp).trans (h.1 sp hsp), fun a => (k.2 a).trans (h.2 a)⟩

theorem of_foldl {α : Type} {f : State → α → State} (hf : ∀ s a, Alike s (f s a)) (l : List α) (s : State) :
    Alike s (l.foldl f s) := by
  induction l generalizing s with
  | nil => exact refl s
  | cons a l ih => exact (hf s a).trans (ih _)

end Alike

theorem residentAddr_congr {s t : State} (entries : t.tier.entries = s.tier.entries)
    (pool : t.dawn.layout = s.dawn.layout) (a : Nat) : t.residentAddr a = s.residentAddr a := by
  unfold State.residentAddr State.dirEntry
  rw [entries, pool]

/-- An operation that touches neither a memory of the module nor the tier changes no access. -/
theorem Touches.alike {ps : List Part} {s t : State} (h : Touches ps s t) (mem : Part.mem ∉ ps := by decide)
    (tier : Part.tier ∉ ps := by decide) (plans : Part.plans ∉ ps := by decide) : Alike s t :=
  ⟨fun sp hsp => Mems.get_of_host (h.same .mem mem) sp hsp,
    residentAddr_congr (congrArg _ (h.tier_eq tier)) (h.same .plans plans).2.2.2⟩

theorem locate_ne_host {s : State} {cx : Access} {space addr a : Nat} {sp : Space}
    (h : locate s cx space addr = some (sp, a)) : sp ≠ .host := by
  unfold locate at h
  split at h
  case h_6 =>
    obtain ⟨b, -, hb⟩ := Option.map_eq_some_iff.mp h
    cases hb
    decide
  all_goals cases h
  all_goals decide

theorem Alike.locate_eq {s t : State} (h : Alike s t) (cx : Access) (space addr : Nat) :
    locate t cx space addr = locate s cx space addr := by
  unfold locate
  split
  case h_6 => rw [h.2]
  all_goals rfl

theorem Alike.readByte_eq {s t : State} (h : Alike s t) (cx : Access) (space base addr : Nat) :
    readByte t cx space base addr = readByte s cx space base addr := by
  unfold readByte
  rw [h.locate_eq]
  split
  · rfl
  · split
    next sp a found => rw [h.1 sp (locate_ne_host found)]
    next => rfl

theorem Alike.readLeAt_eq {s t : State} (h : Alike s t) (cx : Access) (space base addr n : Nat) :
    readLeAt t cx space base addr n = readLeAt s cx space base addr n := by
  unfold readLeAt
  simp only [h.readByte_eq]

/-! ### What an output writes -/

theorem Mems.get_put (m : Mems) (a b : Space) (v : Memory) : (m.put a v).get b = if b = a then v else m.get b := by
  split
  next h => subst h; cases b <;> rfl
  next h => exact Mems.get_put_ne m a b v (Ne.symm h)

theorem Alike.putByte {s t : State} (h : Alike s t) (cx : Access) (p : Put) :
    Alike (putByte cx s p) (putByte cx t p) := by
  unfold Machine.putByte
  rw [h.locate_eq]
  split
  next sp a found =>
    refine ⟨fun sp' hsp => ?_, fun b => ?_⟩
    · rw [State.writeMem_mem, State.writeMem_mem, Mems.get_put, Mems.get_put, h.1 sp' hsp, h.1 sp (locate_ne_host found)]
    · exact ((residentAddr_congr rfl rfl b).trans (h.2 b)).trans (residentAddr_congr rfl rfl b).symm
  next => exact h

/-- A fold of steps that each keep two states alike does. -/
theorem Alike.foldl {α : Type} {f g : State → α → State} (hf : ∀ s t a, Alike s t → Alike (f s a) (g t a)) {s t : State}
    (h : Alike s t) (l : List α) : Alike (l.foldl f s) (l.foldl g t) := by
  induction l generalizing s t with
  | nil => exact h
  | cons a l ih => exact ih (hf s t a h)

theorem Alike.writeCode {s t : State} (h : Alike s t) (cx : Access) (x : Tensor) (ix : List Nat) (code : Nat) :
    Alike (writeCode cx x ix code s) (writeCode cx x ix code t) := by
  unfold Machine.writeCode
  dsimp only
  rw [h.readLeAt_eq]
  exact h.foldl (fun _ _ p hst => hst.putByte cx ⟨x.space, p.1, p.2⟩) _

theorem Alike.writeOut {s t : State} (h : Alike s t) (cx : Access) (o : Out) :
    Alike (writeOut cx o s) (writeOut cx o t) := by
  have codes := h.foldl (fun _ _ e hst => hst.writeCode cx o.tensor e.1 e.2) o.codes
  exact codes.foldl (fun _ _ e hst => hst.putByte cx ⟨o.tensor.space, o.tensor.scaleAddr e.1, BitVec.ofNat 8 e.2⟩) o.scales

/-- From s to t the resident blocks stand where they stood, a byte is as it was, and the memories are canonical. -/
structure Untouched (sp : Space) (a : Nat) (s t : State) : Prop where
  wf : t.mem.wf = true
  resident : ∀ x, t.residentAddr x = s.residentAddr x
  byte : (t.mem.get sp).read a = (s.mem.get sp).read a

theorem locate_of_resident {s t : State} (h : ∀ x, t.residentAddr x = s.residentAddr x) (cx : Access) (space addr : Nat) :
    locate t cx space addr = locate s cx space addr := by
  unfold locate
  split
  case h_6 => rw [h]
  all_goals rfl

theorem Untouched.putByte {sp : Space} {a : Nat} {s t : State} (h : Untouched sp a s t) (cx : Access) (p : Put)
    (elsewhere : locate s cx p.space p.addr ≠ some (sp, a)) : Untouched sp a s (putByte cx t p) := by
  unfold Machine.putByte
  rw [locate_of_resident h.resident]
  split
  next sp' b found =>
    refine ⟨Mems.wf_putBytes h.wf sp' b _, fun x => (residentAddr_congr rfl rfl x).trans (h.resident x), ?_⟩
    rw [State.writeMem_mem, Mems.get_put]
    split
    next same =>
      subst same
      have apart : a ≠ b := fun e => elsewhere (e ▸ found)
      rw [Memory.read_writeBytes_outside (Mems.wf_get h.wf sp) b _ a (by simp only [List.length_singleton]; omega)]
      exact h.byte
    next => exact h.byte
  next => exact h

theorem Untouched.writeCode {sp : Space} {a : Nat} {s t : State} (h : Untouched sp a s t) (cx : Access) (x : Tensor)
    (ix : List Nat) (code : Nat)
    (elsewhere : ∀ i, i < placeBytes x.fmt (elementPlace x.fmt x.base (x.offset ix)) →
      locate s cx x.space ((elementPlace x.fmt x.base (x.offset ix)).1 + i) ≠ some (sp, a)) :
    Untouched sp a s (writeCode cx x ix code t) := by
  unfold Machine.writeCode
  refine List.foldlRecOn _ _ h fun u hu p hp => hu.putByte cx _ ?_
  simp only [codeBytes, List.mem_map, List.mem_range] at hp
  obtain ⟨i, hi, rfl⟩ := hp
  exact elsewhere i hi

/-- A byte to which no part of an output goes is as it was once the output is written. -/
theorem Untouched.writeOut {sp : Space} {a : Nat} {s t : State} (h : Untouched sp a s t) (cx : Access) (o : Out)
    (apart : ¬ o.stores cx s sp a) : Untouched sp a s (writeOut cx o t) := by
  obtain ⟨codes, scales⟩ := not_or.mp apart
  refine List.foldlRecOn o.scales _ ?_ fun u hu e he => hu.putByte cx _ fun found => scales ⟨e, he, found⟩
  exact List.foldlRecOn o.codes _ h fun u hu e he =>
    hu.writeCode cx o.tensor e.1 e.2 fun i hi found => codes ⟨e, he, i, hi, found⟩

theorem Untouched.writeOuts {sp : Space} {a : Nat} {s : State} (h : s.mem.wf = true) (cx : Access) (outs : List Out)
    (apart : ∀ o ∈ outs, ¬ o.stores cx s sp a) :
    Untouched sp a s (outs.foldl (fun t o => Machine.writeOut cx o t) s) :=
  List.foldlRecOn outs _ ⟨h, fun _ => rfl, rfl⟩ fun _ hu o ho => hu.writeOut cx o (apart o ho)

/-! ### What an issue leaves of the accesses -/

theorem chargeCore_alike (core addr n : Nat) (s : State) : Alike s (chargeCore core addr n s) :=
  ⟨fun _ _ => rfl, fun x => residentAddr_congr rfl rfl x⟩

theorem chargeTensor_alike (core : Nat) (s : State) (i : Nat) : Alike s (chargeTensor core s i) := by
  unfold chargeTensor
  dsimp only
  split
  · exact chargeCore_alike ..
  · exact chargeCore_alike ..
  · exact .refl s

theorem dirEntry_setEntry {s : State} {i : Nat} {e : DirEntry} (old : s.dirEntry i = some e) (f : DirEntry) (j : Nat) :
    (s.setEntry i f).dirEntry j = if j = i then some f else s.dirEntry j := by
  obtain ⟨p, hp, -⟩ := Option.map_eq_some_iff.mp old
  have key (q : Nat × DirEntry) : (if q.1 == i then (i, f) else q).1 = q.1 := by
    split
    next h => exact (beq_iff_eq.mp h).symm
    next => rfl
  have found : (s.tier.entries.map fun q => if q.1 == i then (i, f) else q).find? (·.1 == j)
      = (s.tier.entries.find? (·.1 == j)).map fun q => if q.1 == i then (i, f) else q := by
    rw [List.find?_map]
    simp only [Function.comp_def, key]
  unfold State.dirEntry State.setEntry
  rw [found]
  split
  next h =>
    subst h
    rw [hp]
    exact congrArg (fun q : Nat × DirEntry => some q.2) (if_pos (List.find?_some hp))
  next h =>
    cases hq : s.tier.entries.find? (·.1 == j) with
    | none => rfl
    | some q =>
      have hj := List.find?_some hq
      have : q.1 ≠ i := fun e => h ((beq_iff_eq.mp hj).symm.trans e)
      simp [this]

/-- Where an entry of the directory is replaced by one with the same state in the same frame, the blocks stand where they
stood. -/
theorem setEntry_alike {s : State} {i : Nat} {e f : DirEntry} (old : s.dirEntry i = some e) (status : f.status = e.status)
    (frame : f.frame = e.frame) : Alike s (s.setEntry i f) := by
  refine ⟨fun _ _ => rfl, fun a => ?_⟩
  unfold State.residentAddr
  rw [dirEntry_setEntry old]
  by_cases same : bits a 20 17 = i
  · rw [if_pos same, same, old]
    simp only [status, frame]
    rfl
  · rw [if_neg same]
    rfl

theorem touchEntries_alike (l : List Nat) (s : State) : Alike s (touchEntries l s) := by
  refine .of_foldl (fun s i => ?_) l s
  split
  next e old => exact setEntry_alike old rfl rfl
  next => exact .refl s

/-! ### What is in flight -/

@[simp] theorem markIssued_runs (core place : Nat) (s : State) :
    (markIssued core place s).compute.runs = s.compute.runs := by
  unfold markIssued
  split <;> rfl

@[simp] theorem takeEdge_runs (core : Nat) (s : State) : (takeEdge core s).compute.runs = s.compute.runs := rfl

@[simp] theorem requestEdge_runs (core : Nat) (s : State) : (requestEdge core s).compute.runs = s.compute.runs := by
  unfold requestEdge
  split <;> rfl

theorem startGuest_runs (s : State) (g : Guest) : (startGuest s g).compute.runs = s.compute.runs := by
  unfold startGuest
  repeat' split
  all_goals simp

theorem startGuests_runs (s : State) : (startGuests s).compute.runs = s.compute.runs :=
  foldl_keeps (·.compute.runs) startGuest_runs _ s

theorem selectCirrus_runs (core place : Nat) (c : Bytes) (agreed : Option (Nat × Nat)) (s : State) :
    (selectCirrus core place c agreed s).2.compute.runs = s.compute.runs := by
  unfold selectCirrus
  repeat' split
  all_goals rfl

/-! ### Issue -/

theorem Touches.committed_eq {ps : List Part} {s t : State} (h : Touches ps s t) (hp : Part.job ∉ ps := by decide) :
    t.job.committed = s.job.committed := congrArg (·.committed) (h.same .job hp)


theorem raise_alike (code arg : Nat) (s : State) : Alike s (raise code arg s) := (raise_touches code arg s).alike

/-- The state in which a command issues: its notes reported and the entries that it reads marked as used. -/
def Work.noted (w : Work) (s : State) : State :=
  touchEntries w.reads (w.notes.foldl (fun s e => raise e.1 e.2 s) s)

theorem noted_alike (w : Work) (s : State) : Alike s (w.noted s) :=
  (Alike.of_foldl (fun s (e : Nat × Nat) => raise_alike e.1 e.2 s) w.notes s).trans (touchEntries_alike ..)

theorem noted_touches (w : Work) (s : State) : Touches [.code, .host, .tier] s (w.noted s) :=
  .via (touchEntries_touches ..) (.foldl (fun _ _ => (raise_touches ..).mono) (.refl _ s))

/-- A command that is in flight, and the guests that can issue after it. -/
theorem startGuests_effect (core : Nat) (edge : Bool) (s : State) :
    (startGuests (if edge then takeEdge core s else s)).compute.runs = s.compute.runs
      ∧ Touches [.engines] s (startGuests (if edge then takeEdge core s else s)) := by
  rw [startGuests_runs]
  cases edge
  · exact ⟨rfl, startGuests_touches s⟩
  · exact ⟨rfl, .via (startGuests_touches _) (takeEdge_touches core s)⟩

theorem freeChannel_congr {s t : State} (h : t.compute.runs = s.compute.runs) (core : Nat) (c : Bytes) :
    freeChannel t core c = freeChannel s core c := by
  unfold freeChannel
  rw [h]

/-- One more command is in flight. -/
def State.withRun (s : State) (r : Run) : State := { s with compute := { s.compute with runs := s.compute.runs ++ [r] } }

/-- The state in which the outputs of an issuing command are written, with its Cirrus side. -/
def selected (core place : Nat) (c : Bytes) (w : Work) (s : State) : CirrusPhase × State :=
  selectCirrus core place c (((w.noted s).compute.agreed.find? (·.1 == (core, place))).map (·.2))
    (markIssued core place (w.noted s))

theorem selected_alike (core place : Nat) (c : Bytes) (w : Work) (s : State) : Alike s (selected core place c w s).2 :=
  ((noted_alike w s).trans (markIssued_touches ..).alike).trans (selectCirrus_touches ..).alike

theorem selected_touches (core place : Nat) (c : Bytes) (w : Work) (s : State) :
    Touches [.engines, .code, .host, .tier, .integrity] s (selected core place c w s).2 :=
  .via (selectCirrus_touches ..) (.via (markIssued_touches ..) (noted_touches w s).mono)

theorem selected_runs (core place : Nat) (c : Bytes) (w : Work) (s : State) :
    (selected core place c w s).2.compute.runs = s.compute.runs := by
  rw [selected, selectCirrus_runs, markIssued_runs, (noted_touches w s).compute_eq]

/-- The memories with the outputs of a command written. -/
def written (cx : Access) (w : Work) (s : State) : State := w.outs.foldl (fun t o => writeOut cx o t) s

theorem written_touches (cx : Access) (w : Work) (s : State) : Touches [.mem, .host] s (written cx w s) :=
  .foldl (fun _ _ => writeOut_touches ..) (.refl _ s)

/-- A launch that does not kill itself, step by step. -/
theorem launch_of_alive {core place : Nat} {c : Bytes} {cx : Access} {w : Work} {s : State} (alive : w.kill = none) :
    launch core place c cx w true s
      = startGuests (if cmdOpcode c == 0x0D
        then takeEdge core ((written cx w (selected core place c w s).2).withRun (launched core place c cx w
          (selected core place c w s).1 (freeChannel (written cx w (selected core place c w s).2) core c)))
        else (written cx w (selected core place c w s).2).withRun (launched core place c cx w
          (selected core place c w s).1 (freeChannel (written cx w (selected core place c w s).2) core c))) := by
  unfold launch
  rw [alive]
  rfl

/-- What a launch comes to that does not kill itself: in flight, with its outputs written. -/
theorem launch_effect {core place : Nat} {c : Bytes} {cx : Access} {w : Work} {s : State} (alive : w.kill = none) :
    ∃ cirrus, (launch core place c cx w true s).compute.runs
        = s.compute.runs ++ [launched core place c cx w cirrus (freeChannel s core c)]
      ∧ Touches [.engines, .code, .host, .tier, .mem, .integrity] s (launch core place c cx w true s)
      ∧ Alike (written cx w s) (launch core place c cx w true s) := by
  have outs := written_touches cx w (selected core place c w s).2
  have runs : (written cx w (selected core place c w s).2).compute.runs = s.compute.runs := by
    rw [outs.compute_eq, selected_runs]
  refine ⟨(selected core place c w s).1, ?_⟩
  rw [launch_of_alive alive, freeChannel_congr runs]
  obtain ⟨guestRuns, guests⟩ := startGuests_effect core (cmdOpcode c == 0x0D)
    ((written cx w (selected core place c w s).2).withRun
      (launched core place c cx w (selected core place c w s).1 (freeChannel s core c)))
  refine ⟨guestRuns.trans (congrArg (· ++ _) runs), .via guests (.update (.via outs (selected_touches ..).mono) ?_ ?_), ?_⟩
  · exact id
  · intro q hq
    cases q <;> first | exact absurd (by decide) hq | simp only [Part.same, and_self]
  · refine Alike.trans ?_ guests.alike
    exact (selected_alike core place c w s).foldl (fun _ _ o h => h.writeOut cx o) w.outs

theorem chargeTensors_touches (core : Nat) (l : List Nat) (s : State) : Touches [.tier] s (l.foldl (chargeTensor core) s) :=
  .foldl (fun _ _ => chargeTensor_touches ..) (.refl _ s)

/-- The core that an engine command is asked of issues its next command where nothing holds it back. -/
theorem issue_of_ready {core place : Nat} {host c : Bytes} {asked : Bytes → Bool} {tensors : State → Bytes → List Nat}
    {work : Access → Bytes → State → Work} {s : State} (next : nextCommand s core = some (place, c)) (own : asked c = true)
    (ready : canIssue s core c = true) (inside : ∀ x ∈ tensors s c, (s.tensor x).inside = true) :
    issue core host asked tensors work s
      = .next (launch core place c (accessFor s core c host) (work (accessFor s core c host) c s) true
          ((tensors s c).foldl (chargeTensor core) s)) := by
  have none : ((tensors s c).any fun i => !(s.tensor i).inside) = false := by
    simpa using inside
  simp [issue, next, own, ready, none]

/-- Settles O30: the launch of the next command, between the charge of its tensors and the start of waiting guests. -/
theorem engineCommandsIssue : Obligations.EngineCommandsIssue := by
  intro i e s s' place c cx w hi hs' wf next own ready inside hcx hw alive
  subst hs'
  have charged := chargeTensors_touches e.core (e.tensors (s.arrive i.time) c) (s.arrive i.time)
  have chargedAlike := Alike.of_foldl (chargeTensor_alike e.core) (e.tensors (s.arrive i.time) c) (s.arrive i.time)
  have run : exec i s = .next (launch e.core place c cx w true
      ((e.tensors (s.arrive i.time) c).foldl (chargeTensor e.core) (s.arrive i.time))) := by
    rw [exec_of_issueOf hi, issue_of_ready next own ready inside, hw, hcx]
  generalize (e.tensors (s.arrive i.time) c).foldl (chargeTensor e.core) (s.arrive i.time) = s1
    at charged chargedAlike run
  obtain ⟨cirrus, runs, touches, alike⟩ := launch_effect (core := e.core) (place := place) (c := c) (cx := cx) (s := s1) alive
  have all : Touches [.engines, .code, .host, .tier, .mem, .integrity] (s.arrive i.time)
      (launch e.core place c cx w true s1) := touches.via charged.mono
  have sameRuns := congrArg ComputeState.runs charged.compute_eq
  rw [sameRuns, freeChannel_congr sameRuns] at runs
  have mem (sp : Space) (hsp : sp ≠ .host) :
      (launch e.core place c cx w true s1).mem.get sp = (written cx w (s.arrive i.time)).mem.get sp :=
    ((chargedAlike.foldl (fun _ _ o h => h.writeOut cx o) w.outs).trans alike).1 sp hsp
  obtain ⟨done, counts, ordered⟩ := all.same .progress (by decide)
  refine ⟨_, cirrus, run, runs, done, counts, ordered, all.tick_eq, all.phase_eq, all.committed_eq,
    all.link_eq, all.media_eq, all.dawn_eq, all.nimbus_eq, all.stratus_eq, mem,
    fun sp a hsp apart => ?_⟩
  rw [mem sp hsp]
  exact (Untouched.writeOuts (s := s.arrive i.time) wf cx w.outs apart).byte

/-! ### Commands that wait, and faults -/

/-- A core's request for the edge engine, once it waits: it stands in the queue, and nothing else changes. -/
theorem requestEdge_effect (core : Nat) (s : State) :
    requestEdge core s = { s with compute := { s.compute with edgeQueue := (requestEdge core s).compute.edgeQueue } }
      ∧ (∃ q ∈ (requestEdge core s).compute.edgeQueue, q.1 = core)
      ∧ ∀ q ∈ s.compute.edgeQueue, q ∈ (requestEdge core s).compute.edgeQueue := by
  unfold requestEdge
  split
  next waits =>
    obtain ⟨q, hq, own⟩ := List.any_eq_true.mp waits
    exact ⟨rfl, ⟨q, hq, beq_iff_eq.mp own⟩, fun _ h => h⟩
  next => exact ⟨rfl, ⟨(core, s.now), by simp, rfl⟩, fun _ h => List.mem_append_left _ h⟩

theorem waitIssue_of_not_mayIssue {s : State} {core : Nat} {c : Bytes} (h : mayIssue s core c = false) :
    waitIssue core c s = s := by
  simp [waitIssue, h]

theorem waitIssue_of_edge {s : State} {core : Nat} {c : Bytes} (may : mayIssue s core c = true)
    (edge : edgeFree s core c = false) : waitIssue core c s = requestEdge core s := by
  simp [waitIssue, may, edge]

section
variable {core place : Nat} {host c : Bytes} {asked : Bytes → Bool} {tensors : State → Bytes → List Nat}
  {work : Access → Bytes → State → Work} {s : State}

theorem issue_of_none (next : nextCommand s core = none) : issue core host asked tensors work s = .next s := by
  simp [issue, next]

theorem issue_of_other (next : nextCommand s core = some (place, c)) (other : asked c = false) :
    issue core host asked tensors work s = .next s := by
  simp [issue, next, other]

theorem issue_of_waiting (next : nextCommand s core = some (place, c)) (own : asked c = true)
    (waits : canIssue s core c = false) : issue core host asked tensors work s = .next (waitIssue core c s) := by
  simp [issue, next, own, waits]

theorem issue_fault_iff (next : nextCommand s core = some (place, c)) (own : asked c = true)
    (ready : canIssue s core c = true) :
    issue core host asked tensors work s = .fault .addressOutsideSpace ↔ ∃ x ∈ tensors s c, (s.tensor x).inside = false := by
  simp [issue, next, own, ready]

theorem issueColl_fault_iff (next : nextCommand s core = some (place, c)) (own : asked c = true)
    (ready : canIssue s core c = true) :
    issueColl asked core s = .fault .addressOutsideSpace ↔ ∃ x ∈ collTensors s c, (s.tensor x).inside = false := by
  simp [issueColl, next, own, ready]

end

/-- Settles O31: the branches of an issue. -/
theorem engineCommandsWaitOrFault : Obligations.EngineCommandsWaitOrFault := by
  refine ⟨fun i e s hi => ⟨fun held => ?_, fun place c next own may edge => ?_⟩,
    fun i e s place c hi next own ready => ?_, fun i core asked s place c hi next own ready => ?_⟩
  · rw [exec_of_issueOf hi]
    obtain none | ⟨place, c, next, cause⟩ := held
    · exact issue_of_none none
    · cases own : e.asked c with
      | false => exact issue_of_other next own
      | true =>
        have may : mayIssue (s.arrive i.time) e.core c = false := cause.resolve_left (by simp [own])
        rw [issue_of_waiting next own (by simp [canIssue, may]), waitIssue_of_not_mayIssue may]
  · refine ⟨requestEdge e.core (s.arrive i.time), ?_, requestEdge_effect ..⟩
    rw [exec_of_issueOf hi, issue_of_waiting next own (by simp [canIssue, edge]), waitIssue_of_edge may edge]
  · rw [exec_of_issueOf hi]
    exact issue_fault_iff next own ready
  · rw [exec_of_collectiveOf hi]
    exact issueColl_fault_iff next own ready

end Sys2Proof.Machine
end

section
/-! PROOFS. From the finish of a command to its commit: control commands (R62, R66), COMMIT, and COMMAND_FINISH (R67, R69). -/

namespace Sys2Proof.Machine

set_option Elab.async false

/-! ### What is in flight and what has committed -/

theorem Touches.mems_eq {ps : List Part} {s t : State} (h : Touches ps s t) (mem : Part.mem ∉ ps := by decide)
    (host : Part.host ∉ ps := by decide) : t.mem = s.mem := by
  have module := h.same .mem mem
  have hostMem := (h.same .host host).2.1
  rw [← module, ← hostMem]

/-- The commands in flight, those that have committed, the events counted, and whether the tick is abandoned. -/
def State.flight (s : State) : List Run × List (Nat × Nat) × List ((Nat × Nat) × Nat) × Bool :=
  (s.compute.runs, s.compute.done, s.compute.counts, s.compute.abandoned)

/-- The tick is abandoned: nothing is in flight, and nothing has committed. -/
def Dead (s : State) : Prop := s.compute.abandoned = true ∧ s.compute.runs = [] ∧ s.compute.done = []

theorem flight_of_compute {s t : State} (h : t.compute = s.compute) : t.flight = s.flight := by
  rw [State.flight, State.flight, h]

theorem Dead.of_flight {s t : State} (dead : Dead s) (h : t.flight = s.flight) : Dead t := by
  simp only [State.flight, Prod.mk.injEq] at h
  obtain ⟨runs, done, -, abandoned⟩ := h
  exact ⟨abandoned.trans dead.1, runs.trans dead.2.1, done.trans dead.2.2⟩

theorem startGuest_abandoned (s : State) (g : Guest) : (startGuest s g).compute.abandoned = s.compute.abandoned := by
  have request (u : State) : (requestEdge g.host u).compute.abandoned = u.compute.abandoned := by
    unfold requestEdge
    split <;> rfl
  unfold startGuest
  repeat' split
  · rfl
  · rfl
  · rfl
  · exact request s
  · rfl

theorem startGuests_flight (s : State) : (startGuests s).flight = s.flight := by
  obtain ⟨done, counts, -⟩ := (startGuests_touches s).same .progress (by decide)
  have abandoned := foldl_keeps (·.compute.abandoned) startGuest_abandoned s.compute.guests s
  exact Prod.ext (startGuests_runs s) (Prod.ext done (Prod.ext counts abandoned))

theorem sendReady_flight (s : State) : (sendReady s).flight = s.flight :=
  flight_of_compute (sendReady_touches s).compute_eq

/-! ### Faults of commands -/

theorem beginSquall_dead (level : Nat) (charged : Option (BitVec 32)) (die : Option Nat) (ring : Bool) (s : State) :
    Dead (beginSquall level charged die ring s) := by
  unfold beginSquall
  extract_lets killed _ faulted recalled
  have dead : Dead faulted := ⟨rfl, rfl, rfl⟩
  have later : Dead recalled := by
    refine dead.of_flight (flight_of_compute ?_)
    unfold recalled
    rw [(withdrawRequests_touches ..).compute_eq]
    split
    · exact (countKind_touches ..).compute_eq
    · rfl
  split
  · split
    · exact dead
    · exact later
  · split
    · exact dead
    · exact later
  · split
    · exact dead
    · exact dead
  · exact dead

theorem takeAbort_dead {cause : Nat} (h : cause ≠ 0x3A08) (charged : Option (BitVec 32)) (die : Option Nat) (s : State) :
    Dead (takeAbort cause charged die s) := by
  unfold takeAbort
  dsimp only
  rw [if_neg (by simpa using h)]
  exact beginSquall_dead ..

theorem startAbort_dead {charged : Option (BitVec 32)} {die : Option Nat} {s : State}
    (ring : (s.inRing && (s.job.phase == .running || s.job.phase == .draining) && !s.aborted) = true) :
    Dead (startAbort 0x3A04 false charged die s) := by
  have may : s.abortable 0x3A04 = true := by
    simp only [Bool.and_eq_true] at ring
    obtain ⟨⟨hring, phase⟩, fresh⟩ := ring
    simp [State.abortable, hring, phase, fresh]
  unfold startAbort
  rw [if_pos may]
  exact takeAbort_dead (by decide) ..

/-- A command that fails leaves Compute as it is, in Eclipse, or the tick is abandoned. -/
theorem commandFault_cases (code arg core : Nat) (s : State) :
    (commandFault code arg core s).compute = s.compute ∨ Dead (commandFault code arg core s) := by
  have raised := raiseAs_touches code false .compute true arg s
  unfold commandFault enterSquall
  split
  · exact .inl raised.compute_eq
  · refine .inr ?_
    split
    next ring => exact startAbort_dead ring
    next => exact beginSquall_dead ..

/-- What a step does to the commands in flight: nothing, or it abandons the tick. -/
def Goes (s t : State) : Prop := t.flight = s.flight ∨ Dead t

theorem commandFault_goes (code arg core : Nat) (s : State) : Goes s (commandFault code arg core s) :=
  (commandFault_cases code arg core s).imp_left flight_of_compute

theorem contribute_goes (core idx : Nat) (o : OrderedSlot) (s : State) : Goes s (contribute core idx o s) := by
  unfold contribute
  extract_lets same old
  split
  · exact commandFault_goes ..
  · exact .inl rfl

theorem applyAtomic_compute (op : AtomicOp) (wide : Bool) (addr v cmp : Nat) (result : Option (Space × Nat)) (s : State) :
    (applyAtomic op wide addr v cmp result s).compute = s.compute :=
  (applyAtomic_touches ..).compute_eq

/-- An entry of a staging queue that is applied commits nothing (R67). -/
theorem applyStaged_goes (r : Run) (e : Staged) (s : State) : Goes s (applyStaged r e s) := by
  unfold applyStaged
  dsimp only
  split
  · exact .inl rfl
  · cases e with
    | atomic op wide a v cmp res => exact .inl (flight_of_compute (applyAtomic_compute ..))
    | fsum => exact contribute_goes ..
    | stats => exact contribute_goes ..
    | tierReq => exact .inl (flight_of_compute (addRequest_touches ..).compute_eq)

/-- A fold of steps that each leave the commands in flight or abandon the tick, and do nothing once it is. -/
theorem goes_foldl {α : Type} {f : State → α → State} (hf : ∀ s a, Goes s (f s a))
    (dead : ∀ s a, Dead s → Dead (f s a)) (l : List α) (s : State) : Goes s (l.foldl f s) := by
  induction l generalizing s with
  | nil => exact .inl rfl
  | cons a l ih =>
    have rest := ih (f s a)
    obtain same | gone := hf s a
    · exact rest.imp_left (·.trans same)
    · exact .inr (List.foldlRecOn l f gone fun u hu a _ => dead u a hu)

/-! ### Events (R62, R63) -/

/-- The state with other counts of its events. -/
def State.withCounts (s : State) (counts : List ((Nat × Nat) × Nat)) : State :=
  { s with compute := { s.compute with counts := counts } }

/-- The counts with one that is set anew. -/
def setCount (counts : List ((Nat × Nat) × Nat)) (key : Nat × Nat) (n : Nat) : List ((Nat × Nat) × Nat) :=
  counts.filter (·.1 != key) ++ [(key, n)]

theorem find?_setCount (counts : List ((Nat × Nat) × Nat)) (key k : Nat × Nat) (n : Nat) :
    (setCount counts key n).find? (·.1 == k) = if k = key then some (key, n) else counts.find? (·.1 == k) := by
  unfold setCount
  rw [List.find?_append, List.find?_filter]
  by_cases own : k = key
  · subst own
    have none : counts.find? (fun a => decide ((a.1 != k) = true ∧ (a.1 == k) = true)) = none := by simp
    rw [none]
    simp
  · have kept : (fun a : (Nat × Nat) × Nat => decide ((a.1 != key) = true ∧ (a.1 == k) = true)) = (·.1 == k) := by
      funext a
      by_cases h : a.1 = k <;> simp [h, own]
    rw [kept]
    simp [own, Ne.symm own]

theorem eventCount_setCount (s : State) (key : Nat × Nat) (n ev core : Nat) :
    eventCount (s.withCounts (setCount s.compute.counts key n)) ev core
      = if (ev, eventScope ev core) = key then n else eventCount s ev core := by
  unfold eventCount State.withCounts
  dsimp only
  rw [find?_setCount]
  split <;> rfl

/-- A signal within its target counts once more, and changes nothing else. -/
theorem signal_of_room {ev core idx : Nat} {s : State} (ne : ev ≠ 0)
    (room : eventCount s ev core + 1 ≤ eventTarget s.plan s.job.path ev (eventScope ev core)) :
    ∃ counts, signal ev core idx s = s.withCounts counts
      ∧ ∀ ev', eventCount (s.withCounts counts) ev' core = eventCount s ev' core + if ev == ev' then 1 else 0 := by
  refine ⟨setCount s.compute.counts (ev, eventScope ev core) (eventCount s ev core + 1), ?_, fun ev' => ?_⟩
  · unfold signal
    rw [if_neg (by simpa using ne)]
    exact if_neg (Nat.not_lt.mpr room)
  · rw [eventCount_setCount]
    by_cases h : ev' = ev
    · subst h
      simp
    · have key : ¬ (ev', eventScope ev' core) = (ev, eventScope ev core) := fun e => h (congrArg Prod.fst e)
      simp [Ne.symm h, key]

theorem signal_zero (core idx : Nat) (s : State) : signal 0 core idx s = s := rfl

/-- The signals of a command, one after the other while the tick goes on. -/
def signals (evs : List Nat) (core idx : Nat) (s : State) : State :=
  evs.foldl (fun s ev => if s.compute.abandoned then s else signal ev core idx s) s

/-- Signals within their targets count once more for each time that they are named. -/
theorem signals_of_room {evs : List Nat} {core idx : Nat} {s : State} (live : s.compute.abandoned = false)
    (room : ∀ ev ∈ evs, ev ≠ 0 →
      eventCount s ev core + evs.count ev ≤ eventTarget s.plan s.job.path ev (eventScope ev core)) :
    ∃ counts, signals evs core idx s = s.withCounts counts
      ∧ ∀ ev, ev ≠ 0 → eventCount (s.withCounts counts) ev core = eventCount s ev core + evs.count ev := by
  induction evs generalizing s with
  | nil => exact ⟨s.compute.counts, rfl, fun ev _ => by simp [State.withCounts]⟩
  | cons e evs ih =>
    have step : signals (e :: evs) core idx s = signals evs core idx (signal e core idx s) := by
      simp [signals, live]
    rw [step]
    by_cases zero : e = 0
    · subst zero
      obtain ⟨counts, done, count⟩ := ih live fun ev hev ne => by
        have := room ev (List.mem_cons_of_mem _ hev) ne
        rwa [List.count_cons_of_ne (Ne.symm ne)] at this
      refine ⟨counts, done, fun ev ne => ?_⟩
      rw [count ev ne, List.count_cons_of_ne (Ne.symm ne)]
    · obtain ⟨counts, once, count⟩ := signal_of_room (idx := idx) zero (s := s) (core := core) <| by
        have := room e (List.mem_cons_self ..) zero
        rw [List.count_cons_self] at this
        omega
      rw [once]
      obtain ⟨counts', done, count'⟩ := ih (s := s.withCounts counts) live fun ev hev ne => by
        have := room ev (List.mem_cons_of_mem _ hev) ne
        rw [List.count_cons] at this
        rw [count ev]
        show _ ≤ eventTarget s.plan s.job.path ev (eventScope ev core)
        omega
      refine ⟨counts', done, fun ev ne => ?_⟩
      have := count' ev ne
      rw [count ev] at this
      refine this.trans ?_
      rw [List.count_cons]
      omega

/-! ### Commit (R67) -/

/-- A run leaves the commands in flight, and has committed. -/
def State.committing (s : State) (r : Run) : State :=
  { s with compute := { s.compute with
      runs := s.compute.runs.filter fun x => !(x.core == r.core && x.place == r.place),
      agreed := s.compute.agreed.filter (·.1 != (r.core, r.place)),
      done := s.compute.done ++ [(r.core, r.place)] } }

theorem committing_touches (s : State) (r : Run) : Touches [.engines, .progress] s (s.committing r) := by
  refine .update (.refl ..) id ?_
  intro q hq
  cases q <;> first | exact absurd (by decide) hq | simp only [Part.same, and_self]

theorem commitOne_of_unstaged {r : Run} {s : State} (live : s.compute.abandoned = false) (unstaged : r.staged = []) :
    commitOne r s = signals (commitSignals r.cmd) r.core (cmdIndex r.cmd) (s.committing r) := by
  unfold commitOne
  rw [unstaged]
  exact if_neg (by simp [live])

theorem signals_zero (core idx : Nat) (s : State) : signals [0] core idx s = s := by
  unfold signals
  rw [List.foldl_cons, List.foldl_nil, signal_zero, ite_self]

/-! ### Finish -/

/-- A run whose engine is done, with the edge engine of its cluster free where it held it (R215). -/
def freeEdge (r : Run) (s : State) : State :=
  if cmdOpcode r.cmd == 0x0D then { s with compute := { s.compute with edge := s.compute.edge.set (r.core / 8) none } }
  else s

theorem freeEdge_touches (r : Run) (s : State) : Touches [.engines] s (freeEdge r s) := by
  unfold freeEdge
  split
  · refine .update (.refl ..) (by simp [State.shaped]) ?_
    intro q hq
    cases q <;> first | exact absurd (by decide) hq | simp only [Part.same, and_self]
  · exact .refl ..

theorem freeEdge_flight (r : Run) (s : State) : (freeEdge r s).flight = s.flight := by
  unfold freeEdge
  split <;> rfl

/-- The engine of a run is free, for guests first, and the run stands as it is now. -/
def settled (r : Run) (s : State) : State := startGuests ((freeEdge r s).setRun r)

/-- The run of a core's place is replaced. -/
def replaceRun (r : Run) (runs : List Run) : List Run :=
  runs.map fun x => if x.core == r.core && x.place == r.place then r else x

theorem settled_flight (r : Run) (s : State) :
    (settled r s).flight = (replaceRun r s.compute.runs, s.compute.done, s.compute.counts, s.compute.abandoned) := by
  have edge := freeEdge_flight r s
  simp only [State.flight, Prod.mk.injEq] at edge
  obtain ⟨runs, done, counts, abandoned⟩ := edge
  refine (startGuests_flight _).trans ?_
  simp only [State.flight, State.setRun, runs, done, counts, abandoned]
  rfl

theorem settled_touches (r : Run) (s : State) : Touches [.engines] s (settled r s) :=
  .via (startGuests_touches _) (.via (State.setRun_touches ..) (freeEdge_touches r s))

theorem mem_replaceRun {r x : Run} {runs : List Run} (h : x ∈ runs) (same : x.core = r.core ∧ x.place = r.place) :
    r ∈ replaceRun r runs :=
  List.mem_map.mpr ⟨x, h, if_pos (by simp [same])⟩

theorem filter_replaceRun (r : Run) (runs : List Run) :
    (replaceRun r runs).filter (fun x => !(x.core == r.core && x.place == r.place))
      = runs.filter fun x => !(x.core == r.core && x.place == r.place) := by
  unfold replaceRun
  induction runs with
  | nil => rfl
  | cons x l ih =>
    rw [List.map_cons, List.filter_cons, List.filter_cons, ih]
    split <;> simp_all

section
variable {r : Run} {s : State} {err : BitVec 64}

/-- What a finished run commits besides itself: a COMMIT, what it covers (R66). -/
def covered (r : Run) (s : State) : State := if cmdOpcode r.cmd == 0x0B then commitCovered r s else s

theorem covered_of_other (op : cmdOpcode r.cmd ≠ 0x0B) : covered r s = s := if_neg (by simpa using op)

theorem finishRun_of_none (plain : r.cirrus = .none) :
    finishRun r err s = commitIfReady { r with phase := .finished }
      (startGuests ((covered r (freeEdge r s)).setRun { r with phase := .finished })) := by
  obtain ⟨core, place, cmd, phase, slots, staged, outBytes, values, cirrus, work, channel⟩ := r
  cases plain
  rfl

theorem finishRun_of_plain (op : cmdOpcode r.cmd ≠ 0x0B) (plain : r.cirrus = .none) :
    finishRun r err s = commitIfReady { r with phase := .finished } (settled { r with phase := .finished } s) := by
  rw [finishRun_of_none plain, covered_of_other op]
  rfl

theorem finishRun_of_selected {o : Option (Nat × Nat)} (op : cmdOpcode r.cmd ≠ 0x0B) (sel : r.cirrus = .selected o) :
    finishRun r err s
      = settled { r with phase := .finished, cirrus := .selected (some (withError (digestOf r) err)) } s := by
  have other : covered r (freeEdge r s) = freeEdge r s := covered_of_other op
  have step : finishRun r err s = startGuests ((covered r (freeEdge r s)).setRun
      { r with phase := .finished, cirrus := .selected (some (withError (digestOf r) err)) }) := by
    obtain ⟨core, place, cmd, phase, slots, staged, outBytes, values, cirrus, work, channel⟩ := r
    cases sel
    rfl
  rw [step, other]
  rfl

theorem commitIfReady_of_stays (stays : cmdCommitOnFinish r.cmd = false) : commitIfReady r s = s := by
  simp [commitIfReady, stays]

theorem commitIfReady_of_committable (may : r.committable = true) (commits : cmdCommitOnFinish r.cmd = true) :
    commitIfReady r s = commitRun r s := by
  simp [commitIfReady, may, commits]

theorem finish_of_done {core idx : Nat} (here : s.run core idx = some r) (running : r.phase = .running)
    (done : workDone s r = true) : finish core idx err s = finishRun r err s := by
  simp [finish, here, running, done]

end

/-- A settled run with nothing staged and no signal, committed. -/
theorem commitRun_settled {r : Run} {s : State} (live : s.compute.abandoned = false) (unstaged : r.staged = [])
    (silent : commitSignals r.cmd = [0]) :
    let u := commitRun r (settled r s)
    u.compute.runs = s.compute.runs.filter (fun x => !(x.core == r.core && x.place == r.place))
      ∧ u.compute.done = s.compute.done ++ [(r.core, r.place)] ∧ u.compute.counts = s.compute.counts
      ∧ u.compute.abandoned = false ∧ u.mem = s.mem ∧ u.tick = s.tick := by
  have settles := settled_flight r s
  have touches := settled_touches r s
  simp only [State.flight, Prod.mk.injEq] at settles
  obtain ⟨runs, done, counts, abandoned⟩ := settles
  have one : commitOne r (settled r s) = (settled r s).committing r := by
    rw [commitOne_of_unstaged (abandoned.trans live) unstaged, silent, signals_zero]
  have all : Touches [.link, .engines, .progress] s (commitRun r (settled r s)) := by
    rw [commitRun, one]
    exact .via (sendReady_touches _) (.via (committing_touches ..) touches.mono)
  have flight : (commitRun r (settled r s)).flight = ((settled r s).committing r).flight := by
    rw [commitRun, one, sendReady_flight]
  simp only [State.flight, State.committing, Prod.mk.injEq, runs, done, counts, abandoned, filter_replaceRun] at flight
  obtain ⟨runs', done', counts', abandoned'⟩ := flight
  exact ⟨runs', done', counts', abandoned'.trans live, all.mems_eq, all.tick_eq⟩

/-- Settles O36: a plain run commits or stays by COMMIT_ON_FINISH, one that Cirrus selected keeps its digest. -/
theorem finishedCommandsCommitOrStay : Obligations.FinishedCommandsCommitOrStay := by
  intro t s core idx err r here running done op live
  have run : exec (.commandFinish t core idx err) s = .next (finishRun r err (s.arrive t)) :=
    congrArg _ (finish_of_done (s := s.arrive t) here running done)
  have inFlight : r ∈ (s.arrive t).compute.runs := List.mem_of_find?_eq_some here
  refine ⟨fun plain commits unstaged silent => ⟨_, run, ?_⟩, fun plain stays => ⟨_, run, ?_⟩,
    fun o sel => ⟨_, run, ?_⟩⟩
  · rw [finishRun_of_plain op plain,
      commitIfReady_of_committable (r := { r with phase := .finished }) (by simp [Run.committable, plain]) commits]
    obtain ⟨runs, done, counts, abandoned, mem, tick⟩ := commitRun_settled (r := { r with phase := .finished })
      (s := s.arrive t) live unstaged silent
    exact ⟨done, runs, counts, mem, tick⟩
  · have settles := settled_flight { r with phase := .finished } (s.arrive t)
    have touches := settled_touches { r with phase := .finished } (s.arrive t)
    rw [finishRun_of_plain op plain, commitIfReady_of_stays (r := { r with phase := .finished }) stays]
    simp only [State.flight, Prod.mk.injEq] at settles
    obtain ⟨runs, done, -⟩ := settles
    refine ⟨done, ?_, touches.mems_eq, touches.tick_eq⟩
    rw [runs]
    exact mem_replaceRun inFlight ⟨rfl, rfl⟩
  · have settles := settled_flight
      { r with phase := .finished, cirrus := .selected (some (withError (digestOf r) err)) } (s.arrive t)
    rw [finishRun_of_selected op sel]
    simp only [State.flight, Prod.mk.injEq] at settles
    obtain ⟨runs, done, -⟩ := settles
    refine ⟨done, ?_⟩
    rw [runs]
    exact mem_replaceRun inFlight ⟨rfl, rfl⟩

end Sys2Proof.Machine
end

section
/-! PROOFS. Atomics (R253, R254, Table 10.3): what one leaves in the memories at its commit, and the results of the table. -/

namespace Sys2Proof.Machine

set_option Elab.async false

/-! ### The table -/

section
variable {n t v c : Nat}

theorem signed_smin : signed (8 * n) (AtomicOp.smin.apply n t v c) = min (signed (8 * n) t) (signed (8 * n) v) := by
  by_cases h : signed (8 * n) t < signed (8 * n) v
  · simp [AtomicOp.apply, h, Int.min_eq_left (Int.le_of_lt h)]
  · simp [AtomicOp.apply, h, Int.min_eq_right (Int.not_lt.mp h)]

theorem signed_smax : signed (8 * n) (AtomicOp.smax.apply n t v c) = max (signed (8 * n) t) (signed (8 * n) v) := by
  by_cases h : signed (8 * n) t < signed (8 * n) v
  · simp [AtomicOp.apply, h, Int.max_eq_right (Int.le_of_lt h)]
  · simp [AtomicOp.apply, h, Int.max_eq_left (Int.not_lt.mp h)]

/-- The result of an atomic on words is a word. -/
theorem AtomicOp.apply_lt (op : AtomicOp) (ht : t < 2 ^ (8 * n)) (hv : v < 2 ^ (8 * n)) :
    op.apply n t v c < 2 ^ (8 * n) := by
  cases op with
  | iadd => exact Nat.mod_lt _ (Nat.two_pow_pos _)
  | smin => simp only [AtomicOp.apply]; split <;> assumption
  | smax => simp only [AtomicOp.apply]; split <;> assumption
  | umin => exact Nat.lt_of_le_of_lt (Nat.min_le_left ..) ht
  | umax => exact Nat.max_lt.mpr ⟨ht, hv⟩
  | and => exact Nat.and_lt_two_pow _ hv
  | or => exact Nat.or_lt_two_pow ht hv
  | xor => exact Nat.xor_lt_two_pow ht hv
  | exch => exact hv
  | cas => simp only [AtomicOp.apply]; split <;> assumption

end

/-! ### The memories -/

@[simp] theorem length_toLe (n v : Nat) : (toLe n v).length = n := by
  induction n generalizing v with
  | zero => rfl
  | succ n ih => simp [toLe, ih]

/-- What stands after n bytes have been written to a memory of the module. -/
theorem readMem_writeMem {s : State} (wf : s.mem.wf = true) (sp : Space) (a n v : Nat) :
    (s.writeMem sp a (toLe n v)).readMem sp a n = toLe n v := by
  have h := Memory.readBytes_writeBytes_self (Mems.wf_get wf sp) a (toLe n v)
  rw [length_toLe] at h
  unfold State.readMem
  rwa [State.writeMem_mem, Mems.get_put, if_pos rfl]

theorem get_writeMem_ne {s : State} {sp sp' : Space} (h : sp' ≠ sp) (a : Nat) (b : Bytes) :
    (s.writeMem sp a b).mem.get sp' = s.mem.get sp' := by
  rw [State.writeMem_mem, Mems.get_put, if_neg h]

theorem readMem_writeMem_ne {s : State} {sp sp' : Space} (h : sp' ≠ sp) (a : Nat) (b : Bytes) (x n : Nat) :
    (s.writeMem sp a b).readMem sp' x n = s.readMem sp' x n := by
  rw [State.readMem, get_writeMem_ne h, State.readMem]

theorem read_writeMem_outside {s : State} (wf : s.mem.wf = true) (sp : Space) {a n x : Nat} (v : Nat)
    (h : x < a ∨ a + n ≤ x) : ((s.writeMem sp a (toLe n v)).mem.get sp).read x = (s.mem.get sp).read x := by
  rw [State.writeMem_mem, Mems.get_put, if_pos rfl,
    Memory.read_writeBytes_outside (Mems.wf_get wf sp) a _ x (by rwa [length_toLe])]

/-- The bytes of the word of an atomic. -/
def wordBytes (wide : Bool) : Nat := if wide then 8 else 4

/-- The word of an atomic before it is applied. -/
def State.oldWord (s : State) (wide : Bool) (addr : Nat) : Nat := leValue (s.readMem .cache addr (wordBytes wide))

/-- One atomic: the word holds the result, RESULT the old value, and every other byte is as it was (R253, R254). -/
theorem applyAtomic_effect (op : AtomicOp) (wide : Bool) (addr v cmp : Nat) {res : Option (Space × Nat)} {s : State}
    (wf : s.mem.wf = true) (apart : ∀ sp a, res = some (sp, a) → sp ≠ .cache ∧ sp ≠ .host) :
    let u := applyAtomic op wide addr v cmp res s
    u.readMem .cache addr (wordBytes wide)
        = toLe (wordBytes wide) (op.apply (wordBytes wide) (s.oldWord wide addr) v cmp)
      ∧ (∀ sp a, res = some (sp, a) → u.readMem sp a (wordBytes wide) = toLe (wordBytes wide) (s.oldWord wide addr))
      ∧ (∀ a, a < addr ∨ addr + wordBytes wide ≤ a → u.mem.cache.read a = s.mem.cache.read a)
      ∧ ∀ sp a, sp ≠ .cache → sp ≠ .host → (∀ b, res = some (sp, b) → a < b ∨ b + wordBytes wide ≤ a) →
        (u.mem.get sp).read a = (s.mem.get sp).read a := by
  intro u
  have word := readMem_writeMem wf .cache addr (wordBytes wide) (op.apply (wordBytes wide) (s.oldWord wide addr) v cmp)
  have wf' := Mems.wf_putBytes wf .cache addr
    (toLe (wordBytes wide) (op.apply (wordBytes wide) (s.oldWord wide addr) v cmp))
  have outside {x : Nat} (h : x < addr ∨ addr + wordBytes wide ≤ x) := read_writeMem_outside wf .cache
    (op.apply (wordBytes wide) (s.oldWord wide addr) v cmp) h
  cases res with
  | none =>
    refine ⟨word, fun _ _ h => (nomatch h), fun a ha => outside ha, fun sp a cache _ _ => ?_⟩
    exact congrArg (·.read a) (get_writeMem_ne cache ..)
  | some p =>
    obtain ⟨rsp, ra⟩ := p
    obtain ⟨notCache, -⟩ := apart rsp ra rfl
    refine ⟨?_, fun sp a h => ?_, fun a ha => ?_, fun sp a cache host clear => ?_⟩
    · exact (readMem_writeMem_ne (Ne.symm notCache) ..).trans word
    · cases h
      exact readMem_writeMem wf' ..
    · exact (congrArg (·.read a) (get_writeMem_ne (Ne.symm notCache) ..)).trans (outside ha)
    · by_cases same : sp = rsp
      · subst same
        exact (read_writeMem_outside wf' sp _ (clear ra rfl)).trans (congrArg (·.read a) (get_writeMem_ne cache ..))
      · exact congrArg (·.read a) ((get_writeMem_ne same ..).trans (get_writeMem_ne cache ..))

/-- A settled run that has one atomic staged and no signal: its commit applies the atomic. -/
theorem commitRun_atomic {r : Run} {s : State} {op : AtomicOp} {wide : Bool} {addr v cmp : Nat}
    {res : Option (Space × Nat)} (live : s.compute.abandoned = false) (staged : r.staged = [.atomic op wide addr v cmp res])
    (silent : commitSignals r.cmd = [0]) : (commitRun r s).mem = (applyAtomic op wide addr v cmp res s).mem := by
  have applied : r.staged.foldl (fun s e => applyStaged r e s) s = applyAtomic op wide addr v cmp res s := by
    rw [staged]
    exact if_neg (by simp [live])
  have going : ¬ (applyAtomic op wide addr v cmp res s).compute.abandoned = true := by
    rw [applyAtomic_compute, live]
    decide
  have one : commitOne r s = (applyAtomic op wide addr v cmp res s).committing r := by
    unfold commitOne
    rw [applied, if_neg going, silent]
    exact signals_zero ..
  rw [commitRun, (sendReady_touches _).mems_eq, one]
  rfl

/-- Settles O37: the one staged entry is applied at the commit, and the results are those of the table. -/
theorem atomicsFollowTheTable : Obligations.AtomicsFollowTheTable := by
  refine ⟨fun t s core idx r op wide addr v cmp res wf here running done isMove plain commits live silent staged apart => ?_,
    fun n t v c _ ht hv => ⟨rfl, signed_smin, signed_smax, rfl, rfl, rfl, rfl, rfl, rfl, ?_, fun op => op.apply_lt ht hv⟩⟩
  · have opcode : cmdOpcode r.cmd ≠ 0x0B := by rw [isMove.2]; decide
    have run : exec (.commandFinish t core idx 0) s = .next (commitRun { r with phase := .finished }
        (settled { r with phase := .finished } (s.arrive t))) := by
      refine congrArg Host.Outcome.next ((finish_of_done (s := s.arrive t) here running done).trans ?_)
      rw [finishRun_of_plain opcode plain]
      exact commitIfReady_of_committable (r := { r with phase := .finished }) (by simp [Run.committable, plain]) commits
    have settles := settled_flight { r with phase := .finished } (s.arrive t)
    simp only [State.flight, Prod.mk.injEq] at settles
    obtain ⟨-, -, -, abandoned⟩ := settles
    have before : (settled { r with phase := .finished } (s.arrive t)).mem = s.mem :=
      (settled_touches { r with phase := .finished } (s.arrive t)).mems_eq
    have mem := commitRun_atomic (r := { r with phase := .finished }) (abandoned.trans live) staged silent
    have effect := applyAtomic_effect op wide addr v cmp (before ▸ wf) apart
    refine ⟨_, run, ?_⟩
    simp only [State.readMem, mem]
    simpa only [State.readMem, State.oldWord, wordBytes, before] using effect
  · simp [AtomicOp.apply]

end Sys2Proof.Machine
end

section
/-! PROOFS. The control commands WAIT, SIGNAL and COMMIT (R62, R66). -/

namespace Sys2Proof.Machine

set_option Elab.async false

/-! ### A control command issues -/

/-- A command and a running one of its opcode need one class, so that it could not have issued (R53). -/
theorem not_running_of_canIssue {s : State} {core : Nat} {c : Bytes} (ready : canIssue s core c = true) {r : Run}
    (h : r ∈ s.compute.runs) : (r.core == core && cmdOpcode r.cmd == cmdOpcode c && r.phase == .running) = false := by
  simp only [canIssue, mayIssue, classFree, engineFree, Bool.and_eq_true] at ready
  obtain ⟨⟨⟨-, free, -⟩, -⟩, -⟩ := ready
  have apart := List.all_eq_true.mp free r h
  refine Decidable.byContradiction fun own => ?_
  rw [Bool.not_eq_false, Bool.and_eq_true, Bool.and_eq_true, beq_iff_eq, beq_iff_eq, beq_iff_eq] at own
  obtain ⟨⟨hcore, hop⟩, running⟩ := own
  have shares : shareClass s r.cmd c = true := by
    simp [shareClass, classesOf, hop]
  simp [hcore, running, shares] at apart

theorem live_of_canIssue {s : State} {core : Nat} {c : Bytes} (ready : canIssue s core c = true) :
    s.compute.abandoned = false := by
  simp only [canIssue, mayIssue, computing, Bool.and_eq_true] at ready
  obtain ⟨⟨⟨⟨⟨⟨⟨-, h⟩, -⟩, -⟩, -⟩, -⟩, -⟩, -⟩ := ready
  simpa using h

/-- The run of a control command that issues. -/
def controlRun (core place : Nat) (c : Bytes) (s : State) : Run :=
  launched core place c (accessFor s core c []) {} (selected core place c {} s).1 (freeChannel s core c)

theorem launch_control (core place : Nat) (c : Bytes) (s : State) :
    (launch core place c (accessFor s core c []) {} true s).compute.runs
        = s.compute.runs ++ [controlRun core place c s]
      ∧ Touches [.engines, .integrity] s (launch core place c (accessFor s core c []) {} true s) := by
  have sel : Touches [.engines, .integrity] s (selected core place c {} s).2 :=
    .via (selectCirrus_touches ..) ((markIssued_touches ..).mono)
  rw [launch_of_alive rfl]
  obtain ⟨runs, touches⟩ := startGuests_effect core (cmdOpcode c == 0x0D)
    ((written (accessFor s core c []) {} (selected core place c {} s).2).withRun
      (launched core place c (accessFor s core c []) {} (selected core place c {} s).1
        (freeChannel (written (accessFor s core c []) {} (selected core place c {} s).2) core c)))
  have same := selected_runs core place c {} s
  refine ⟨runs.trans ?_, .via touches (.update sel ?_ ?_)⟩
  · rw [freeChannel_congr (show (written (accessFor s core c []) {} (selected core place c {} s).2).compute.runs
      = s.compute.runs from same)]
    exact congrArg (· ++ _) same
  · exact id
  · intro q hq
    cases q <;> first | exact absurd (by decide) hq | simp only [Part.same, and_self]

/-- A control command that is the next of its core and may issue does, and finishes if its condition holds. -/
theorem control_of_next {core place : Nat} {c : Bytes} {s : State} (next : nextCommand s core = some (place, c))
    (ready : canIssue s core c = true) :
    control (cmdOpcode c) core s
      = finish core (cmdIndex c) 0 (launch core place c (accessFor s core c []) {} true s) := by
  have none : s.compute.runs.find? (fun r => r.core == core && cmdOpcode r.cmd == cmdOpcode c && r.phase == .running)
      = none := List.find?_eq_none.mpr fun r h => by rw [not_running_of_canIssue ready h]; decide
  have found : (launch core place c (accessFor s core c []) {} true s).compute.runs.find?
      (fun r => r.core == core && cmdOpcode r.cmd == cmdOpcode c && r.phase == .running)
        = some (controlRun core place c s) := by
    rw [(launch_control core place c s).1, List.find?_append, none]
    simp [controlRun, launched]
  unfold control
  simp only [none, next, ready, beq_self_eq_true, Bool.and_self, if_true, found]
  rfl

theorem run_controlRun {core place : Nat} {c : Bytes} {s : State} (none : s.run core (cmdIndex c) = none) :
    (launch core place c (accessFor s core c []) {} true s).run core (cmdIndex c) = some (controlRun core place c s) := by
  unfold State.run at none ⊢
  rw [(launch_control core place c s).1, List.find?_append, none]
  simp [controlRun, launched]

theorem plan_congr {s t : State} (job : t.job = s.job) (dawn : t.dawn = s.dawn) : t.plan = s.plan := by
  unfold State.plan State.planAt
  rw [job, dawn]

theorem eventCount_congr {s t : State} (counts : t.compute.counts = s.compute.counts) (ev core : Nat) :
    eventCount t ev core = eventCount s ev core := by
  unfold eventCount
  rw [counts]

theorem eventSet_congr {s t : State} (counts : t.compute.counts = s.compute.counts) (job : t.job = s.job)
    (dawn : t.dawn = s.dawn) (ev core : Nat) : eventSet t ev core = eventSet s ev core := by
  unfold eventSet
  rw [eventCount_congr counts, plan_congr job dawn, job]

/-- What the condition of a control command reads: the list of its core, the events, and what has committed. -/
theorem workDone_wait {s : State} {r : Run} (op : cmdOpcode r.cmd = 0x09) :
    workDone s r = (cmdEvents r.cmd).all fun ev => eventSet s ev r.core := by
  simp [workDone, op]

theorem workDone_signal {s : State} {r : Run} (op : cmdOpcode r.cmd = 0x0A) :
    workDone s r = (List.range r.place).all fun i => s.compute.done.contains (r.core, i) := by
  simp [workDone, op]

theorem workDone_commit {s : State} {r : Run} (op : cmdOpcode r.cmd = 0x0B) :
    workDone s r = (commitRange s r.core r.cmd).all fun p =>
      s.compute.done.contains (r.core, p.1)
        || s.compute.runs.any fun x => x.core == r.core && x.place == p.1 && x.committable := by
  simp [workDone, op]

theorem finish_of_undone {core idx : Nat} {err : BitVec 64} {r : Run} {s : State} (here : s.run core idx = some r)
    (undone : workDone s r = false) : finish core idx err s = s := by
  simp [finish, here, undone]

section
variable {core place : Nat} {c : Bytes} {s : State}

/-- A control command whose condition does not hold is in flight, and commits nothing. -/
theorem control_of_undone (next : nextCommand s core = some (place, c)) (ready : canIssue s core c = true)
    (none : s.run core (cmdIndex c) = none)
    (undone : workDone (launch core place c (accessFor s core c []) {} true s) (controlRun core place c s) = false) :
    let u := control (cmdOpcode c) core s
    u.compute.done = s.compute.done ∧ u.compute.counts = s.compute.counts
      ∧ ∃ r ∈ u.compute.runs, r.core = core ∧ r.place = place ∧ r.cmd = c ∧ r.phase = .running := by
  obtain ⟨runs, touches⟩ := launch_control core place c s
  obtain ⟨done, counts, -⟩ := touches.same .progress (by decide)
  intro u
  have hu : u = launch core place c (accessFor s core c []) {} true s := by
    rw [← finish_of_undone (err := 0) (run_controlRun none) undone]
    exact control_of_next next ready
  rw [hu]
  refine ⟨done, counts, controlRun core place c s, ?_, rfl, rfl, rfl, rfl⟩
  rw [runs]
  exact List.mem_append_right _ (List.mem_singleton_self _)

/-- The Cirrus side of a control command that is neither selected nor run again. -/
theorem controlRun_plain (unselected : cirrusSelects s c = false) (fresh : ∀ a ∈ s.compute.agreed, a.1 ≠ (core, place)) :
    (controlRun core place c s).cirrus = .none := by
  have none : s.compute.agreed.find? (·.1 == (core, place)) = none :=
    List.find?_eq_none.mpr fun a ha => by simpa using fresh a ha
  have issued := markIssued_touches core place s
  have same : cirrusSelects (markIssued core place s) c = cirrusSelects s c := by
    unfold cirrusSelects cirrusExponent
    rw [issued.dawn_eq, issued.tick_eq, issued.integrity_eq]
  show (selectCirrus core place c ((s.compute.agreed.find? (·.1 == (core, place))).map (·.2))
    (markIssued core place s)).1 = .none
  rw [none, Option.map_none]
  simp [selectCirrus, same, unselected]

/-- A run that is not among those in flight, once it is and has committed. -/
theorem filter_replaceRun_append {r : Run} {x : Run} {runs : List Run} (same : x.core = r.core ∧ x.place = r.place)
    (apart : ∀ y ∈ runs, y.core = r.core → y.place ≠ r.place) :
    (replaceRun r (runs ++ [x])).filter (fun y => !(y.core == r.core && y.place == r.place)) = runs := by
  have keeps : runs.filter (fun y => !(y.core == r.core && y.place == r.place)) = runs :=
    List.filter_eq_self.mpr fun y hy => by
      have := apart y hy
      by_cases h : y.core = r.core <;> simp_all
  rw [filter_replaceRun, List.filter_append, keeps]
  simp [same]

/-- The run of a control command once its condition holds. -/
def finishedControl (core place : Nat) (c : Bytes) (s : State) : Run := { controlRun core place c s with phase := .finished }

theorem launch_abandoned (core place : Nat) (c : Bytes) (s : State) :
    (launch core place c (accessFor s core c []) {} true s).compute.abandoned = s.compute.abandoned := by
  have issued : (markIssued core place s).compute.abandoned = s.compute.abandoned := by
    unfold markIssued
    split <;> rfl
  have chosen : (selected core place c {} s).2.compute.abandoned = s.compute.abandoned := by
    unfold selected selectCirrus
    repeat' split
    all_goals exact issued
  refine (congrArg (·.2.2.2) (startGuests_flight _)).trans ?_
  split
  · exact chosen
  · exact chosen

/-- A plain control command whose condition holds commits, and its signals within their targets count (R62, R66). -/
theorem control_of_done (next : nextCommand s core = some (place, c))
    (ready : canIssue s core c = true)
    (apart : ∀ r ∈ s.compute.runs, r.core = core → r.place ≠ place ∧ cmdIndex r.cmd ≠ cmdIndex c)
    (commits : cmdCommitOnFinish c = true) (unselected : cirrusSelects s c = false)
    (fresh : ∀ a ∈ s.compute.agreed, a.1 ≠ (core, place))
    (room : ∀ ev ∈ commitSignals c, ev ≠ 0 →
      eventCount s ev core + (commitSignals c).count ev ≤ eventTarget s.plan s.job.path ev (eventScope ev core))
    (done : workDone (launch core place c (accessFor s core c []) {} true s) (controlRun core place c s) = true)
    (alone : covered (controlRun core place c s) (freeEdge (controlRun core place c s)
        (launch core place c (accessFor s core c []) {} true s))
      = freeEdge (controlRun core place c s) (launch core place c (accessFor s core c []) {} true s)) :
    let u := control (cmdOpcode c) core s
    u.compute.done = s.compute.done ++ [(core, place)] ∧ u.compute.runs = s.compute.runs
      ∧ (∀ ev, ev ≠ 0 → eventCount u ev core = eventCount s ev core + (commitSignals c).count ev)
      ∧ u.mem = s.mem ∧ u.tick = s.tick := by
  obtain ⟨runs, touches⟩ := launch_control core place c s
  obtain ⟨doneBefore, counts, -⟩ := touches.same .progress (by decide)
  have none : s.run core (cmdIndex c) = none := List.find?_eq_none.mpr fun r hr => by
    rw [Bool.and_eq_true, beq_iff_eq, beq_iff_eq]
    exact fun h => (apart r hr h.1).2 h.2
  have plain := controlRun_plain unselected fresh
  have step : control (cmdOpcode c) core s = commitRun (finishedControl core place c s)
      (settled (finishedControl core place c s) (launch core place c (accessFor s core c []) {} true s)) := by
    rw [control_of_next next ready, finish_of_done (run_controlRun none) rfl done, finishRun_of_none plain, alone]
    exact commitIfReady_of_committable (r := finishedControl core place c s)
      (by simp [Run.committable, finishedControl, plain]) commits
  have live := launch_abandoned core place c s
  generalize launch core place c (accessFor s core c []) {} true s = launchedState at *
  have settles := settled_flight (finishedControl core place c s) launchedState
  simp only [State.flight, Prod.mk.injEq] at settles
  obtain ⟨runs', done', counts', live'⟩ := settles
  have all : Touches [.engines, .progress, .integrity] s
      ((settled (finishedControl core place c s) launchedState).committing (finishedControl core place c s)) :=
    .via (committing_touches ..) (.via (settled_touches ..) touches.mono)
  have one := commitOne_of_unstaged (r := finishedControl core place c s) (live'.trans (live.trans (live_of_canIssue ready))) rfl
  have before (ev : Nat) : eventCount ((settled (finishedControl core place c s) launchedState).committing
      (finishedControl core place c s)) ev core = eventCount s ev core := eventCount_congr (counts'.trans counts) ev core
  obtain ⟨newCounts, signalled, count⟩ := signals_of_room (idx := cmdIndex c) (core := core) (evs := commitSignals c)
    (s := (settled (finishedControl core place c s) launchedState).committing (finishedControl core place c s))
    (live'.trans (live.trans (live_of_canIssue ready))) fun ev hev ne => by
      rw [before ev, plan_congr all.job_eq all.dawn_eq, all.job_eq]
      exact room ev hev ne
  have committed := one.trans signalled
  intro u
  have hu : u = sendReady (((settled (finishedControl core place c s) launchedState).committing
      (finishedControl core place c s)).withCounts newCounts) := by
    rw [← committed]
    exact step
  have ready' := sendReady_touches (((settled (finishedControl core place c s) launchedState).committing
      (finishedControl core place c s)).withCounts newCounts)
  rw [hu, ready'.compute_eq, ready'.mems_eq, ready'.tick_eq]
  refine ⟨?_, ?_, fun ev ne => ?_, all.mems_eq, all.tick_eq⟩
  · exact congrArg (· ++ [(core, place)]) (done'.trans doneBefore)
  · exact (congrArg (List.filter _) (runs'.trans (congrArg (replaceRun _) runs))).trans
      (filter_replaceRun_append ⟨rfl, rfl⟩ fun y hy own => (apart y hy own).1)
  · exact (eventCount_congr (congrArg (·.counts) ready'.compute_eq) ev core).trans
      ((count ev ne).trans (congrArg (· + _) (before ev)))

end

/-! ### WAIT and SIGNAL -/

section
variable {core place : Nat} {c : Bytes} {s : State}

theorem workDone_launched_wait (op : cmdOpcode c = 0x09) :
    workDone (launch core place c (accessFor s core c []) {} true s) (controlRun core place c s)
      = (cmdEvents c).all fun ev => eventSet s ev core := by
  obtain ⟨-, touches⟩ := launch_control core place c s
  obtain ⟨-, counts, -⟩ := touches.same .progress (by decide)
  rw [workDone_wait op]
  exact congrArg ((cmdEvents c).all ·) (funext fun ev => eventSet_congr counts touches.job_eq touches.dawn_eq ev core)

theorem workDone_launched_signal (op : cmdOpcode c = 0x0A) :
    workDone (launch core place c (accessFor s core c []) {} true s) (controlRun core place c s)
      = (List.range place).all fun i => s.compute.done.contains (core, i) := by
  obtain ⟨-, touches⟩ := launch_control core place c s
  obtain ⟨done, -, -⟩ := touches.same .progress (by decide)
  rw [workDone_signal op, done]
  rfl

end

/-- Settles O34: the condition of the launched command is the one of the state that it issues in. -/
theorem waitAndSignalFollowTheirEvents : Obligations.WaitAndSignalFollowTheirEvents := by
  refine ⟨fun t s s' core place c hs next ready apart commits unselected fresh room => ⟨fun op set => ?_, fun op before => ?_⟩,
    fun t s s' core place c hs next ready none => ⟨fun op unset => ?_, fun op before => ?_⟩⟩
  · subst hs
    refine ⟨_, congrArg (fun o => Host.Outcome.next (control o core (s.arrive t))) op.symm, ?_⟩
    refine control_of_done next ready apart commits unselected fresh room ?_
      (covered_of_other (show cmdOpcode c ≠ 0x0B by rw [op]; decide))
    rw [workDone_launched_wait op]
    exact List.all_eq_true.mpr set
  · subst hs
    refine ⟨_, congrArg (fun o => Host.Outcome.next (control o core (s.arrive t))) op.symm, ?_⟩
    refine control_of_done next ready apart commits unselected fresh room ?_
      (covered_of_other (show cmdOpcode c ≠ 0x0B by rw [op]; decide))
    rw [workDone_launched_signal op]
    exact List.all_eq_true.mpr fun j hj => List.contains_iff_mem.mpr (before j (List.mem_range.mp hj))
  · subst hs
    refine ⟨_, congrArg (fun o => Host.Outcome.next (control o core (s.arrive t))) op.symm, ?_⟩
    refine control_of_undone next ready none ?_
    rw [workDone_launched_wait op]
    obtain ⟨ev, hev, h⟩ := unset
    exact List.all_eq_false.mpr ⟨ev, hev, by simp [h]⟩
  · subst hs
    refine ⟨_, congrArg (fun o => Host.Outcome.next (control o core (s.arrive t))) op.symm, ?_⟩
    refine control_of_undone next ready none ?_
    rw [workDone_launched_signal op]
    obtain ⟨j, hj, h⟩ := before
    exact List.all_eq_false.mpr ⟨j, List.mem_range.mpr hj, by simpa using h⟩

/-! ### COMMIT -/

/-- From s to t the commands in flight and those that have committed are the same, or the tick is abandoned. -/
def Keeps (s t : State) : Prop :=
  (t.compute.runs = s.compute.runs ∧ t.compute.done = s.compute.done ∧ t.compute.abandoned = s.compute.abandoned) ∨ Dead t

theorem Goes.keeps {s t : State} (h : Goes s t) : Keeps s t := by
  refine h.imp_left fun same => ?_
  simp only [State.flight, Prod.mk.injEq] at same
  obtain ⟨runs, done, -, abandoned⟩ := same
  exact ⟨runs, done, abandoned⟩

theorem signal_keeps (ev core idx : Nat) (s : State) : Keeps s (signal ev core idx s) := by
  unfold signal
  split
  · exact .inl ⟨rfl, rfl, rfl⟩
  · extract_lets key n _ counted
    split
    · exact (commandFault_goes _ _ _ counted).keeps
    · exact .inl ⟨rfl, rfl, rfl⟩

theorem signals_keeps (evs : List Nat) (core idx : Nat) (s : State) : Keeps s (signals evs core idx s) := by
  refine List.foldlRecOn evs _ (motive := Keeps s) (.inl ⟨rfl, rfl, rfl⟩) fun u hu ev _ => ?_
  split
  · exact hu
  next live =>
    obtain ⟨runs, done, abandoned⟩ | dead := hu
    · obtain ⟨runs', done', abandoned'⟩ | dead' := signal_keeps ev core idx u
      · exact .inl ⟨runs'.trans runs, done'.trans done, abandoned'.trans abandoned⟩
      · exact .inr dead'
    · exact absurd dead.1 live

/-- A command has committed: it is in flight no more. -/
def HasCommitted (r : Run) (s t : State) : Prop :=
  t.compute.runs = s.compute.runs.filter (fun x => !(x.core == r.core && x.place == r.place))
    ∧ t.compute.done = s.compute.done ++ [(r.core, r.place)] ∧ t.compute.abandoned = false

theorem commitOne_of_dead {r : Run} {s : State} (dead : Dead s) : commitOne r s = s := by
  have staged : r.staged.foldl (fun s e => applyStaged r e s) s = s :=
    List.foldlRecOn r.staged _ (motive := fun t => t = s) rfl fun u hu e _ => by
      rw [hu]
      exact if_pos dead.1
  unfold commitOne
  rw [staged]
  exact if_pos dead.1

theorem commitRun_dead {r : Run} {s : State} (dead : Dead s) : Dead (commitRun r s) := by
  rw [commitRun, commitOne_of_dead dead]
  exact dead.of_flight (sendReady_flight s)

/-- A commit commits its command, or the tick is abandoned in it. -/
theorem commitRun_cases (r : Run) {s : State} (live : s.compute.abandoned = false) :
    HasCommitted r s (commitRun r s) ∨ Dead (commitRun r s) := by
  have one : HasCommitted r s (commitOne r s) ∨ Dead (commitOne r s) := by
    have staged := goes_foldl (f := fun s e => applyStaged r e s) (fun s e => applyStaged_goes r e s)
      (fun s e dead => by rw [show applyStaged r e s = s from if_pos dead.1]; exact dead) r.staged s
    unfold commitOne
    dsimp only
    split
    next gone =>
      obtain same | dead := staged
      · simp only [State.flight, Prod.mk.injEq] at same
        obtain ⟨-, -, -, abandoned⟩ := same
        rw [abandoned, live] at gone
        cases gone
      · exact .inr dead
    next going =>
      obtain same | dead := staged
      · simp only [State.flight, Prod.mk.injEq] at same
        obtain ⟨runs, done, -, abandoned⟩ := same
        obtain ⟨runs', done', abandoned'⟩ | dead := signals_keeps (commitSignals r.cmd) r.core (cmdIndex r.cmd)
          ((r.staged.foldl (fun s e => applyStaged r e s) s).committing r)
        · exact .inl ⟨runs'.trans (congrArg _ runs), done'.trans (congrArg (· ++ _) done),
            abandoned'.trans (abandoned.trans live)⟩
        · exact .inr dead
      · exact absurd dead.1 going
  have flight := sendReady_flight (commitOne r s)
  refine one.imp (fun h => ?_) (·.of_flight flight)
  simp only [State.flight, Prod.mk.injEq] at flight
  obtain ⟨runs, done, -, abandoned⟩ := flight
  exact ⟨runs.trans h.1, done.trans h.2.1, abandoned.trans h.2.2⟩

/-- One command that a COMMIT covers: it commits if it is in flight. -/
def coverOne (core : Nat) (s : State) (place : Nat) : State :=
  match s.compute.runs.find? fun x => x.core == core && x.place == place with
  | some x => commitRun x s
  | none => s

/-- A place of a core has committed, or its command is in flight. -/
def Reached (core : Nat) (s : State) (place : Nat) : Prop :=
  (core, place) ∈ s.compute.done ∨ ∃ x ∈ s.compute.runs, x.core = core ∧ x.place = place

theorem coverOne_of_dead {core : Nat} {s : State} {place : Nat} (dead : Dead s) : coverOne core s place = s := by
  unfold coverOne
  rw [dead.2.1]
  rfl

/-- A covered command that is reached has committed afterwards, and what was reached is. -/
theorem coverOne_cases {core : Nat} {s : State} {place : Nat} (live : s.compute.abandoned = false)
    (here : Reached core s place) :
    Dead (coverOne core s place) ∨ ((coverOne core s place).compute.abandoned = false
      ∧ (core, place) ∈ (coverOne core s place).compute.done
      ∧ (∀ d ∈ s.compute.done, d ∈ (coverOne core s place).compute.done)
      ∧ ∀ p, Reached core s p → Reached core (coverOne core s place) p) := by
  unfold coverOne
  split
  next x found =>
    have own := List.find?_some found
    rw [Bool.and_eq_true, beq_iff_eq, beq_iff_eq] at own
    obtain ⟨rfl, rfl⟩ := own
    obtain ⟨runs, done, abandoned⟩ | dead := commitRun_cases x live
    · refine .inr ⟨abandoned, by simp [done], fun d hd => by simp [done, hd], fun p hp => ?_⟩
      obtain hp | ⟨y, hy, core, place⟩ := hp
      · exact .inl (by simp [done, hp])
      · by_cases same : p = x.place
        · exact .inl (by simp [done, same])
        · refine .inr ⟨y, ?_, core, place⟩
          rw [runs, List.mem_filter]
          refine ⟨hy, ?_⟩
          rw [place]
          simp [same]
    · exact .inl dead
  next none =>
    refine .inr ⟨live, here.resolve_right ?_, fun _ h => h, fun _ h => h⟩
    rintro ⟨y, hy, rfl, rfl⟩
    have := List.find?_eq_none.mp none y hy
    simp at this

theorem coverAll_cases {core : Nat} (places : List Nat) {s : State} (live : s.compute.abandoned = false)
    (here : ∀ p ∈ places, Reached core s p) :
    Dead (places.foldl (coverOne core) s) ∨ ((places.foldl (coverOne core) s).compute.abandoned = false
      ∧ (∀ p ∈ places, (core, p) ∈ (places.foldl (coverOne core) s).compute.done)
      ∧ ∀ d ∈ s.compute.done, d ∈ (places.foldl (coverOne core) s).compute.done) := by
  induction places generalizing s with
  | nil => exact .inr ⟨live, fun p h => (nomatch h), fun _ h => h⟩
  | cons p ps ih =>
    rw [List.foldl_cons]
    obtain dead | ⟨live', done, kept, reached⟩ := coverOne_cases live (here p (List.mem_cons_self ..))
    · exact .inl (List.foldlRecOn ps _ dead fun u hu q _ => by rw [coverOne_of_dead hu]; exact hu)
    · refine (ih live' fun q hq => reached q (here q (List.mem_cons_of_mem _ hq))).imp_right fun h => ?_
      obtain ⟨live'', rest, kept'⟩ := h
      refine ⟨live'', fun q hq => ?_, fun d hd => kept' d (kept d hd)⟩
      obtain rfl | hq := List.mem_cons.mp hq
      · exact kept' _ done
      · exact rest q hq

theorem commitRange_congr {s t : State} (job : t.job = s.job) (dawn : t.dawn = s.dawn) (core : Nat) (c : Bytes) :
    commitRange t core c = commitRange s core c := by
  unfold commitRange State.list
  rw [plan_congr job dawn, job]

theorem commitCovered_eq (r : Run) (s : State) :
    commitCovered r s = ((commitRange s r.core r.cmd).map (·.1)).foldl (coverOne r.core) s := by
  rw [List.foldl_map]
  rfl

theorem freeEdge_of_commit {r : Run} (op : cmdOpcode r.cmd = 0x0B) (s : State) : freeEdge r s = s :=
  if_neg (by simp [op])

theorem covered_of_commit {r : Run} (op : cmdOpcode r.cmd = 0x0B) (s : State) : covered r s = commitCovered r s :=
  if_pos (by simp [op])

/-- Where nothing of its range is in flight, a COMMIT commits nothing but itself. -/
theorem commitCovered_of_idle {r : Run} {s : State}
    (idle : ∀ x ∈ s.compute.runs, x.core = r.core → ∀ p ∈ commitRange s r.core r.cmd, x.place ≠ p.1) :
    commitCovered r s = s := by
  rw [commitCovered_eq]
  refine List.foldlRecOn _ _ (motive := fun t => t = s) rfl fun u hu q hq => ?_
  obtain ⟨p, hp, rfl⟩ := List.mem_map.mp hq
  rw [hu, coverOne, List.find?_eq_none.mpr fun x hx own => ?_]
  rw [Bool.and_eq_true, beq_iff_eq, beq_iff_eq] at own
  exact idle x hx own.1 p hp own.2

section
variable {core place : Nat} {c : Bytes} {s : State}

theorem commitRange_launch : commitRange (launch core place c (accessFor s core c []) {} true s)
    (controlRun core place c s).core (controlRun core place c s).cmd = commitRange s core c :=
  commitRange_congr (launch_control core place c s).2.job_eq (launch_control core place c s).2.dawn_eq core c

/-- A COMMIT whose range has committed covers nothing more. -/
theorem covered_of_range (op : cmdOpcode c = 0x0B)
    (idle : ∀ r ∈ s.compute.runs, r.core = core → ∀ p ∈ commitRange s core c, r.place ≠ p.1)
    (apart : ∀ p ∈ commitRange s core c, p.1 ≠ place) :
    covered (controlRun core place c s) (freeEdge (controlRun core place c s)
        (launch core place c (accessFor s core c []) {} true s))
      = freeEdge (controlRun core place c s) (launch core place c (accessFor s core c []) {} true s) := by
  have opRun : cmdOpcode (controlRun core place c s).cmd = 0x0B := op
  rw [freeEdge_of_commit opRun, covered_of_commit opRun]
  refine commitCovered_of_idle fun x hx own p hp => ?_
  rw [commitRange_launch] at hp
  rw [(launch_control core place c s).1, List.mem_append, List.mem_singleton] at hx
  obtain hx | rfl := hx
  · exact idle x hx own p hp
  · exact (apart p hp).symm

/-- The commit at the end of a COMMIT counts only where what it covers has committed. -/
theorem commitRun_settled_of_covered {r : Run} {v : State} {places : List Nat}
    (cases : Dead v ∨ (v.compute.abandoned = false ∧ ∀ p ∈ places, (r.core, p) ∈ v.compute.done))
    (committed : (r.core, r.place) ∈ (commitRun r (startGuests (v.setRun r))).compute.done) :
    ∀ p ∈ places, (r.core, p) ∈ (commitRun r (startGuests (v.setRun r))).compute.done := by
  have flight := startGuests_flight (v.setRun r)
  obtain dead | ⟨live, all⟩ := cases
  · have setDead : Dead (v.setRun r) := ⟨dead.1, congrArg (List.map _) dead.2.1, dead.2.2⟩
    have dead' : Dead (startGuests (v.setRun r)) := setDead.of_flight flight
    rw [(commitRun_dead dead').2.2] at committed
    cases committed
  · simp only [State.flight, Prod.mk.injEq] at flight
    obtain ⟨-, done, -, abandoned⟩ := flight
    intro p hp
    obtain ⟨-, done', -⟩ | dead := commitRun_cases r (s := startGuests (v.setRun r)) (abandoned.trans live)
    · rw [done', done]
      exact List.mem_append_left _ (all p hp)
    · rw [dead.2.2] at committed
      cases committed

end

/-- Settles O35: a COMMIT finishes only where its range is reached, and what it covers commits before it or the tick is
abandoned. -/
theorem commitCoversItsRange : Obligations.CommitCoversItsRange := by
  intro t s s' core place c hs next ready apart op commits unselected fresh unseen
  subst hs
  have none : (s.arrive t).run core (cmdIndex c) = none := List.find?_eq_none.mpr fun r hr => by
    rw [Bool.and_eq_true, beq_iff_eq, beq_iff_eq]
    exact fun h => (apart r hr h.1).2 h.2
  obtain ⟨runs, touches⟩ := launch_control core place c (s.arrive t)
  obtain ⟨before, -, -⟩ := touches.same .progress (by decide)
  have opRun : cmdOpcode (controlRun core place c (s.arrive t)).cmd = 0x0B := op
  refine ⟨fun range idle silent others => ?_, fun u run committed => ?_⟩
  · refine ⟨_, congrArg (fun o => Host.Outcome.next (control o core (s.arrive t))) op.symm, ?_⟩
    have signals : commitSignals c = [0] := by simp [commitSignals, op, silent]
    refine (control_of_done next ready apart commits unselected fresh ?_ ?_ (covered_of_range op idle others)).1
    · rw [signals]
      intro ev hev ne
      exact absurd (List.mem_singleton.mp hev) ne
    · rw [workDone_commit opRun]
      refine List.all_eq_true.mpr fun p hp => ?_
      rw [commitRange_launch] at hp
      rw [before]
      exact Bool.or_eq_true_iff.mpr (.inl (List.contains_iff_mem.mpr (range p hp)))
  · have hu : u = finish core (cmdIndex c) 0 (launch core place c (accessFor (s.arrive t) core c []) {} true (s.arrive t)) := by
      rw [← control_of_next next ready, op]
      exact (Host.Outcome.next.inj run).symm
    cases done : workDone (launch core place c (accessFor (s.arrive t) core c []) {} true (s.arrive t))
        (controlRun core place c (s.arrive t)) with
    | false =>
      rw [hu, finish_of_undone (run_controlRun none) done, before] at committed
      exact absurd committed unseen
    | true =>
      have plain := controlRun_plain (s := s.arrive t) unselected fresh
      rw [finish_of_done (run_controlRun none) rfl done, finishRun_of_none plain, freeEdge_of_commit opRun,
        covered_of_commit opRun] at hu
      have committing := hu.trans (commitIfReady_of_committable (r := finishedControl core place c (s.arrive t))
        (by simp [Run.committable, finishedControl, plain]) commits)
      have reached : ∀ p ∈ (commitRange (s.arrive t) core c).map (·.1), Reached core
          (launch core place c (accessFor (s.arrive t) core c []) {} true (s.arrive t)) p := by
        intro q hq
        obtain ⟨p, hp, rfl⟩ := List.mem_map.mp hq
        rw [workDone_commit opRun] at done
        have := List.all_eq_true.mp done p (by rw [commitRange_launch]; exact hp)
        obtain h | h := Bool.or_eq_true_iff.mp this
        · exact .inl (List.contains_iff_mem.mp h)
        · obtain ⟨x, hx, h⟩ := List.any_eq_true.mp h
          simp only [Bool.and_eq_true, beq_iff_eq] at h
          exact .inr ⟨x, hx, h.1.1, h.1.2⟩
      have live := (launch_abandoned core place c (s.arrive t)).trans (live_of_canIssue ready)
      have covers := (coverAll_cases _ live reached).imp_right fun h => And.intro h.1 h.2.1
      rw [committing] at committed ⊢
      have all := commitRun_settled_of_covered (r := finishedControl core place c (s.arrive t))
        (v := commitCovered (controlRun core place c (s.arrive t))
          (launch core place c (accessFor (s.arrive t) core c []) {} true (s.arrive t)))
        (places := (commitRange (s.arrive t) core c).map (·.1))
        (by rw [commitCovered_eq, commitRange_launch]; exact covers) committed
      exact fun p hp => all p.1 (List.mem_map_of_mem hp)

end Sys2Proof.Machine
end

section
/-! PROOFS. The history of errors (R415, R416): a full one keeps its newest entries, whatever is detected. -/

namespace Sys2Proof.Machine

set_option Elab.async false

/-- A full history whose every entry is newer drops what is entered, and with it the detection. -/
theorem enterHistory_of_newer {s : State} {y : HistEntry} {ys : List HistEntry} (hist : s.integrity.entries = y :: ys)
    (full : ys.length = 125) (newer : s.millihours < y.millihours) (code : Nat) (unit site : BitVec 32) :
    (enterHistory code unit site s).integrity.entries = s.integrity.entries := by
  have later : HistEntry.notAfter y ⟨unit, site, code, s.millihours, ptrAdd s.host.nextSeq 4294967295⟩ = false := by
    simp [HistEntry.notAfter, Nat.le_of_lt newer, Nat.ne_of_gt newer]
  unfold enterHistory pageSoon
  dsimp only
  rw [hist, insertBy, later]
  simp [full]

/-- A unit without an entry is classified by its failed test alone (R418). -/
theorem permanentRule_of_unlisted {unit : BitVec 32} {es : List HistEntry} (none : ∀ e ∈ es, e.unit ≠ unit) :
    permanentRule unit false es = 0 := by
  have filtered : es.filter (·.unit == unit) = [] := List.filter_eq_nil_iff.mpr fun e he => by simpa using none e he
  have one : ruleOne unit es = false := by simp [ruleOne, filtered]
  have two : ruleTwo unit es = false := by
    have : (es.any fun a => a.unit == unit && a.site != 0xFFFFFFFF
        && 2 ≤ (es.filter fun b => b.unit == a.unit && b.site == a.site).length) = false :=
      List.any_eq_false.mpr fun e he => by simp [none e he]
    rw [ruleTwo, this, Bool.and_false]
  have four : es.any (·.unit == unit) = false := List.any_eq_false.mpr fun e he => by simpa using none e he
  simp [permanentRule, one, two, four]

/-- A bridge fault that no rule of R418 classifies leaves the module in its phase. -/
theorem bridgeFault_dawnPhase_of_unclassified {s : State}
    (rule : permanentRule (unitOf 7 0) false (enterHistory (0x1000 + s.free.1.toNat % 0x8000) (unitOf 7 0) noSite
      s.free.2).integrity.entries = 0) : (bridgeFault s).dawn.phase = s.dawn.phase := by
  have entered := (enterHistory_touches (0x1000 + s.free.1.toNat % 0x8000) (unitOf 7 0) noSite s.free.2).dawn_eq
  unfold bridgeFault classify
  dsimp only
  split
  · rw [entered]
    rfl
  · rw [rule]
    exact congrArg (·.phase) entered

/-- A module at standby whose history is full of entries newer than its operation. -/
def newerHistory : State :=
  { State.reset with integrity := { entries := List.replicate 126 ⟨0, 0, 0x4203, 1, 0⟩ } }

/-- Refutes O46: a bridge fault in a module whose history is full of newer entries is not kept there (R415 keeps the 126
newest), so that no rule of R418 holds and there is no Eclipse. -/
theorem not_faultsTakeTheirLevels : ¬ Obligations.FaultsTakeTheirLevels := by
  intro h
  obtain ⟨-, -, bridge, -⟩ := h 0 newerHistory
  obtain ⟨u, run, eclipse, -⟩ := bridge (by decide) 0 0
  have kept := enterHistory_of_newer (s := (newerHistory.arrive 0).free.2) (y := ⟨0, 0, 0x4203, 1, 0⟩)
    (ys := List.replicate 125 ⟨0, 0, 0x4203, 1, 0⟩) rfl List.length_replicate (by decide)
    (0x1000 + (newerHistory.arrive 0).free.1.toNat % 0x8000) (unitOf 7 0) noSite
  have rule : permanentRule (unitOf 7 0) false (List.replicate 126 ⟨0, 0, 0x4203, 1, 0⟩) = 0 :=
    permanentRule_of_unlisted fun e he => by rw [List.eq_of_mem_replicate he]; decide
  have phase := bridgeFault_dawnPhase_of_unclassified (s := newerHistory.arrive 0) ((congrArg _ kept).trans rule)
  have step : exec (.uncorrectableError 0 .bridge 0 0) newerHistory = .next (bridgeFault (newerHistory.arrive 0)) :=
    congrArg Host.Outcome.next (if_neg (by decide))
  have hu : u = bridgeFault (newerHistory.arrive 0) := Host.Outcome.next.inj (run.symm.trans step)
  rw [hu, phase] at eclipse
  cases eclipse

end Sys2Proof.Machine
end

section
/-! PROOFS. History pages and the watch period (R415, R417, R419): the bytes of a page, and where it stands in the flash. -/

namespace Sys2Proof.Machine

set_option Elab.async false

/-! ### Numbers in bytes -/

theorem leValue_toLe (n v : Nat) : leValue (toLe n v) = v % 256 ^ n := by
  induction n generalizing v with
  | zero => simp [toLe, leValue, Nat.mod_one]
  | succ n ih =>
    simp only [toLe, leValue, ih, BitVec.toNat_ofNat]
    rw [show 256 ^ (n + 1) = 256 * 256 ^ n from Nat.pow_succ' ..]
    exact (Nat.mod_mul ..).symm

/-- A number stored behind other bytes reads back from there. -/
theorem le_append_toLe {p q : Bytes} {off n v : Nat} (len : p.length = off) (fits : v < 256 ^ n) :
    le (p ++ (toLe n v ++ q)) off n = v := by
  subst len
  rw [le, List.drop_left, List.take_left' (length_toLe n v), leValue_toLe, Nat.mod_eq_of_lt fits]

theorem crcBit_lt {r : Nat} (h : r < 2 ^ 32) : crcBit r < 2 ^ 32 := by
  have half : r / 2 < 2 ^ 32 := Nat.lt_of_le_of_lt (Nat.div_le_self ..) h
  unfold crcBit
  split
  · exact Nat.xor_lt_two_pow half (by decide)
  · exact half

theorem crc32c_lt (b : Bytes) : crc32c b < 2 ^ 32 := by
  have bytes : b.foldl crcByte 0xFFFFFFFF < 2 ^ 32 := by
    refine List.foldlRecOn b _ (motive := fun r => r < 2 ^ 32) (by decide) fun r hr x _ => ?_
    have first : r ^^^ x.toNat < 2 ^ 32 := Nat.xor_lt_two_pow hr (Nat.lt_trans x.isLt (by decide))
    unfold crcByte
    iterate 8 apply crcBit_lt
    exact first
  exact Nat.xor_lt_two_pow bytes (by decide)

/-! ### A page -/

/-- What stands before the CRC of a history page (Table 15.11). -/
def pageHead (s : State) (seq : Nat) : Bytes :=
  ascii "A7FH" ++ toLe 4 seq ++ toLe 4 s.millihours ++ toLe 2 s.integrity.entries.length
    ++ toLe 1 (bitOf s.integrity.permanent) ++ toLe 1 s.integrity.rule ++ toLe 4 s.integrity.permUnit.toNat
    ++ toLe 4 s.integrity.total ++ zeros 36

/-- What stands behind it: the entries. -/
def pageTail (s : State) : Bytes := slice (s.integrity.entries.flatMap HistEntry.bytes) 0 4032

theorem historyPage_eq (s : State) (seq : Nat) :
    historyPage s seq = pageHead s seq ++ (toLe 4 (crc32c (pageHead s seq ++ pageTail s)) ++ pageTail s) :=
  List.append_assoc ..

theorem length_pageHead (s : State) (seq : Nat) : (pageHead s seq).length = 60 := by
  simp [pageHead, zeros, ascii]

theorem historyPage_valid (s : State) (seq : Nat) : pageValid (historyPage s seq) = true := by
  have head := length_pageHead s seq
  have crc : le (historyPage s seq) 60 4 = crc32c (pageHead s seq ++ pageTail s) := by
    rw [historyPage_eq]
    exact le_append_toLe head (crc32c_lt _)
  have before : (historyPage s seq).take 60 = pageHead s seq := by
    rw [historyPage_eq, List.take_left' head]
  have behind : (historyPage s seq).drop 64 = pageTail s := by
    rw [historyPage_eq, ← List.append_assoc]
    exact List.drop_left' (by simp [head])
  have magic : (historyPage s seq).take 4 = ascii "A7FH" := rfl
  rw [pageValid, crc, before, behind, magic]
  simp

theorem historyPage_seq (s : State) {seq : Nat} (fits : seq < 2 ^ 32) : le (historyPage s seq) 4 4 = seq := by
  have split : historyPage s seq = ascii "A7FH" ++ (toLe 4 seq ++ (historyPage s seq).drop 8) := rfl
  rw [split]
  exact le_append_toLe rfl fits

/-! ### The flash -/

theorem mem_insertBy {α : Type} {le : α → α → Bool} {x y : α} {l : List α} : y ∈ insertBy le x l ↔ y = x ∨ y ∈ l := by
  rw [(insertBy_perm le x l).mem_iff, List.mem_cons]

/-- A page that is programmed stands; where its sector is erased first, that sector alone (R415). -/
theorem mem_programPage (pages : List (Nat × Bytes)) (n : Nat) (b : Bytes) : (n, b) ∈ programPage pages n b :=
  mem_insertBy.mpr (.inl rfl)

theorem mem_programPage_elsewhere {pages : List (Nat × Bytes)} {n m : Nat} (b x : Bytes) (apart : m / 16 ≠ n / 16) :
    (m, x) ∈ programPage pages n b ↔ (m, x) ∈ pages := by
  have ne : m ≠ n := fun h => apart (congrArg (· / 16) h)
  unfold programPage
  dsimp only
  rw [mem_insertBy]
  split <;> simp [ne, apart]

/-- The page after the one last written. -/
def State.nextPage (s : State) : Nat := match s.integrity.lastPage with | some p => (p + 1) % 1024 | none => 0

theorem ptrAdd_lt (a n : Nat) : ptrAdd a n < 2 ^ 32 := Nat.mod_lt _ (by decide)

theorem historyWrite_ok {s : State} (due : historyDue s = true) :
    let u := historyWrite true s
    u.flash.pages = programPage s.flash.pages s.nextPage (historyPage s (ptrAdd s.integrity.pageSeq 1))
      ∧ u.integrity.lastPage = some s.nextPage ∧ u.integrity.pageSeq = ptrAdd s.integrity.pageSeq 1
      ∧ u.integrity.pageDue = none := by
  unfold historyWrite
  rw [if_pos due]
  exact ⟨rfl, rfl, rfl, rfl⟩

theorem Touches.pages_eq {ps : List Part} {s t : State} (h : Touches ps s t) (hp : Part.integrity ∉ ps := by decide) :
    t.integrity.pageSeq = s.integrity.pageSeq ∧ t.integrity.lastPage = s.integrity.lastPage :=
  ⟨congrArg (·.pageSeq) (h.same .integrity hp), congrArg (·.lastPage) (h.same .integrity hp)⟩

theorem historyWrite_failed {s : State} (due : historyDue s = true) :
    let u := historyWrite false s
    u.newest = some 0x4401 ∧ u.integrity.pageSeq = s.integrity.pageSeq ∧ u.integrity.lastPage = some s.nextPage := by
  unfold historyWrite
  rw [if_pos due]
  dsimp only
  rw [if_neg (by decide)]
  exact ⟨raise_newest .., (raise_touches ..).pages_eq⟩

theorem hasJob_of_job {s t : State} (h : t.job = s.job) : t.hasJob = s.hasJob := by
  rw [State.hasJob, State.inJob, h]
  rfl

/-- The watch period that ends: reported, and it lasts until a job that there is has ended (R419). -/
def endWatch (s : State) : State :=
  let u := pageSoon (raise 0x4403 0 { s with integrity := { s.integrity with watchEnds := true } })
  if u.hasJob then u else applyWatchEnd u

theorem endWatch_effect {s : State} (watch : s.integrity.watch = true) :
    (endWatch s).newest = some 0x4403 ∧ (endWatch s).integrity.watch = s.hasJob
      ∧ (endWatch s).integrity.watchEnds = s.hasJob ∧ (endWatch s).integrity.pageDue ≠ none := by
  have reported := raise_newest 0x4403 0 { s with integrity := { s.integrity with watchEnds := true } }
  have kept := (raise_touches 0x4403 0 { s with integrity := { s.integrity with watchEnds := true } }).same .integrity (by decide)
  have job : (raise 0x4403 0 { s with integrity := { s.integrity with watchEnds := true } }).hasJob = s.hasJob :=
    hasJob_of_job (raise_job rfl ..)
  unfold endWatch
  generalize raise 0x4403 0 { s with integrity := { s.integrity with watchEnds := true } } = v at *
  have watching : v.integrity.watch = true := (congrArg IntegrityState.watch kept).trans watch
  have ends : v.integrity.watchEnds = true := congrArg IntegrityState.watchEnds kept
  have hasJob : (pageSoon v).hasJob = s.hasJob := job
  dsimp only
  rw [hasJob]
  cases s.hasJob with
  | true => exact ⟨reported, watching, ends, by simp [pageSoon]⟩
  | false =>
    have ended : applyWatchEnd (pageSoon v)
        = { pageSoon v with integrity := { (pageSoon v).integrity with watch := false, watchEnds := false } } :=
      if_pos ends
    rw [if_neg (by decide), ended]
    exact ⟨reported, rfl, rfl, by simp [pageSoon]⟩

/-- Settles O48: the page that is due goes behind the last one, and the end of the watch period waits for the end of a job. -/
theorem historyPagesAndTheWatchPeriod : Obligations.HistoryPagesAndTheWatchPeriod := by
  intro t s
  refine ⟨fun due => ⟨⟨_, historyPage (s.arrive t) (ptrAdd s.integrity.pageSeq 1), rfl, ?_⟩, _, rfl, ?_⟩,
    fun idle => ?_, fun watch ends hours => ?_⟩
  · obtain ⟨pages, last, seq, none⟩ := historyWrite_ok (s := s.arrive t) due
    rw [pages, last, seq, none]
    exact ⟨mem_programPage .., historyPage_valid .., historyPage_seq _ (ptrAdd_lt ..), rfl, rfl, rfl,
      fun m x apart => mem_programPage_elsewhere _ _ apart⟩
  · exact historyWrite_failed (s := s.arrive t) due
  · exact congrArg Host.Outcome.next (by rw [historyWrite, idle]; rfl)
  · exact ⟨endWatch (s.arrive t), congrArg Host.Outcome.next (if_pos (by simp [watch, ends, hours])),
      endWatch_effect (s := s.arrive t) watch⟩

end Sys2Proof.Machine
end

section
/-! PROOFS. The fills of the pool (R281): what a fill does to its entry of the directory and to its frame. -/

namespace Sys2Proof.Machine

set_option Elab.async false

/-! ### The directory -/

theorem Touches.entries_eq {ps : List Part} {s t : State} (h : Touches ps s t) (hp : Part.tier ∉ ps := by decide) :
    t.tier.entries = s.tier.entries := congrArg (·.entries) (h.tier_eq hp)

theorem dirEntry_congr {s t : State} (h : t.tier.entries = s.tier.entries) (i : Nat) : t.dirEntry i = s.dirEntry i := by
  rw [State.dirEntry, h, State.dirEntry]

theorem dirEntry_setStatus {s : State} {e : Nat} {x : DirEntry} (old : s.dirEntry e = some x) (st : Residency) (j : Nat) :
    (setStatus e st s).dirEntry j = if j = e then some { x with status := st } else s.dirEntry j := by
  simp only [setStatus, old, dirEntry_setEntry old]

theorem dirEntry_setStatus_ne {s : State} {e j : Nat} (st : Residency) (ne : j ≠ e) :
    (setStatus e st s).dirEntry j = s.dirEntry j := by
  cases old : s.dirEntry e with
  | none => simp only [setStatus, old]
  | some x => rw [dirEntry_setStatus old, if_neg ne]

theorem redecide_tier (s : State) : (redecide s).tier.entries = s.tier.entries ∧ (redecide s).tier.fill = s.tier.fill
    ∧ (redecide s).tier.queue = s.tier.queue ∧ (redecide s).tier.filled = s.tier.filled := by
  unfold redecide
  dsimp only
  split
  · split
    · exact ⟨rfl, rfl, rfl, rfl⟩
    · exact ⟨rfl, rfl, rfl, rfl⟩
  · exact ⟨rfl, rfl, rfl, rfl⟩

/-! ### The start of a fill -/

/-- The directory once an entry has given way to a fill. -/
def evict (ev : Option Nat) (s : State) : State := match ev with | some e => setStatus e .absent s | none => s

theorem evict_touches (ev : Option Nat) (s : State) : Touches [.tier] s (evict ev s) := by
  cases ev with
  | none => exact .refl ..
  | some e => exact setStatus_touches ..

/-- The entry that is filled stands after the eviction, with its source. -/
theorem dirEntry_evict {s : State} {i : Nat} {d : DirEntry} (here : s.dirEntry i = some d) (ev : Option Nat) :
    ∃ d', (evict ev s).dirEntry i = some d' ∧ d'.src = d.src := by
  cases ev with
  | none => exact ⟨d, here, rfl⟩
  | some e =>
    by_cases same : i = e
    · subst same
      exact ⟨{ d with status := .absent }, by rw [evict, dirEntry_setStatus here, if_pos rfl], rfl⟩
    · exact ⟨d, by rw [evict, dirEntry_setStatus_ne _ same, here], rfl⟩

theorem beginFill_of_frame {s : State} {i : FillItem} {f : Nat} {ev : Option Nat} {d : DirEntry} (idle : s.tier.fill = none)
    (open' : s.tier.inReset = false) (head : queueHead s = some i) (frame : takeFrame s = some (f, ev))
    (here : (evict ev s).dirEntry i.entry = some d) :
    beginFill s = { (evict ev s).setEntry i.entry { d with status := .filling, frame := f } with
      tier := { ((evict ev s).setEntry i.entry { d with status := .filling, frame := f }).tier with
        fill := some ⟨i.entry, f, 0, s.now⟩ } } := by
  have now : (evict ev s).now = s.now := (evict_touches ev s).now
  unfold beginFill
  rw [if_neg (by simp [idle, open']), head, frame]
  rw [← now]
  cases ev with
  | none =>
    dsimp only [evict] at here ⊢
    rw [here]
    rfl
  | some e =>
    dsimp only [evict] at here ⊢
    rw [here]
    rfl

theorem beginFill_of_starved {s : State} {i : FillItem} (idle : s.tier.fill = none) (open' : s.tier.inReset = false)
    (head : queueHead s = some i) (frame : takeFrame s = none) (first : s.tier.starved ≠ some s.tick.index) :
    beginFill s = raise 0x2906 i.entry { s with tier := { s.tier with starved := some s.tick.index } } := by
  simp [beginFill, idle, open', head, frame, first]

/-! ### The end of a fill -/

/-- What a fill read gives: its segment decoded where the read is good (R281). -/
def fillResult (s : State) (f : Fill) (e : DirEntry) (ok : Bool) (host : Bytes) : SegmentResult :=
  if ok && (!e.fromWindow || windowOk s (e.src * 4096) (e.segLen * 256)) then
    decodeSegment f.entry (if e.fromWindow then host else s.readMem .store (e.src * 4096) (e.segLen * 256))
  else .blockFault

theorem endFill_of_failed_first {s : State} {f : Fill} {d : DirEntry} (host : Bytes) (fill : s.tier.fill = some f)
    (here : s.dirEntry f.entry = some d) (first : f.tries = 0) :
    endFill false host s = { s with tier := { s.tier with fill := some { f with tries := 1, start := s.now } } } := by
  simp [endFill, fill, here, first]

theorem endFill_of_failed_again {s : State} {f : Fill} {d : DirEntry} (host : Bytes) (fill : s.tier.fill = some f)
    (here : s.dirEntry f.entry = some d) (again : f.tries ≠ 0) :
    endFill false host s = failFill f d (if d.fromWindow then 0x2908 else 0x2904) s := by
  cases window : d.fromWindow <;> simp [endFill, fill, here, again, window, fillCode]

/-- The state in which a fill has brought its segment in, but for the path that is chosen anew. -/
def filled (f : Fill) (e : DirEntry) (b : Bytes) (s : State) : State :=
  let s := chargeHbm 3 (frameAddr s f.frame) 1048576 (s.writeMem .hbm (frameAddr s f.frame) b)
  let s := s.setEntry f.entry { e with status := .resident, frame := f.frame, since := s.now }
  let took := toNs (s.now - f.start)
  { s with tier := { s.tier with
      fill := none, queue := s.tier.queue.filter (·.entry != f.entry), filled := s.tier.filled + 1,
      storeTimes := if e.fromWindow then s.tier.storeTimes else (took :: s.tier.storeTimes).take 1024,
      windowTimes := if e.fromWindow then (took :: s.tier.windowTimes).take 1024 else s.tier.windowTimes } }

theorem endFill_of_data {s : State} {f : Fill} {d : DirEntry} {b : Bytes} (fill : s.tier.fill = some f)
    (here : s.dirEntry f.entry = some d) (store : d.fromWindow = false)
    (good : decodeSegment f.entry (s.readMem .store (d.src * 4096) (d.segLen * 256)) = .data b) :
    endFill true [] s = redecide (filled f d b s) := by
  unfold endFill
  rw [fill]
  dsimp only
  rw [here]
  simp only [store, good, Bool.not_false, Bool.true_or, Bool.and_true, if_true, Bool.false_eq_true, if_false]
  rw [filled]
  simp only [store, Bool.false_eq_true, if_false]

theorem filled_dirEntry {s : State} {f : Fill} {d : DirEntry} (b : Bytes) (here : s.dirEntry f.entry = some d) :
    (filled f d b s).dirEntry f.entry = some { d with status := .resident, frame := f.frame, since := s.now } := by
  have charged : (chargeHbm 3 (frameAddr s f.frame) 1048576 (s.writeMem .hbm (frameAddr s f.frame) b)).dirEntry f.entry
      = some d := (dirEntry_congr rfl _).trans here
  exact (dirEntry_congr rfl _).trans ((dirEntry_setEntry charged _ _).trans (if_pos rfl))

/-! ### What the end of a job leaves of the directory -/

/-- The entries of the directory. -/
def State.pool (s : State) : List (Nat × DirEntry) := s.tier.entries

theorem Touches.pool_eq {ps : List Part} {s t : State} (h : Touches ps s t) (hp : Part.tier ∉ ps := by decide) :
    t.pool = s.pool := h.entries_eq hp

theorem fillBuckets_pool (s : State) : (fillBuckets s).pool = s.pool := rfl

theorem leaveArmed_pool (s : State) : (leaveArmed s).pool = s.pool := by
  unfold leaveArmed
  exact (applyWatchEnd_touches _).pool_eq

theorem causeDusk_pool (code : Nat) (s : State) : (causeDusk code s).pool = s.pool := by
  unfold causeDusk
  split
  · exact leaveArmed_pool s
  iterate 3
    split
    · rfl
    · dsimp only
      split
      · exact (reportToHead_touches ..).pool_eq
      · rfl
  · rfl

theorem pushRecord_pool (r : OutRecord) (s : State) : (pushRecord r s).pool = s.pool := by
  have late (t : State) : (markLate (drainRecords 82 t)).pool = t.pool := by
    rw [(markLate_touches _).pool_eq, (drainRecords_touches ..).pool_eq]
  unfold pushRecord
  dsimp only
  split
  · rw [causeDusk_pool, (raise_touches ..).pool_eq, late]
    rfl
  · exact late _

theorem closeFrames_pool (reason : GapReason) (s : State) : (closeFrames reason s).pool = s.pool := by
  refine foldl_keeps State.pool (fun s r => ?_) _ s
  unfold dueRecord
  split
  · exact pushRecord_pool r s
  · rfl

theorem eclipseState_pool (s : State) : (eclipseState s).pool = s.pool ∧ (eclipseState s).tier.fill = none := by
  refine ⟨?_, rfl⟩
  unfold eclipseState
  extract_lets killed closed left
  have ended : closed.pool = killed.pool := by
    unfold closed
    split
    · exact closeFrames_pool ..
    · rfl
  calc _ = closed.pool := rfl
    _ = killed.pool := ended
    _ = s.pool := by rw [(killMedia_touches _).pool_eq, (killCompute_touches _).pool_eq]

/-- A unit that is judged leaves the directory; where no fill is under way, none is then either. -/
theorem classify_pool (unit : BitVec 32) (failed : Bool) {s : State} (idle : s.tier.fill = none) :
    (classify unit failed s).pool = s.pool ∧ (classify unit failed s).tier.fill = none
      ∧ ((classify unit failed s).dawn.phase ≠ .eclipse → classify unit failed s = s) := by
  unfold classify
  dsimp only
  split
  · exact ⟨rfl, idle, fun _ => rfl⟩
  · split
    · exact ⟨rfl, idle, fun _ => rfl⟩
    · refine ⟨?_, ?_, fun h => absurd (enterEclipse_dawnPhase ..) h⟩
      · exact (raiseAs_touches ..).pool_eq.trans (eclipseState_pool _).1
      · exact (congrArg (·.fill) (raiseAs_touches ..).tier_eq).trans (eclipseState_pool _).2

/-- A counted error likewise; it is the newest event unless the unit is judged permanent. -/
theorem countError_pool (code : Nat) (detected : Source) (oob : Bool) (unit site : BitVec 32) (arg : Nat) {s : State}
    (idle : s.tier.fill = none) :
    (countError code detected oob unit site arg s).pool = s.pool
      ∧ (countError code detected oob unit site arg s).tier.fill = none
      ∧ ((countError code detected oob unit site arg s).dawn.phase ≠ .eclipse
        → (countError code detected oob unit site arg s).newest = some code) := by
  have entered := (enterHistory_touches code unit site (raiseAs code false detected oob arg s)).tier_eq.trans
    (raiseAs_touches code false detected oob arg s).tier_eq
  have newest : (enterHistory code unit site (raiseAs code false detected oob arg s)).newest = some code :=
    raiseAs_newest code false detected oob arg s
  unfold countError
  generalize enterHistory code unit site (raiseAs code false detected oob arg s) = u at entered newest ⊢
  obtain ⟨pool, fill, same⟩ := classify_pool unit false ((congrArg (·.fill) entered).trans idle)
  exact ⟨pool.trans (congrArg (·.entries) entered), fill, fun phase => by rw [same phase, newest]⟩

theorem failFill_effect {s : State} {f : Fill} {d : DirEntry} (code : Nat) (here : s.dirEntry f.entry = some d) :
    (failFill f d code s).tier.fill = none
      ∧ (failFill f d code s).dirEntry f.entry = some { d with status := .failed }
      ∧ ((failFill f d code s).dawn.phase ≠ .eclipse ∨ d.fromWindow = true → (failFill f d code s).newest = some code) := by
  unfold failFill
  extract_lets failed _ freed
  have entry : freed.dirEntry f.entry = some { d with status := .failed } :=
    (dirEntry_congr rfl _).trans ((dirEntry_setStatus here _ _).trans (if_pos rfl))
  split
  next window =>
    refine ⟨congrArg (·.fill) (raiseAs_touches ..).tier_eq, ?_, fun _ => raiseAs_newest ..⟩
    rw [dirEntry_congr (raiseAs_touches ..).entries_eq, entry]
  next store =>
    obtain ⟨pool, fill, newest⟩ := countError_pool code .tier false (unitOf 8 (storeChannel d.src)) (BitVec.ofNat 32 d.src)
      f.entry (s := freed) rfl
    exact ⟨fill, (dirEntry_congr pool _).trans entry, fun h => newest (h.resolve_right store)⟩

/-- Settles O49: the start takes its frame, a good segment is stored in it, and a bad one is tried once more. -/
theorem fillsBringSegmentsIn : Obligations.FillsBringSegmentsIn := by
  refine fun t s => ⟨fun i f ev d idle open' head frame here => ?_, fun i idle open' head frame first => ?_,
    fun f d fill here => ⟨fun b wf store good => ?_, fun first => ?_, fun again => ?_⟩⟩
  · obtain ⟨d', evicted, src⟩ := dirEntry_evict (s := s.arrive t) here ev
    have run := beginFill_of_frame (s := s.arrive t) idle open' head frame evicted
    have touches := evict_touches ev (s.arrive t)
    refine ⟨_, congrArg Host.Outcome.next run, rfl, ?_, fun e x hev ne old => ?_, touches.mems_eq, touches.job_eq⟩
    · exact ⟨{ d' with status := .filling, frame := f },
        (dirEntry_congr rfl _).trans ((dirEntry_setEntry evicted _ _).trans (if_pos rfl)), rfl, rfl, src⟩
    · subst hev
      refine (dirEntry_congr rfl _).trans ((dirEntry_setEntry evicted _ _).trans ((if_neg ne).trans ?_))
      exact (dirEntry_setStatus (s := s.arrive t) old _ _).trans (if_pos rfl)
  · refine ⟨_, congrArg Host.Outcome.next (beginFill_of_starved (s := s.arrive t) idle open' head frame first),
      raise_newest .., ?_, (raise_touches ..).entries_eq⟩
    refine (congrArg TierState.fill (raise_touches ..).tier_eq).trans ?_
    exact idle
  · refine ⟨_, congrArg Host.Outcome.next (endFill_of_data (s := s.arrive t) fill here store good), ?_⟩
    obtain ⟨entries, fill', queue, count⟩ := redecide_tier (filled f d b (s.arrive t))
    have mem : (redecide (filled f d b (s.arrive t))).mem.hbm
        = s.mem.hbm.writeBytes (s.dawn.layout.poolBase + f.frame * 1048576) b :=
      congrArg Mems.hbm (redecide_touches (filled f d b (s.arrive t))).mems_eq
    refine ⟨fill', (dirEntry_congr entries _).trans (filled_dirEntry b here), ?_, count, ?_, fun a ha => ?_⟩
    · rw [queue]
      intro i hi
      simpa using (List.mem_filter.mp hi).2
    · show (redecide (filled f d b (s.arrive t))).mem.hbm.readBytes _ _ = b
      rw [mem]
      exact Memory.readBytes_writeBytes_self (Mems.wf_hbm wf) _ b
    · rw [mem]
      exact Memory.read_writeBytes_outside (Mems.wf_hbm wf) _ b a ha
  · exact ⟨_, congrArg Host.Outcome.next (endFill_of_failed_first (s := s.arrive t) [] fill here first), rfl, rfl, rfl⟩
  · obtain ⟨none, entry, newest⟩ := failFill_effect (s := s.arrive t) (f := f) (d := d)
      (if d.fromWindow then 0x2908 else 0x2904) here
    refine ⟨_, congrArg Host.Outcome.next (endFill_of_failed_again (s := s.arrive t) [] fill here again), none, entry,
      fun window => ?_, fun store phase => ?_⟩
    · exact (newest (.inr window)).trans (by rw [window]; rfl)
    · exact (newest (.inl phase)).trans (by rw [store]; rfl)

end Sys2Proof.Machine
end

section
/-! PROOFS. Media (R297 to R307): the access unit and the decoded picture that their engine has staged. -/

namespace Sys2Proof.Machine

set_option Elab.async false

/-! ### Streams and frames -/

theorem lt_length_of_busy {s : State} {n : Nat} {x : Nat × Nat} (h : (s.stream n).busy = some x) :
    n < s.media.streams.length := by
  refine Decidable.byContradiction fun beyond => ?_
  rw [State.stream, getD_of_length_le (Nat.le_of_not_lt beyond)] at h
  exact nomatch h

theorem State.stream_setStream_same {s : State} {n : Nat} (h : n < s.media.streams.length) (x : Stream) :
    (s.setStream n x).stream n = x := by
  rw [State.stream, State.setStream]
  simp only [List.getD_eq_getElem?_getD, List.getElem?_set_self h, Option.getD_some]

theorem State.stream_setStream_ne {s : State} {n m : Nat} (ne : m ≠ n) (x : Stream) :
    (s.setStream n x).stream m = s.stream m := by
  rw [State.stream, State.setStream]
  simp only [List.getD_eq_getElem?_getD, List.getElem?_set_ne ne.symm, State.stream]

theorem stream_of_streams {s u : State} (h : u.media.streams = s.media.streams) (m : Nat) : u.stream m = s.stream m := by
  rw [State.stream, h, State.stream]

theorem mem_setFrame {s : State} {f : Frame} (hf : f ∈ s.job.frames) {number : Nat} (hn : f.number = number)
    (g : Frame → Frame) : g f ∈ (s.setFrame number g).job.frames :=
  List.mem_map.mpr ⟨f, hf, if_pos (beq_iff_eq.mpr hn)⟩

/-! ### The encode that follows -/

/-- What the stream of entry `n` and the frame buffers hold apart, `u` has the media of `s`. -/
def StreamOnly (n : Nat) (s u : State) : Prop :=
  (∀ m, m ≠ n → u.stream m = s.stream m) ∧ u.media.streams.length = s.media.streams.length
    ∧ u.media.keyframes = s.media.keyframes ∧ u.media.capped = s.media.capped ∧ u.media.damaged = s.media.damaged

theorem beginEncode_shape (n number k : Nat) (s : State) :
    ∃ (c : Nat) (u : State) (y : Stream), beginEncode n number k s = allocate n c (u.setStream n y) ∧ Touches [.tier] s u
      ∧ y.busy = some (number, k) ∧ y.queue = (s.stream n).queue := by
  unfold beginEncode State.free
  dsimp only
  refine ⟨_, _, _, rfl, .foldl (fun _ _ => (chargeHbm_touches ..).mono) (State.free_touches s).mono, rfl, ?_⟩
  split <;> rfl

theorem allocate_shape (n count : Nat) (s : State) :
    ∃ bs, allocate n count s = { s with media := { s.media with buffers := bs } } := by
  unfold allocate
  exact ⟨_, rfl⟩

theorem beginEncode_effect {n : Nat} {s : State} (h : n < s.media.streams.length) (number k : Nat) :
    ((beginEncode n number k s).stream n).busy = some (number, k)
      ∧ ((beginEncode n number k s).stream n).queue = (s.stream n).queue
      ∧ StreamOnly n s (beginEncode n number k s) := by
  obtain ⟨c, u, y, begun, charged, busy, queue⟩ := beginEncode_shape n number k s
  have media : u.media = s.media := charged.media_eq
  have h' : n < u.media.streams.length := media ▸ h
  obtain ⟨bs, allocated⟩ := allocate_shape n c (u.setStream n y)
  rw [begun, allocated]
  have same (m : Nat) : State.stream { u.setStream n y with media := { (u.setStream n y).media with buffers := bs } } m
      = (u.setStream n y).stream m := stream_of_streams rfl m
  refine ⟨?_, ?_, fun m ne => ?_, ?_, congrArg (·.keyframes) media, congrArg (·.capped) media, congrArg (·.damaged) media⟩
  · rw [same, State.stream_setStream_same h', busy]
  · rw [same, State.stream_setStream_same h', queue]
  · rw [same, State.stream_setStream_ne ne]
    exact stream_of_streams (congrArg (·.streams) media) m
  · exact List.length_set.trans (congrArg (·.streams.length) media)

theorem StreamOnly.refl (n : Nat) (s : State) : StreamOnly n s s := ⟨fun _ _ => rfl, rfl, rfl, rfl, rfl⟩

theorem StreamOnly.of_media {n : Nat} {s u v : State} (h : StreamOnly n s u) (media : u.media = v.media) :
    StreamOnly n s v := by
  unfold StreamOnly State.stream at *
  rwa [media] at h

theorem StreamOnly.trans {n : Nat} {s u v : State} (h : StreamOnly n s u) (k : StreamOnly n u v) : StreamOnly n s v := by
  obtain ⟨streams, length, keyframes, capped, damaged⟩ := h
  obtain ⟨streams', length', keyframes', capped', damaged'⟩ := k
  exact ⟨fun m ne => (streams' m ne).trans (streams m ne), length'.trans length, keyframes'.trans keyframes,
    capped'.trans capped, damaged'.trans damaged⟩

theorem setStream_only (n : Nat) (x : Stream) (s : State) : StreamOnly n s (s.setStream n x) :=
  ⟨fun _ ne => State.stream_setStream_ne ne x, List.length_set, rfl, rfl, rfl⟩

theorem nextEncode_of_none {n : Nat} {s : State} (h : (s.stream n).queue = []) : nextEncode n s = s := by
  rw [nextEncode, h]

theorem nextEncode_of_waiting {n : Nat} {s : State} (h : n < s.media.streams.length) {q : Nat × Nat}
    {rest : List (Nat × Nat)} (hq : (s.stream n).queue = q :: rest) :
    ((nextEncode n s).stream n).busy = some q ∧ ((nextEncode n s).stream n).queue = rest
      ∧ StreamOnly n s (nextEncode n s) := by
  have next : nextEncode n s = beginEncode n q.1 q.2 (s.setStream n { s.stream n with queue := rest }) := by
    rw [nextEncode, hq]
  have h' : n < (s.setStream n { s.stream n with queue := rest }).media.streams.length := by
    rwa [(setStream_only n _ s).2.1]
  obtain ⟨busy, queue, only⟩ := beginEncode_effect h' q.1 q.2
  rw [next]
  refine ⟨busy, queue.trans ?_, (setStream_only n _ s).trans only⟩
  rw [State.stream_setStream_same h]

theorem nextEncode_only {n : Nat} {s : State} (h : n < s.media.streams.length) : StreamOnly n s (nextEncode n s) := by
  cases hq : (s.stream n).queue with
  | nil => exact (StreamOnly.refl n s).of_media (congrArg _ (nextEncode_of_none hq).symm)
  | cons q rest => exact (nextEncode_of_waiting h hq).2.2

/-! ### The unit that is staged -/

/-- The stream of entry `n` once its unit is staged. -/
def streamStaged (n : Nat) (enc : Encoded) (s : State) : Stream :=
  let x := s.stream n
  let b := 8 * enc.unit.length
  { x with
    busy := none, out := none, fullness := max 0 (x.fullness + (b : Int) - (drainBits (mediaEntry s n) s.tick.tp : Int)),
    lastQp := x.q0, lastBits := b, prevKey := x.key, capped := enc.capped, rowQp := enc.rowQp,
    sinceKey := some (if x.key then 0 else (x.sinceKey.getD 0) + 1) }

/-- The samples and the motion field of the unit of entry `n` stand in the current buffers of its stream. -/
def samplesStored (n : Nat) (enc : Encoded) (s : State) : State :=
  storeFrame (buffersWhere s fun u => u.stream == n && u.current) enc.samples enc.motion s

/-- The frame and the stream of entry `n` hold the unit, and the counters count it. -/
def unitJoined (n number : Nat) (enc : Encoded) (s : State) : State :=
  let v := commitRefs n (meRefs (mediaEntry s n)) (s.stream n).key
    ((samplesStored n enc s).setStream n (streamStaged n enc s))
  State.setFrame { v with media := { v.media with
      keyframes := v.media.keyframes + bitOf (s.stream n).key, capped := v.media.capped + bitOf enc.capped } } number fun f =>
    { f with units := f.units ++ [⟨n, (s.stream n).key, enc.capped, enc.unit⟩],
             flags := { f.flags with capped := f.flags.capped || enc.capped } }

theorem stageUnit_of_out {n number k : Nat} {enc : Encoded} {s : State} (encoder : isEncoder s n = true)
    (busy : (s.stream n).busy = some (number, k)) (out : (s.stream n).out = some enc) :
    stageUnit n s = nextEncode n (if enc.capped then raise 0x7904 number (unitJoined n number enc s)
      else unitJoined n number enc s) := by
  simp only [stageUnit, busy, out, encoder, Bool.not_true, Bool.false_eq_true, if_false]
  rfl

theorem unitJoined_stream {n : Nat} {s : State} (h : n < s.media.streams.length) (number : Nat) (enc : Encoded) :
    (unitJoined n number enc s).stream n = streamStaged n enc s := by
  have media : (samplesStored n enc s).media = s.media := (storeFrame_touches ..).media_eq
  exact State.stream_setStream_same (media ▸ h : n < (samplesStored n enc s).media.streams.length) _

theorem unitJoined_stream_ne {n m : Nat} (ne : m ≠ n) (number : Nat) (enc : Encoded) (s : State) :
    (unitJoined n number enc s).stream m = s.stream m := by
  have media : (samplesStored n enc s).media = s.media := (storeFrame_touches ..).media_eq
  exact (State.stream_setStream_ne ne (streamStaged n enc s)).trans (stream_of_streams (congrArg (·.streams) media) m)

theorem unitJoined_media (n number : Nat) (enc : Encoded) (s : State) :
    (unitJoined n number enc s).media.streams.length = s.media.streams.length
      ∧ (unitJoined n number enc s).media.keyframes = s.media.keyframes + bitOf (s.stream n).key
      ∧ (unitJoined n number enc s).media.capped = s.media.capped + bitOf enc.capped := by
  have media : (samplesStored n enc s).media = s.media := (storeFrame_touches ..).media_eq
  have keyframes : (samplesStored n enc s).media.keyframes = s.media.keyframes := congrArg (·.keyframes) media
  have capped : (samplesStored n enc s).media.capped = s.media.capped := congrArg (·.capped) media
  exact ⟨List.length_set.trans (congrArg (·.streams.length) media), congrArg (· + bitOf (s.stream n).key) keyframes,
    congrArg (· + bitOf enc.capped) capped⟩

theorem unitJoined_frames {n number : Nat} {enc : Encoded} {s : State} {f : Frame} (hf : f ∈ s.job.frames)
    (hn : f.number = number) :
    { f with units := f.units ++ [⟨n, (s.stream n).key, enc.capped, enc.unit⟩],
             flags := { f.flags with capped := f.flags.capped || enc.capped } }
      ∈ (unitJoined n number enc s).job.frames := by
  have job : (samplesStored n enc s).job = s.job := (storeFrame_touches ..).job_eq
  exact mem_setFrame (job.symm ▸ hf) hn _

theorem unitJoined_mem (n number : Nat) (enc : Encoded) (s : State) :
    (unitJoined n number enc s).mem = (samplesStored n enc s).mem := rfl

/-- R297, R298, R303: the unit of entry `n` is staged. -/
theorem stageUnit_effect {n number k : Nat} {enc : Encoded} {s : State} (encoder : isEncoder s n = true)
    (busy : (s.stream n).busy = some (number, k)) (out : (s.stream n).out = some enc) :
    let u := stageUnit n s
    (∀ f ∈ s.job.frames, f.number = number → { f with
        units := f.units ++ [⟨n, (s.stream n).key, enc.capped, enc.unit⟩],
        flags := { f.flags with capped := f.flags.capped || enc.capped } } ∈ u.job.frames)
    ∧ u.media.keyframes = s.media.keyframes + bitOf (s.stream n).key ∧ u.media.capped = s.media.capped + bitOf enc.capped
    ∧ (enc.capped = true → u.newest = some 0x7904)
    ∧ (∀ sp, sp ≠ .host → u.mem.get sp = (samplesStored n enc s).mem.get sp)
    ∧ ((s.stream n).queue = [] → u.stream n = streamStaged n enc s)
    ∧ (∀ q rest, (s.stream n).queue = q :: rest → (u.stream n).busy = some q ∧ (u.stream n).queue = rest)
    ∧ ∀ m, m ≠ n → u.stream m = s.stream m := by
  intro u
  let w := if enc.capped then raise 0x7904 number (unitJoined n number enc s) else unitJoined n number enc s
  have staged : u = nextEncode n w := stageUnit_of_out encoder busy out
  have reported : Touches [.code, .host] (unitJoined n number enc s) w := by
    unfold w
    split
    · exact raise_touches ..
    · exact .refl ..
  have newest (capped : enc.capped = true) : w.newest = some 0x7904 := by
    simp only [w, capped, if_true]
    exact raise_newest ..
  clear_value w
  have lt := lt_length_of_busy busy
  have media : w.media = (unitJoined n number enc s).media := reported.media_eq
  have stream (m : Nat) : w.stream m = (unitJoined n number enc s).stream m :=
    stream_of_streams (congrArg (·.streams) media) m
  have own : w.stream n = streamStaged n enc s := (stream n).trans (unitJoined_stream lt ..)
  obtain ⟨length, keyframes, capped⟩ := unitJoined_media n number enc s
  have lt' : n < w.media.streams.length := by rwa [media, length]
  obtain ⟨streams, -, keyframes', capped', -⟩ := nextEncode_only lt'
  have next : Touches [.tier, .media] w (nextEncode n w) := nextEncode_touches n w
  rw [staged]
  refine ⟨fun f hf hn => ?_, ?_, ?_, fun c => ?_, fun sp ne => ?_, fun idle => ?_, fun q rest waiting => ?_, fun m ne => ?_⟩
  · rw [next.job_eq]
    exact (reported.same .frames (by decide)).symm ▸ unitJoined_frames hf hn
  · rw [keyframes', media, keyframes]
  · rw [capped', media, capped]
  · rw [State.newest, next.host_eq]
    exact newest c
  · rw [next.mem_eq sp ne, reported.mem_eq sp ne, unitJoined_mem]
  · rw [nextEncode_of_none, own]
    rw [own]
    exact idle
  · obtain ⟨busy', queue', -⟩ := nextEncode_of_waiting lt' ((congrArg (·.queue) own).trans waiting)
    exact ⟨busy', queue'⟩
  · rw [streams m ne, stream, unitJoined_stream_ne ne]

/-! ### The picture that is staged -/

/-- R306, R308: what a decoded picture says of its stream and its frame, from a state in which its samples stand. -/
def pictureNoted (n number : Nat) (r : Decoded × Bool × Bool) (s : State) : State :=
  pictureStaged n number r.2.1 (s.setStream n { s.stream n with resync := r.2.2 })

theorem pictureNoted_stream {n : Nat} {s : State} (h : n < s.media.streams.length) (number : Nat)
    (r : Decoded × Bool × Bool) :
    let x := (pictureNoted n number r s).stream n
    x.busy = none ∧ x.staged = true ∧ x.stagedDamaged = r.2.1 := by
  have h' : n < (s.setStream n { s.stream n with resync := r.2.2 }).media.streams.length := by
    rwa [(setStream_only n _ s).2.1]
  have own : (pictureNoted n number r s).stream n
      = { (s.setStream n { s.stream n with resync := r.2.2 }).stream n with
          busy := none, staged := true, stagedDamaged := r.2.1 } := by
    unfold pictureNoted pictureStaged
    split <;> exact State.stream_setStream_same h' _
  intro x
  rw [show x = _ from own]
  exact ⟨rfl, rfl, rfl⟩

theorem pictureNoted_damaged (n number : Nat) (r : Decoded × Bool × Bool) (s : State) :
    (pictureNoted n number r s).media.damaged = s.media.damaged + bitOf r.2.1 := by
  unfold pictureNoted pictureStaged
  split <;> rfl

theorem pictureNoted_frames {n number : Nat} (r : Decoded × Bool × Bool) {s : State} {f : Frame} (hf : f ∈ s.job.frames)
    (hn : f.number = number) :
    ∃ g ∈ (pictureNoted n number r s).job.frames, g.number = number
      ∧ g.flags.damaged = (f.flags.damaged || r.2.1) ∧ g.units = f.units := by
  unfold pictureNoted pictureStaged
  split
  case isTrue damaged =>
    exact ⟨_, mem_setFrame hf hn _, hn, by rw [damaged, Bool.or_true], rfl⟩
  case isFalse whole =>
    exact ⟨f, hf, hn, by rw [Bool.eq_false_iff.mpr whole, Bool.or_false], rfl⟩

/-- R303 to R307: the picture that the engine of decode entry `n` has decoded is staged. -/
theorem stagePicture_effect {n number k : Nat} {s : State} (busy : (s.stream n).busy = some (number, k))
    (decodes : n ∈ decodeEntries s) :
    let p := decodePicture n number s
    let u := stagePicture n s
    (u.stream n).busy = none ∧ (u.stream n).staged = true ∧ (u.stream n).stagedDamaged = p.2.1
    ∧ u.media.damaged = s.media.damaged + bitOf p.2.1
    ∧ (∀ f ∈ s.job.frames, f.number = number → ∃ g ∈ u.job.frames, g.number = number
        ∧ g.flags.damaged = (f.flags.damaged || p.2.1) ∧ g.units = f.units)
    ∧ (∀ sp, sp ≠ .host → u.mem.get sp = (placePicture n k p.1 s).mem.get sp)
    ∧ (∀ c, p.1.error.code = some c → u.newest = some c) ∧ u.compute = s.compute := by
  intro p u
  have computed : u.compute = s.compute := (stagePicture_touches n s).compute_eq
  have staged : u = match p.1.error.code with
      | some c => raise c number (pictureNoted n number p (placePicture n k p.1 s))
      | none => pictureNoted n number p (placePicture n k p.1 s) := by
    have entry : (decodeEntries s).contains n = true := List.contains_iff_mem.mpr decodes
    unfold u stagePicture
    simp only [busy, entry, Bool.not_true, Bool.false_eq_true, if_false]
    rfl
  have reported : Touches [.code, .host] (pictureNoted n number p (placePicture n k p.1 s)) u := by
    rw [staged]
    split
    · exact raise_touches ..
    · exact .refl ..
  have newest (c : Nat) (hc : p.1.error.code = some c) : u.newest = some c := by
    rw [staged, hc]
    exact raise_newest ..
  have placed : Touches [.mem, .tier, .host] s (placePicture n k p.1 s) := placePicture_touches ..
  clear_value u p
  have lt : n < (placePicture n k p.1 s).media.streams.length := placed.media_eq.symm ▸ lt_length_of_busy busy
  have stream : u.stream n = (pictureNoted n number p (placePicture n k p.1 s)).stream n :=
    stream_of_streams (congrArg (·.streams) reported.media_eq) n
  obtain ⟨idle, ready, flag⟩ := pictureNoted_stream lt number p
  have noted : Touches [.frames, .media] (placePicture n k p.1 s) (pictureNoted n number p (placePicture n k p.1 s)) :=
    .via (pictureStaged_touches ..) (State.setStream_touches ..).mono
  refine ⟨stream ▸ idle, stream ▸ ready, stream ▸ flag, ?_, fun f hf hn => ?_, fun sp ne => ?_, newest, computed⟩
  · rw [reported.media_eq, pictureNoted_damaged, placed.media_eq]
  · have frames : u.job.frames = (pictureNoted n number p (placePicture n k p.1 s)).job.frames :=
      reported.same .frames (by decide)
    rw [frames]
    exact pictureNoted_frames p (placed.job_eq.symm ▸ hf) hn
  · rw [reported.mem_eq sp ne, noted.mem_eq sp ne]

/-! ### The obligation -/

theorem worksOn_iff (n frame tick : Nat) (s : State) :
    worksOn n frame tick s = true ↔ (s.stream n).busy = some (frame, tick) := by
  rw [worksOn, beq_iff_eq]

/-- Settles O50. -/
theorem mediaUnitsAndPicturesCommit : Obligations.MediaUnitsAndPicturesCommit := by
  unfold Obligations.MediaUnitsAndPicturesCommit
  intro t s n number k _ busy
  have busy' : ((s.arrive t).stream n).busy = some (number, k) := busy
  have works : worksOn n number k (s.arrive t) = true := (worksOn_iff ..).mpr busy'
  refine ⟨fun enc encoder out => ?_, fun decodes => ?_, fun frame tick set other => ?_⟩
  · obtain ⟨frames, keyframes, capped, newest, mem, idle, next, others⟩ :=
      stageUnit_effect (s := s.arrive t) encoder busy' out
    have hr : exec (.accessUnitStaged t n number k) s = .next (stageUnit n (s.arrive t)) :=
      congrArg Host.Outcome.next (if_pos works)
    refine ⟨_, hr, frames, keyframes, capped, newest, mem, fun empty => ?_, next, others⟩
    rw [idle empty]
    exact ⟨rfl, rfl, rfl⟩
  · have hr : exec (.decodedPictureStaged t n number k (k % 2)) s = .next (stagePicture n (s.arrive t)) := by
      refine congrArg Host.Outcome.next (if_pos ?_)
      rw [works, beq_self_eq_true, Bool.and_true]
    exact ⟨_, hr, stagePicture_effect (s := s.arrive t) busy' decodes⟩
  · have idle : worksOn n frame tick (s.arrive t) = false := by
      rw [Bool.eq_false_iff, ne_eq, worksOn_iff, busy', Option.some.injEq]
      exact fun same => other same.symm
    refine ⟨congrArg Host.Outcome.next (if_neg ?_), congrArg Host.Outcome.next (if_neg ?_)⟩
    · exact Bool.eq_false_iff.mp idle
    · rw [idle, Bool.false_and]
      exact Bool.false_ne_true

end Sys2Proof.Machine
end

section
/-! PROOFS. Ports and flits: what sending and hearing a flit leave of a port, and the acceptance of flits in order (R318 to
R320). -/

namespace Sys2Proof.Machine

set_option Elab.async false

/-! ### What a port is, apart from the flits that it carries -/

/-- A port without its traffic: its buffers, counters and credits, and the place of its decoder. -/
def Port.stand (p : Port) : Port :=
  { p with corrected := 0, retried := 0, nextSeq := 0, replay := [], retrans := [], waiting := [], ackAt := none, out := [],
           beat := 0, bad := false, codewords := 0, dataCredits := 0, ctrlCredits := 0 }

def State.withPorts (s : State) (ps : List Port) : State := { s with link := { s.link with ports := ps } }

/-- From one state to another only the traffic of the ports has moved. -/
def Carries (s u : State) : Prop := ∃ ps, u = s.withPorts ps ∧ ps.map Port.stand = s.link.ports.map Port.stand

theorem map_set_of_getD {β : Type} (g : Port → β) {l : List Port} {n : Nat} {p : Port} (h : g p = g (l.getD n {})) :
    (l.set n p).map g = l.map g := by
  refine List.ext_getElem? fun i => ?_
  rw [List.map_set, h, List.getElem?_set]
  split
  case isTrue same =>
    subst same
    split
    case isTrue lt =>
      rw [List.length_map] at lt
      simp only [List.getD_eq_getElem?_getD, List.getElem?_map, List.getElem?_eq_getElem lt, Option.map_some,
        Option.getD_some]
    case isFalse beyond => rw [List.getElem?_eq_none (Nat.le_of_not_lt beyond)]
  case isFalse => rfl

namespace Carries

variable {s u v : State}

theorem refl (s : State) : Carries s s := ⟨s.link.ports, rfl, rfl⟩

theorem trans (h : Carries s u) (k : Carries u v) : Carries s v := by
  obtain ⟨ps, rfl, stand⟩ := h
  obtain ⟨qs, rfl, stand'⟩ := k
  exact ⟨qs, rfl, stand'.trans stand⟩

theorem only (h : Carries s u) : u = s.withPorts u.link.ports := by
  obtain ⟨ps, rfl, -⟩ := h
  rfl

theorem length (h : Carries s u) : u.link.ports.length = s.link.ports.length := by
  obtain ⟨ps, rfl, stand⟩ := h
  have same := congrArg List.length stand
  rwa [List.length_map, List.length_map] at same

theorem port (h : Carries s u) (n : Nat) : (u.port n).stand = (s.port n).stand := by
  obtain ⟨ps, rfl, stand⟩ := h
  have same := congrArg (·.getD n (Port.stand {})) stand
  rwa [getD_map, getD_map] at same

theorem phase (h : Carries s u) (n : Nat) : (u.port n).phase = (s.port n).phase := congrArg (·.phase) (h.port n)

theorem lastSeq (h : Carries s u) (n : Nat) : (u.port n).lastSeq = (s.port n).lastSeq := congrArg (·.lastSeq) (h.port n)

theorem portUp (h : Carries s u) (n : Nat) : portUp u n = portUp s n := by
  rw [Machine.portUp, h.phase, Machine.portUp]

theorem setPort {n : Nat} {p : Port} (s : State) (h : p.stand = (s.port n).stand) : Carries s (s.setPort n p) :=
  ⟨s.link.ports.set n p, rfl, map_set_of_getD Port.stand h⟩

theorem foldl {α : Type} {f : State → α → State} (hf : ∀ s a, Carries s (f s a)) (l : List α) (s : State) :
    Carries s (l.foldl f s) :=
  List.foldlRecOn l f (refl s) fun u hu a _ => hu.trans (hf u a)

theorem foldl_from {α : Type} {f : State → α → State} (h : Carries s u) (hf : ∀ s a, Carries s (f s a)) (l : List α) :
    Carries s (l.foldl f u) := h.trans (.foldl hf l u)

end Carries

theorem State.port_setPort_same {s : State} {n : Nat} (h : n < s.link.ports.length) (p : Port) :
    (s.setPort n p).port n = p := by
  rw [State.port, State.setPort]
  simp only [List.getD_eq_getElem?_getD, List.getElem?_set_self h, Option.getD_some]

theorem State.port_setPort_ne {s : State} {n m : Nat} (ne : m ≠ n) (p : Port) : (s.setPort n p).port m = s.port m := by
  rw [State.port, State.setPort]
  simp only [List.getD_eq_getElem?_getD, List.getElem?_set_ne ne.symm, State.port]

/-! ### Sending -/

@[simp] theorem Port.emit_stand (p : Port) (fs : List Bytes) : (p.emit fs).stand = p.stand := by
  unfold Port.emit
  generalize (p.out ++ fs).drop _ = out
  rfl

@[simp] theorem Port.acked_stand (p : Port) (ack : Nat) (now : Time) : (p.acked ack now).stand = p.stand := by
  unfold Port.acked
  split <;> rfl

@[simp] theorem Port.resend_stand (p : Port) : p.resend.stand = p.stand := by
  unfold Port.resend
  rw [Port.emit_stand]
  rfl

@[simp] theorem Port.decode_stand (p : Port) (errors : Nat) : (p.decode errors).2.stand = p.stand := by
  unfold Port.decode
  dsimp only
  split <;> rfl

theorem pumpPort_stand (fuel : Nat) (p : Port) (left : List Waiting) : (pumpPort fuel p left).1.stand = p.stand := by
  induction fuel generalizing p left with
  | zero => rfl
  | succ fuel ih =>
    unfold pumpPort
    split
    · rfl
    · dsimp only
      split
      · rfl
      · exact (ih ..).trans (Port.emit_stand ..)

theorem sendPlain_carries (port kind : Nat) (nak : Bool) (credD credC : Nat) (body : Bytes) (s : State) :
    Carries s (sendPlain port kind nak credD credC body s) := .setPort s (Port.emit_stand ..)

theorem returnCredit_carries (port : Nat) (control : Bool) (s : State) : Carries s (returnCredit port control s) :=
  sendPlain_carries ..

theorem pump_carries (port : Nat) (s : State) : Carries s (pump port s) := by
  unfold pump
  refine .foldl_from (.setPort s (pumpPort_stand ..)) (fun u w => ?_) _
  split
  · exact returnCredit_carries ..
  · exact .refl u

theorem sendOn_carries (port : Nat) (w : Waiting) (s : State) : Carries s (sendOn port w s) := by
  unfold sendOn
  refine .trans (.setPort s ?_) (pump_carries ..)
  rfl

theorem sendControl_carries (forward : Bool) (origin : Option Nat) (body : Bytes) (s : State) :
    Carries s (sendControl forward origin body s) := sendOn_carries ..

theorem hear_carries (n errors : Nat) (f : Bytes) (s : State) : Carries s (hear n errors f s).2 :=
  .setPort s (Port.decode_stand ..)

/-! ### The header of a flit -/

theorem mem_retrans_acked {p : Port} {ack : Nat} {now : Time} {r : Nat} (h : r ∈ (p.acked ack now).retrans) :
    r ∈ p.retrans := by
  unfold Port.acked at h
  split at h
  · exact List.mem_of_mem_drop h
  · exact h

/-- A port after the acknowledgement and the credits of a flit, not yet sending. -/
def Port.credited (p : Port) (f : Bytes) (now : Time) : Port :=
  let q := p.acked (flitAck f) now
  { q with dataCredits := min 224 (q.dataCredits + flitCredD f), ctrlCredits := min 32 (q.ctrlCredits + flitCredC f) }

theorem Port.credited_stand (p : Port) (f : Bytes) (now : Time) : (p.credited f now).stand = p.stand :=
  Port.acked_stand p (flitAck f) now

theorem takeHeader_of_noNak {n : Nat} {f : Bytes} {s : State} (nak : flitNak f = false)
    (few : ∀ r ∈ (s.port n).retrans, r < 8) :
    takeHeader n f s = pump n (s.setPort n ((s.port n).credited f s.now)) := by
  have stays : ((s.port n).credited f s.now).retrans.any (8 ≤ ·) = false := by
    refine List.any_eq_false.mpr fun r hr => ?_
    simpa only [decide_eq_true_eq, Nat.not_le] using few r (mem_retrans_acked hr)
  unfold takeHeader
  simp only [nak, Bool.false_eq_true, if_false]
  exact if_neg (Bool.eq_false_iff.mp stays)

theorem takeHeader_carries {n : Nat} {f : Bytes} {s : State} (nak : flitNak f = false)
    (few : ∀ r ∈ (s.port n).retrans, r < 8) : Carries s (takeHeader n f s) := by
  rw [takeHeader_of_noNak nak few]
  exact (Carries.setPort s (Port.credited_stand ..)).trans (pump_carries ..)

/-! ### The flits that a port makes -/

/-- The link header (Table 12.3). -/
theorem le_flitOf {kind credD credC : Nat} (seq ack : Nat) (control nak : Bool) (body : Bytes) (hk : kind < 4)
    (hd : credD < 256) (hc : credC < 256) :
    le (flitOf kind seq ack control nak credD credC body) 0 8 = seq % 4096 + 2 ^ 12 * (ack % 4096) + 2 ^ 24 * bitOf nak
      + 2 ^ 25 * bitOf control + 2 ^ 26 * kind + 2 ^ 32 * credD + 2 ^ 40 * credC := by
  have n1 : bitOf nak ≤ 1 := by cases nak <;> decide
  have c1 : bitOf control ≤ 1 := by cases control <;> decide
  unfold flitOf
  rw [List.append_assoc, List.append_assoc]
  refine le_append_toLe (p := []) rfl ?_
  omega

theorem flitAck_flitOf {kind credD credC : Nat} (seq ack : Nat) (control nak : Bool) (body : Bytes) (hk : kind < 4)
    (hd : credD < 256) (hc : credC < 256) :
    flitAck (flitOf kind seq ack control nak credD credC body) = ack % 4096 := by
  rw [flitAck, bits, le_flitOf _ _ _ _ _ hk hd hc, Nat.shiftRight_eq_div_pow]
  omega

theorem flitKind_flitOf {kind credD credC : Nat} (seq ack : Nat) (control nak : Bool) (body : Bytes) (hk : kind < 4)
    (hd : credD < 256) (hc : credC < 256) :
    flitKind (flitOf kind seq ack control nak credD credC body) = kind := by
  have n1 : bitOf nak ≤ 1 := by cases nak <;> decide
  have c1 : bitOf control ≤ 1 := by cases control <;> decide
  rw [flitKind, bits, le_flitOf _ _ _ _ _ hk hd hc, Nat.shiftRight_eq_div_pow]
  omega

theorem flitNak_flitOf {kind credD credC : Nat} (seq ack : Nat) (control nak : Bool) (body : Bytes) (hk : kind < 4)
    (hd : credD < 256) (hc : credC < 256) :
    flitNak (flitOf kind seq ack control nak credD credC body) = nak := by
  have c1 : bitOf control ≤ 1 := by cases control <;> decide
  rw [flitNak, bitAt, le_flitOf _ _ _ _ _ hk hd hc, Nat.testBit_eq_decide_div_mod_eq]
  cases nak
  · exact decide_eq_false (by rw [show bitOf false = 0 from rfl]; omega)
  · exact decide_eq_true (by rw [show bitOf true = 1 from rfl]; omega)

theorem Port.getLast?_emit (p : Port) (f : Bytes) : (p.emit [f]).out.getLast? = some f := by
  unfold Port.emit
  rw [List.getLast?_drop, if_neg, List.getLast?_concat]
  rw [List.length_append, List.length_singleton]
  omega

/-! ### Receiving -/

theorem lt_of_portUp {s : State} {n : Nat} (up : portUp s n = true) : n < 4 := by
  rw [portUp, Bool.and_eq_true, decide_eq_true_eq] at up
  exact up.1

theorem ports_length {s : State} (shaped : s.shaped) : s.link.ports.length = 4 := by
  obtain ⟨-, -, -, ports, -⟩ := shaped
  exact ports

theorem hear_port {s : State} {n : Nat} (lt : n < s.link.ports.length) (errors : Nat) (f : Bytes) :
    (hear n errors f s).2.port n = ((s.port n).decode errors).2 := State.port_setPort_same lt _

theorem Port.decode_retrans (p : Port) (errors : Nat) : (p.decode errors).2.retrans = p.retrans := by
  unfold Port.decode
  dsimp only
  split <;> rfl

/-- The state once the header of a flit that passed the decoder is taken. -/
def headed (n errors : Nat) (f : Bytes) (s : State) : State := takeHeader n f (hear n errors f s).2

theorem headed_carries {n : Nat} {s : State} (lt : n < s.link.ports.length) (errors : Nat) {f : Bytes}
    (nak : flitNak f = false) (few : ∀ r ∈ (s.port n).retrans, r < 8) : Carries s (headed n errors f s) := by
  refine (hear_carries ..).trans (takeHeader_carries nak ?_)
  rwa [hear_port lt, Port.decode_retrans]

theorem receive_of_bad {n errors : Nat} {f : Bytes} {s : State} (up : portUp s n = true)
    (bad : (hear n errors f s).1 = false) (op : Nat) (fwd : State → Bool) (act : State → State) :
    receive n op f errors fwd act s = sendPlain n 0 true 0 0 [] (hear n errors f s).2 := by
  unfold receive
  rw [up, Bool.not_true, if_neg Bool.false_ne_true]
  dsimp only
  rw [bad, Bool.not_false, if_pos rfl]

theorem receive_of_good {n errors op : Nat} {f : Bytes} {s : State} (up : portUp s n = true)
    (good : (hear n errors f s).1 = true) (kind : flitKind f = 1) (row : flitOp f = op)
    (stays : portUp (headed n errors f s) n = true) (fwd : State → Bool) (act : State → State) :
    let w := headed n errors f s
    receive n op f errors fwd act s = if flitSeq f != ((w.port n).lastSeq + 1) % 4096 then sendPlain n 0 true 0 0 [] w
      else deliverFlit n f fwd act (w.setPort n { w.port n with lastSeq := flitSeq f }) := by
  have asked : (flitKind f != 1 || flitOp f != op) = false := by
    rw [kind, row, bne_self_eq_false, bne_self_eq_false, Bool.or_self]
  intro w
  unfold receive
  rw [up, Bool.not_true, if_neg Bool.false_ne_true]
  dsimp only
  rw [good, Bool.not_true, if_neg Bool.false_ne_true, asked, if_neg Bool.false_ne_true]
  rw [show takeHeader n f (hear n errors f s).2 = w from rfl, show portUp w n = true from stays, Bool.not_true,
    if_neg Bool.false_ne_true]

theorem exec_of_arrivalOf {c : Instr} {a : Arrival} (h : arrivalOf c = some a) (s : State) :
    exec c s = .next (receive a.port a.op a.flit a.errors a.fwd a.act (s.arrive c.time)) := by
  cases c <;> cases h <;> rfl

/-- The state in which a flit that is the next one in order is accepted (R318). -/
def acceptedBy (a : Arrival) (s : State) : State :=
  let w := headed a.port a.errors a.flit s
  w.setPort a.port { w.port a.port with lastSeq := flitSeq a.flit }

/-- A flit that is heard, and finds the header free of NAK and of a flit resent eight times. -/
theorem receive_of_hears {a : Arrival} {s : State} (hears : s.hears a) (nak : flitNak a.flit = false)
    (few : ∀ r ∈ (s.port a.port).retrans, r < 8) :
    receive a.port a.op a.flit a.errors a.fwd a.act s
      = if flitSeq a.flit = ((s.port a.port).lastSeq + 1) % 4096 then deliverFlit a.port a.flit a.fwd a.act (acceptedBy a s)
        else sendPlain a.port 0 true 0 0 [] (headed a.port a.errors a.flit s) := by
  obtain ⟨shaped, up, good, kind, row⟩ := hears
  have carries := headed_carries (ports_length shaped ▸ lt_of_portUp up) a.errors nak few
  rw [receive_of_good up good kind row ((carries.portUp _).trans up), carries.lastSeq]
  simp only [bne_iff_ne, ne_eq, ite_not]
  rfl

theorem acceptedBy_lastSeq {a : Arrival} {s : State} (hears : s.hears a) (nak : flitNak a.flit = false)
    (few : ∀ r ∈ (s.port a.port).retrans, r < 8) : ((acceptedBy a s).port a.port).lastSeq = flitSeq a.flit := by
  obtain ⟨shaped, up, -⟩ := hears
  have lt : a.port < s.link.ports.length := ports_length shaped ▸ lt_of_portUp up
  have carries := headed_carries lt a.errors nak few
  exact congrArg (·.lastSeq) (State.port_setPort_same (carries.length.symm ▸ lt) _)

theorem acceptedBy_only {a : Arrival} {s : State} (hears : s.hears a) (nak : flitNak a.flit = false)
    (few : ∀ r ∈ (s.port a.port).retrans, r < 8) : ∃ ps, acceptedBy a s = s.withPorts ps := by
  obtain ⟨shaped, up, -⟩ := hears
  obtain ⟨ps, headed, -⟩ := headed_carries (ports_length shaped ▸ lt_of_portUp up) a.errors nak few
  unfold acceptedBy
  rw [headed]
  exact ⟨_, rfl⟩

/-! ### Flits in order -/

theorem sendPlain_flit {s : State} {n : Nat} (lt : n < s.link.ports.length) {kind credD credC : Nat} (nak : Bool)
    (body : Bytes) :
    ((sendPlain n kind nak credD credC body s).port n).out.getLast?
      = some (flitOf kind 0 (s.port n).lastSeq true nak credD credC body) := by
  unfold sendPlain
  rw [State.port_setPort_same lt, Port.getLast?_emit]

/-- R318: the flit that a port sends at once acknowledges the newest that it accepted. -/
theorem sendPlain_answers {s : State} {n : Nat} (lt : n < s.link.ports.length) {kind credD credC : Nat} (hk : kind < 4)
    (hd : credD < 256) (hc : credC < 256) (nak : Bool) (body : Bytes) :
    ∃ o, ((sendPlain n kind nak credD credC body s).port n).out.getLast? = some o
      ∧ flitAck o = (s.port n).lastSeq % 4096 ∧ flitNak o = nak :=
  ⟨_, sendPlain_flit lt nak body, flitAck_flitOf _ _ _ _ _ hk hd hc, flitNak_flitOf _ _ _ _ _ hk hd hc⟩

theorem flitSeq_lt (f : Bytes) : flitSeq f < 4096 := Nat.mod_lt _ (by decide)

/-- A refused flit is answered with NAK, and nothing else changes. -/
theorem sendPlain_nak {s w : State} (carries : Carries s w) {n : Nat} (lt : n < s.link.ports.length) :
    let u := sendPlain n 0 true 0 0 [] w
    ∃ o, (u.port n).out.getLast? = some o ∧ flitNak o = true ∧ flitAck o = (s.port n).lastSeq % 4096
      ∧ (u.port n).lastSeq = (s.port n).lastSeq ∧ u = s.withPorts u.link.ports := by
  obtain ⟨o, sent, ack, nak⟩ := sendPlain_answers (carries.length.symm ▸ lt) (kind := 0) (credD := 0) (credC := 0)
    (by decide) (by decide) (by decide) true []
  have all := carries.trans (sendPlain_carries n 0 true 0 0 [] w)
  exact ⟨o, sent, nak, ack.trans (congrArg (· % 4096) (carries.lastSeq n)), all.lastSeq n, all.only⟩

/-- Settles O51. -/
theorem flitsAreAcceptedInOrder : Obligations.FlitsAreAcceptedInOrder := by
  unfold Obligations.FlitsAreAcceptedInOrder
  intro c a s arrival shaped up
  have lt : a.port < s.link.ports.length := ports_length shaped ▸ lt_of_portUp up
  rw [exec_of_arrivalOf arrival]
  refine ⟨fun hears next nak few => ?_, fun refused => ?_⟩
  · have received := (receive_of_hears (s := s.arrive c.time) hears nak few).trans (if_pos next)
    obtain ⟨ps, only⟩ := acceptedBy_only (s := s.arrive c.time) hears nak few
    have lastSeq := acceptedBy_lastSeq (s := s.arrive c.time) hears nak few
    have length : (acceptedBy a (s.arrive c.time)).link.ports.length = s.link.ports.length :=
      List.length_set.trans (headed_carries (s := s.arrive c.time) lt a.errors nak few).length
    generalize acceptedBy a (s.arrive c.time) = v at received only lastSeq length
    have lt' : a.port < v.link.ports.length := length ▸ lt
    refine ⟨v, by rw [only]; rfl, lastSeq, ?_, ?_, ?_, ?_, ?_⟩
    · have answer {credD credC : Nat} (hd : credD < 256) (hc : credC < 256) :=
        sendPlain_answers lt' (kind := 0) (by decide) hd hc false []
      have answered : (v.port a.port).lastSeq % 4096 = flitSeq a.flit := by
        rw [lastSeq, Nat.mod_eq_of_lt (flitSeq_lt _)]
      have credit (b : Bool) : bitOf b < 256 := by cases b <;> decide
      intro w hw
      rw [List.mem_cons, List.mem_singleton] at hw
      obtain rfl | rfl := hw
      · obtain ⟨o, sent, ack, plain⟩ := answer (credit (!flitControl a.flit)) (credit (flitControl a.flit))
        exact ⟨o, sent, ack.trans answered, plain⟩
      · obtain ⟨o, sent, ack, plain⟩ := answer (credD := 0) (credC := 0) (by decide) (by decide)
        exact ⟨o, sent, ack.trans answered, plain⟩
    · intro one mine
      rw [received, deliverFlit, if_neg (mt beq_iff_eq.mp one), if_pos mine]
    · intro one other
      rw [received, deliverFlit, if_neg (mt beq_iff_eq.mp one), if_neg (Bool.eq_false_iff.mp other)]
    · intro every goes
      rw [received, deliverFlit, if_pos (beq_iff_eq.mpr every), if_pos goes]
    · intro every ends
      rw [received, deliverFlit, if_pos (beq_iff_eq.mpr every), if_neg (Bool.eq_false_iff.mp ends)]
  · obtain bad | ⟨hears, other, nak, few⟩ := refused
    · obtain ⟨o, answer⟩ := sendPlain_nak (hear_carries a.port a.errors a.flit (s.arrive c.time)) lt
      exact ⟨_, o, congrArg Host.Outcome.next (receive_of_bad (s := s.arrive c.time) up bad ..), answer⟩
    · have received := (receive_of_hears (s := s.arrive c.time) hears nak few).trans (if_neg other)
      obtain ⟨o, answer⟩ := sendPlain_nak (headed_carries (s := s.arrive c.time) lt a.errors nak few) lt
      exact ⟨_, o, congrArg Host.Outcome.next received, answer⟩

end Sys2Proof.Machine
end

section
/-! PROOFS. What the transaction flits do at the member that they are for: collectives, ticks, aborts, requests. -/

namespace Sys2Proof.Machine

set_option Elab.async false

/-! ### The state in which an accepted flit acts -/

/-- From one state to another flits have moved through the ports, whose hop delays stay. -/
def Relays (s u : State) : Prop :=
  ∃ ps ts, u = { s with link := { s.link with ports := ps, turns := ts } }
    ∧ ps.map Port.delayNs = s.link.ports.map Port.delayNs

namespace Relays

variable {s u v : State}

theorem trans (h : Relays s u) (k : Relays u v) : Relays s v := by
  obtain ⟨ps, ts, rfl, delay⟩ := h
  obtain ⟨qs, ts', rfl, delay'⟩ := k
  exact ⟨qs, ts', rfl, delay'.trans delay⟩

theorem of_carries (h : Carries s u) : Relays s u := by
  obtain ⟨ps, rfl, stand⟩ := h
  refine ⟨ps, s.link.turns, rfl, ?_⟩
  have same := congrArg (List.map Port.delayNs) stand
  rw [List.map_map, List.map_map] at same
  exact same

theorem delay (h : Relays s u) (n : Nat) : (u.port n).delayNs = (s.port n).delayNs := by
  obtain ⟨ps, ts, rfl, same⟩ := h
  have same := congrArg (·.getD n (Port.delayNs {})) same
  rwa [getD_map, getD_map] at same

end Relays

theorem sendData_relays (forward : Bool) (origin : Option Nat) (body : Bytes) (s : State) :
    Relays s (sendData forward origin body s) := by
  unfold sendData
  refine .trans ⟨s.link.ports, _, rfl, rfl⟩ (.of_carries (sendOn_carries ..))

theorem passOn_relays (n : Nat) (f : Bytes) (s : State) : Relays s (passOn n f s) := by
  unfold passOn
  extract_lets
  split
  · exact .of_carries (returnCredit_carries ..)
  · split
    · exact .of_carries (sendControl_carries ..)
    · exact sendData_relays ..

theorem acceptedBy_relays {a : Arrival} {s : State} (hears : s.hears a) (nak : flitNak a.flit = false)
    (few : ∀ r ∈ (s.port a.port).retrans, r < 8) : Relays s (acceptedBy a s) := by
  obtain ⟨shaped, up, -⟩ := hears
  have carries := headed_carries (ports_length shaped ▸ lt_of_portUp up) a.errors nak few
  exact (Relays.of_carries carries).trans ⟨_, _, rfl, map_set_of_getD Port.delayNs rfl⟩

/-- An accepted flit acts in a state in which only flits have moved. -/
theorem exec_of_accepts {c : Instr} {a : Arrival} (arrival : arrivalOf c = some a) {s : State} (accepts : s.accepts a) :
    ∃ w, Relays (s.arrive c.time) w ∧ exec c s = .next (a.act w) := by
  obtain ⟨hears, next, nak, few, mine⟩ := accepts
  have relays := acceptedBy_relays (s := s.arrive c.time) hears nak few
  have received := (receive_of_hears (s := s.arrive c.time) hears nak few).trans (if_pos next)
  have forMe' : forMe (acceptedBy a (s.arrive c.time)) a.flit = true := by
    obtain ⟨ps, ts, only, -⟩ := relays
    rw [only]
    exact mine
  generalize acceptedBy a (s.arrive c.time) = v at relays received forMe'
  rw [exec_of_arrivalOf arrival, received, deliverFlit]
  split
  · refine ⟨_, ?_, rfl⟩
    split
    · exact relays.trans (.trans (.of_carries (sendPlain_carries ..)) (passOn_relays ..))
    · exact relays.trans (.of_carries (returnCredit_carries ..))
  · exact ⟨_, relays.trans (.of_carries (returnCredit_carries ..)), rfl⟩

/-! ### Transfers of a collective -/

/-- What tells one transfer from another: the other member, the command and the tick. -/
def Transfer.key (x : Transfer) : Nat × Nat × Nat := (x.source, x.index, x.tick)

/-- What a transfer has received. -/
def Transfer.got (x : Transfer) : Bool × List (Nat × Bytes) × List (Nat × Bytes) × Bool :=
  (x.cleared, x.part, x.data, x.done)

/-- A transfer of a key stands, and whatever one of that key has received satisfies a property. -/
def Holds (K : Nat × Nat × Nat) (Q : Bool × List (Nat × Bytes) × List (Nat × Bytes) × Bool → Prop) (s : State) : Prop :=
  (∃ x ∈ s.link.transfers, x.key = K) ∧ ∀ x ∈ s.link.transfers, x.key = K → Q x.got

section
variable {K : Nat × Nat × Nat} {Q : Bool × List (Nat × Bytes) × List (Nat × Bytes) × Bool → Prop} {s u : State}

theorem Holds.of_exchange (h : Holds K Q s) (same : u.exchange = s.exchange) : Holds K Q u := by
  have transfers : u.link.transfers = s.link.transfers := congrArg (·.transfers) same
  rwa [Holds, transfers]

theorem Holds.of_touches {ps : List Part} (h : Holds K Q s) (same : Touches ps s u) (hp : Part.link ∉ ps := by decide) :
    Holds K Q u := h.of_exchange (by rw [State.exchange, same.link_eq hp, State.exchange])

theorem mem_setTransfer {x t : Transfer} :
    x ∈ (setTransfer t s).link.transfers ↔ (x ∈ s.link.transfers ∧ x.key ≠ t.key) ∨ x = t := by
  rw [setTransfer]
  simp only [List.mem_append, List.mem_filter, List.mem_singleton, Transfer.key, ne_eq, Prod.mk.injEq, Bool.not_eq_true',
    Bool.and_eq_false_imp, Bool.and_eq_true, beq_iff_eq, beq_eq_false_iff_ne, not_and, and_imp]

theorem holds_setTransfer_self {t : Transfer} (key : t.key = K) (ht : Q t.got) : Holds K Q (setTransfer t s) := by
  refine ⟨⟨t, mem_setTransfer.mpr (.inr rfl), key⟩, fun x hx xkey => ?_⟩
  obtain ⟨-, ne⟩ | rfl := mem_setTransfer.mp hx
  · exact absurd (xkey.trans key.symm) ne
  · exact ht

theorem Holds.setTransfer (h : Holds K Q s) {t : Transfer} (ht : t.key = K → Q t.got) : Holds K Q (setTransfer t s) := by
  by_cases key : t.key = K
  · exact holds_setTransfer_self key (ht key)
  · obtain ⟨⟨x, hx, xkey⟩, all⟩ := h
    refine ⟨⟨x, mem_setTransfer.mpr (.inl ⟨hx, fun same => key (same ▸ xkey)⟩), xkey⟩, fun y hy ykey => ?_⟩
    obtain ⟨old, -⟩ | rfl := mem_setTransfer.mp hy
    · exact all y old ykey
    · exact absurd ykey key

theorem transferOf_key (s : State) (pos idx tick : Nat) : (transferOf s pos idx tick).key = (pos, idx, tick % 65536) := by
  unfold transferOf
  cases found : s.link.transfers.find? fun t => t.source == pos && t.index == idx && t.tick == tick % 65536 with
  | none => rfl
  | some x =>
    have same := List.find?_some found
    simp only [Bool.and_eq_true, beq_iff_eq] at same
    obtain ⟨⟨source, index⟩, tick⟩ := same
    exact Prod.ext source (Prod.ext index tick)

theorem Holds.transferOf (h : Holds K Q s) {pos idx tick : Nat} (key : (transferOf s pos idx tick).key = K) :
    Q (transferOf s pos idx tick).got := by
  obtain ⟨⟨x, hx, xkey⟩, all⟩ := h
  refine all _ ?_ key
  rw [transferOf_key] at key
  obtain rfl := key
  simp only [Transfer.key, Prod.mk.injEq] at xkey
  obtain ⟨source, index, ticks⟩ := xkey
  unfold Machine.transferOf
  cases found : s.link.transfers.find? fun t => t.source == pos && t.index == idx && t.tick == tick % 65536 with
  | none => exact absurd (List.find?_eq_none.mp found x hx) (by simp [source, index, ticks])
  | some y => exact List.mem_of_find?_eq_some found

/-- What a member notes of its own sending leaves what it has received. -/
theorem Holds.note (h : Holds K Q s) (c : Bytes) (pos : Nat) {t : Transfer} {v : State} (hv : Holds K Q v)
    (key : t.key = (s.withPeer c pos).key := by rfl) (got : t.got = (s.withPeer c pos).got := by rfl) :
    Holds K Q (Machine.setTransfer t v) :=
  hv.setTransfer fun hK => got ▸ h.transferOf (key.symm.trans hK)

/-! ### Progress of a collective -/

theorem sendData_exchange (forward : Bool) (origin : Option Nat) (body : Bytes) (s : State) :
    (sendData forward origin body s).exchange = s.exchange := by
  unfold sendData sendOn
  rw [pump_exchange]
  rfl

theorem Holds.sendMessage (h : Holds K Q s) (op : Nat) (c : Bytes) (dst : Nat) (b : Bytes) :
    Holds K Q (sendMessage op c dst b s) :=
  h.of_exchange (foldl_keeps _ (fun _ _ => sendData_exchange ..) _ s)

theorem Holds.progressSend (h : Holds K Q s) (core : Nat) (c : Bytes) (q : Nat × Nat) : Holds K Q (progressSend core c q s) := by
  unfold Machine.progressSend
  extract_lets cx t
  dsimp -zeta only
  extract_lets v w
  have hv : Holds K Q v := by
    unfold v
    split
    · exact h.note c q.2 (h.sendMessage ..)
    · exact h
  clear_value v
  split
  · exact hv.note c q.2 (hv.sendMessage ..)
  · exact hv

theorem Holds.progressReceive (h : Holds K Q s) (core : Nat) (c : Bytes) (q : Nat × Nat) :
    Holds K Q (progressReceive core c q s) := by
  unfold Machine.progressReceive
  dsimp only
  split
  · refine h.note c q.2 (Holds.of_exchange ?_ (sendControl_exchange ..))
    split
    · exact h.of_touches (landData_touches ..)
    · exact h
  · exact h

theorem commandFault_quiet (code arg core : Nat) (s : State) :
    Touches [.code, .host] s (commandFault code arg core s) ∨ Dead (commandFault code arg core s) := by
  have raised := raiseAs_touches code false .compute true arg s
  unfold commandFault enterSquall
  split
  · exact .inl raised
  · refine .inr ?_
    split
    next ring => exact startAbort_dead ring
    next => exact beginSquall_dead ..

theorem Holds.mmFinish (h : Holds K Q s) (core : Nat) (c : Bytes) :
    Holds K Q (mmFinish core c s) ∨ Dead (mmFinish core c s) := by
  unfold Machine.mmFinish
  extract_lets cx d f w
  split
  · exact (commandFault_quiet ..).imp_left h.of_touches
  · have written : Touches [.mem, .host] s ((w.outs ++ [stageOut s c]).foldl (fun s o => writeOut cx o s) s) :=
      .foldl (fun _ _ => writeOut_touches ..) (.refl ..)
    have hv := h.of_touches written
    exact .inl (hv.note c _ hv)

theorem Holds.progress (h : Holds K Q s) {r : Run} (live : (progress r s).compute.abandoned = false) :
    Holds K Q (progress r s) := by
  have sends (l : List (Nat × Nat)) {v : State} (hv : Holds K Q v) :
      Holds K Q (l.foldl (fun s q => Machine.progressSend r.core r.cmd q s) v) :=
    List.foldlRecOn l _ hv fun u hu q _ => hu.progressSend ..
  have receives (l : List (Nat × Nat)) {v : State} (hv : Holds K Q v) :
      Holds K Q (l.foldl (fun s q => Machine.progressReceive r.core r.cmd q (Machine.progressSend r.core r.cmd q s)) v) :=
    List.foldlRecOn l _ hv fun u hu q _ => Holds.progressReceive (hu.progressSend ..) ..
  unfold Machine.progress at live ⊢
  extract_lets c peers v w z at live ⊢
  have hw : Holds K Q w ∨ Dead w := by
    unfold w
    split
    · exact (sends peers h).mmFinish ..
    · exact .inl (sends peers h)
  clear_value w
  split at live
  case isTrue abandoned => exact absurd live (by simp [abandoned])
  case isFalse going =>
    rw [if_neg going]
    have hz : Holds K Q z := receives peers (hw.resolve_right fun dead => going dead.1)
    split
    · exact hz.of_touches (State.setRun_touches ..)
    · exact hz

end

/-! ### Stops (R38) -/

theorem Touches.squall_eq {ps : List Part} {s t : State} (h : Touches ps s t) (hp : Part.job ∉ ps := by decide) :
    t.job.squall = s.job.squall := congrArg (·.squall) (h.same .job hp)

theorem writeRecord_phase (r : OutRecord) (s : State) : (writeRecord r s).job.phase = s.job.phase := by
  have units : Touches [.host] s (r.units.foldl (fun s u => s.produceData (padUnit u.data)) s) :=
    .foldl (fun _ _ => State.produceData_touches ..) (.refl ..)
  have written (b : Bytes) : Touches [.code, .host] s
      (((r.units.foldl (fun s u => s.produceData (padUnit u.data)) s).produce 1 b).publish (some 1)) :=
    .via (State.publish_touches ..) (.via (State.produce_touches ..) units.mono)
  unfold writeRecord
  extract_lets start offs _ v bump c0 c1 c2 c _ _ _ x
  have phase : x.job.phase = s.job.phase := by
    have kept : v.job.phase = s.job.phase := (written _).phase_eq
    unfold x
    dsimp only
    split
    · exact kept
    · exact kept
  split
  · exact (raise_phase ..).trans phase
  · exact phase

theorem drainRecords_phase (n : Nat) (s : State) : (drainRecords n s).job.phase = s.job.phase := by
  induction n generalizing s with
  | zero => rfl
  | succ n ih =>
    unfold drainRecords
    split
    · rfl
    · split
      · rw [ih, writeRecord_phase]
        rfl
      · rfl

theorem dueRecord_stopping {s : State} (h : s.job.phase = .stopping) (r : OutRecord) :
    (dueRecord r s).job.phase = .stopping := by
  have drained : (drainRecords 82 (s.setWaiting (s.host.waiting ++ [r]))).job.phase = .stopping :=
    (drainRecords_phase ..).trans h
  have late : (markLate (drainRecords 82 (s.setWaiting (s.host.waiting ++ [r])))).job.phase = .stopping :=
    (markLate_touches _).phase_eq.trans drained
  have same : (JobPhase.stopping != JobPhase.stopping) = false := rfl
  unfold dueRecord pushRecord
  split
  · dsimp only
    rw [late, same, Bool.and_false, if_neg Bool.false_ne_true]
    exact late
  · exact h

theorem stopComplete_effect {s : State} (phase : s.job.phase = .stopping) (squall : s.job.squall = none)
    (runs : s.compute.runs = []) :
    (stopComplete s).stopped ∧ (stopComplete s).job.squall = none ∧ (stopComplete s).compute.runs = [] := by
  have filled (u : State) : Touches [.tier] u (fillBuckets u) := fillBuckets_touches u
  unfold stopComplete
  split
  · dsimp only
    have idle : (fillBuckets { s with job := { s.job with phase := .idle } }).job = { s.job with phase := .idle } :=
      (filled _).job_eq
    have none' : (fillBuckets { s with job := { s.job with phase := .idle } }).compute = s.compute :=
      (filled _).compute_eq
    generalize fillBuckets { s with job := { s.job with phase := .idle } } = u at idle none'
    have here : u.stopped ∧ u.job.squall = none ∧ u.compute.runs = [] := by
      rw [State.stopped, idle, none']
      exact ⟨.inr rfl, squall, runs⟩
    split
    · rw [State.stopped, raise_phase, raise_compute, Touches.squall_eq (raise_touches ..)]
      exact here
    · exact here
  · exact ⟨.inl phase, squall, runs⟩

/-- The commands in flight are gone, and the ring's Squall with them. -/
theorem stopJob_effect (reason : GapReason) (keep : Bool) (s : State) :
    (stopJob reason keep s).stopped ∧ (stopJob reason keep s).job.squall = none
      ∧ (stopJob reason keep s).compute.runs = [] := by
  unfold stopJob
  extract_lets killed kept _ stopping closed marked _ left freed
  have runs : killed.compute.runs = [] := congrArg (·.runs) (killMedia_touches (killCompute s)).compute_eq
  have closing : closed.job.phase = .stopping :=
    List.foldlRecOn (motive := fun (u : State) => u.job.phase = .stopping) _ _ rfl fun _ hu r _ => dueRecord_stopping hu r
  have hmarked : Touches [.mem, .host] closed marked := by
    unfold marked
    clear_value kept
    split
    · exact stampCheckpoint_touches ..
    · exact (dropConditioning_touches _).mono
  have left_phase : left.job.phase = .stopping := (congrArg (·.phase) hmarked.job_eq).trans closing
  have left_runs : left.compute.runs = [] :=
    (congrArg (·.runs) (hmarked.compute_eq.trans (closeFrames_touches reason stopping).compute_eq)).trans runs
  have released : Touches [.media, .integrity, .pins] left (applyWatchEnd (releaseFault freed)) :=
    .via (applyWatchEnd_touches _) (.via (releaseFault_touches _) (freePool_touches left).mono)
  generalize applyWatchEnd (releaseFault freed) = v at released
  have phase : v.job.phase = .stopping := (congrArg (·.phase) released.job_eq).trans left_phase
  have squall : v.job.squall = none := congrArg (·.squall) released.job_eq
  have runs' : v.compute.runs = [] := (congrArg (·.runs) released.compute_eq).trans left_runs
  exact stopComplete_effect phase squall runs'

/-! ### The common abort (R334) -/

theorem beginSquall_of_runsOn {s : State} (run : s.runsOn) (calm : s.job.dusk = none) (level : Nat)
    (charged : Option (BitVec 32)) (die : Option Nat) (ring : Bool) :
    (beginSquall level charged die ring s).job.phase = .squall
      ∧ (beginSquall level charged die ring s).link.abortTick = s.link.abortTick := by
  unfold beginSquall
  extract_lets killed _ faulted recalled
  have going : faulted.job = s.job := rfl
  have abort : faulted.link.abortTick = s.link.abortTick := rfl
  have later : recalled.link = faulted.link := by
    unfold recalled
    rw [(withdrawRequests_touches ..).link_eq]
    split
    · exact (countKind_touches ..).link_eq
    · rfl
  clear_value recalled faulted
  have quiet : (faulted.job.dusk.isSome && !(faulted.inRing && faulted.job.position != 0)) = false := by
    rw [going, calm]
    rfl
  obtain h | h := run
  all_goals
    rw [going, h]
    simp only [← going, quiet, Bool.false_eq_true, if_false, later, abort, and_self]

theorem takeAbort_effect {s : State} (run : s.runsOn) (calm : s.job.dusk = none) {cause : Nat} (h : cause ≠ 0x3A08)
    (charged : Option (BitVec 32)) (die : Option Nat) :
    let u := takeAbort cause charged die s
    u.job.phase = .squall ∧ u.compute.runs = [] ∧ u.link.abortTick = some s.tick.index ∧ u.newest = some 0x3A01 := by
  intro u
  obtain ⟨-, runs, -⟩ := takeAbort_dead h charged die s
  have other : (cause == 0x3A08) = false := beq_eq_false_iff_ne.mpr h
  have raised := raiseAs_touches 0x3A01 false .link true 0
    { s with link := { s.link with abortTick := some s.tick.index, aborts := s.link.aborts + 1 } }
  have taken : u = beginSquall 2 charged die true (raiseAs 0x3A01 false .link true 0
      { s with link := { s.link with abortTick := some s.tick.index, aborts := s.link.aborts + 1 } }) := by
    unfold u takeAbort
    dsimp only
    rw [other, if_neg Bool.false_ne_true]
  have newest := raiseAs_newest 0x3A01 false .link true 0
    { s with link := { s.link with abortTick := some s.tick.index, aborts := s.link.aborts + 1 } }
  generalize raiseAs 0x3A01 false .link true 0 _ = v at raised taken newest
  have run' : v.runsOn := by
    rw [State.runsOn, raised.phase_eq]
    exact run
  obtain ⟨phase, abort⟩ := beginSquall_of_runsOn run' ((congrArg (·.dusk) (raised.same .job (by decide))).trans calm) 2
    charged die true
  refine ⟨taken ▸ phase, runs, ?_, ?_⟩
  · rw [taken, abort, raised.link_eq]
  · rw [taken, State.newest, (beginSquall_touches ..).host_eq]
    exact newest

/-! ### What each flit does where it acts -/

theorem collOfFlit_tick {s : State} {f : Bytes} (h : (collOfFlit s f).isSome) :
    flitTick f = s.tick.index % 65536 := by
  obtain ⟨r, hr⟩ := Option.isSome_iff_exists.mp h
  have found := List.find?_some hr
  simp only [Bool.and_eq_true, beq_iff_eq] at found
  exact found.1.2

theorem takeColl_effect {s : State} {f : Bytes} (h : (collOfFlit s f).isSome) {change : Transfer → Transfer}
    {Q : Bool × List (Nat × Bytes) × List (Nat × Bytes) × Bool → Prop} (key : ∀ x, (change x).key = x.key)
    (got : ∀ x, Q (change x).got) (live : (takeColl change f s).compute.abandoned = false) :
    Holds (flitSrc f, flitIndex f, flitTick f) Q (takeColl change f s) := by
  have tick := collOfFlit_tick h
  obtain ⟨r, hr⟩ := Option.isSome_iff_exists.mp h
  unfold takeColl at live ⊢
  rw [hr] at live ⊢
  refine Holds.progress (holds_setTransfer_self ?_ (got _)) live
  rw [key, transferOf_key, tick]

theorem le_lt (b : Bytes) (off n : Nat) : le b off n < 256 ^ n := by
  have value (l : Bytes) : leValue l < 256 ^ l.length := by
    induction l with
    | nil => exact Nat.one_pos
    | cons x xs ih =>
      have := x.isLt
      rw [leValue, List.length_cons, Nat.pow_succ]
      omega
  exact Nat.lt_of_lt_of_le (value _) (Nat.pow_le_pow_right (by decide) (List.length_take_le ..))

theorem takeClear_effect {s : State} {f : Bytes} (h : clearConcerns s f = true)
    (live : (takeClear f s).compute.abandoned = false) :
    Holds (flitSrc f, flitIndex f, flitTick f) (fun g => g.1 = true) (takeClear f s) := by
  have held (v : State) : Holds (flitSrc f, flitIndex f, flitTick f) (fun g => g.1 = true)
      (setTransfer { transferOf v (flitSrc f) (flitIndex f) (flitTick f) with cleared := true } v) := by
    refine holds_setTransfer_self ?_ rfl
    refine (transferOf_key ..).trans ?_
    have fits : flitTick f < 65536 := le_lt f 22 2
    rw [Nat.mod_eq_of_lt fits]
  unfold takeClear at live ⊢
  rw [if_pos h] at live ⊢
  dsimp only at live ⊢
  split at live
  · exact (held s).progress live
  · exact held s

theorem takeTick_effect {s : State} {n : Nat} {f : Bytes} (follows : s.followsRing = true) (run : s.runsOn)
    (next : le (flitPayload f) 0 8 = s.nextIndex) (direct : byteAt (flitPayload f) 9 = 0) (ring : 2 ≤ s.link.ringSize) :
    (takeTick n f s).hasBoundary (le (flitPayload f) 0 8) (s.now - ns (s.port n).delayNs) := by
  have calm : (s.job.phase == .squall) = false := by
    obtain h | h := run <;> rw [h] <;> rfl
  have placed : takeTick n f s = boundary (.forwarded (byteAt (flitPayload f) 8) (ns (s.port n).delayNs)) s := by
    have near : ¬ s.link.ringSize < 2 * (0 + 1) := by omega
    unfold takeTick
    simp only [follows, direct, near, calm, next, beq_self_eq_true, Bool.not_true, Bool.false_or, Bool.false_and,
      Bool.not_false, Bool.true_or, Bool.and_self, decide_false, Bool.false_eq_true, if_false, if_true]
    rfl
  rw [placed]
  refine State.hasBoundary_of_beat (boundary_beat ..) ⟨next.symm, rfl, rfl⟩

theorem takeReady_effect {s : State} {f : Bytes} (ring : s.inRing = true) (job : s.inJob = true)
    (now : s.tick.index ≤ le (flitPayload f) 0 8) :
    (flitSrc f, le (flitPayload f) 0 8) ∈ (takeReady f s).link.ready ∧ (takeReady f s).job = s.job := by
  have due : decide (s.tick.index ≤ le (flitPayload f) 0 8) = true := decide_eq_true now
  unfold takeReady
  simp only [ring, job, due, Bool.true_and]
  split
  · exact ⟨List.mem_append_right _ (List.mem_singleton_self _), rfl⟩
  case isFalse held =>
    rw [Bool.not_eq_true', Bool.not_eq_false, List.contains_iff_mem] at held
    exact ⟨held, rfl⟩

theorem takeAbortFlit_effect {s : State} {f : Bytes} (ring : s.inRing = true) (run : s.runsOn) (fresh : s.aborted = false)
    (calm : s.job.dusk = none) (tick : le (flitPayload f) 0 8 = s.tick.index) (cause : le (flitPayload f) 8 2 ≠ 0x3A08) :
    let u := takeAbortFlit f s
    u.job.phase = .squall ∧ u.compute.runs = [] ∧ u.link.abortTick = some s.tick.index ∧ u.newest = some 0x3A01 := by
  have runs : (s.job.phase == .running || s.job.phase == .draining) = true := by
    obtain h | h := run <;> rw [h] <;> rfl
  have acts : abortActs f s = true := by
    unfold abortActs State.abortable
    simp only [ring, runs, fresh, tick, beq_self_eq_true, Bool.not_false, Bool.and_self, Bool.true_or]
  intro u
  rw [show u = takeAbort (le (flitPayload f) 8 2) none none s from if_pos acts]
  exact takeAbort_effect run calm cause none none

theorem takeResume_effect {s : State} {f : Bytes} {q : Squall} (follows : s.followsRing = true)
    (phase : s.job.phase = .squall) (squall : s.job.squall = some q) (open' : s.link.resumeAt = none)
    (c : q.c = tickOfCode (le (flitPayload f) 0 8)) :
    takeResume f s
      = { s with link := { s.link with resumeAt := some (le (flitPayload f) 0 8, le (flitPayload f) 8 8) } } := by
  unfold takeResume adoptTick
  simp only [follows, phase, open', squall, c, beq_self_eq_true, Option.isNone_none, Bool.and_self, if_true]

/-! ### REQUEST (R338) -/

theorem armEngines_job (rates : List (Nat × Nat × Nat)) (table : Bytes) (s : State) :
    (armEngines rates table s).job = s.job := by
  unfold armEngines
  rfl

theorem armJob_job (req : Bytes) (s : State) :
    (armJob req s).job.phase = .armed ∧ (armJob req s).job.startReq = none := by
  have job : (armJob req s).job = (armFields req s).job := by
    unfold armJob
    extract_lets p table t
    have read : table.2.job = (armFields req s).job := (armTable_touches req (armFields req s)).job_eq
    have engines : t.job = table.2.job := armEngines_job ..
    clear_value t
    have cleared : (killCompute (if (keptFor req s).isSome then t else dropConditioning t)).job = t.job := by
      split <;> rfl
    generalize killCompute _ = x at cleared ⊢
    have started := (startMedia_touches x).job_eq
    generalize startMedia x = y at started ⊢
    have released := (releaseHeld_touches y).job_eq
    rw [released, started, cleared, engines, read]
  rw [job]
  exact ⟨rfl, rfl⟩

theorem placeStart_effect {req : Bytes} {s : State} (fresh : reqResume req = false) (t0 shown : Time) :
    (placeStart req t0 shown s).job.phase = .armed ∧ (placeStart req t0 shown s).job.startReq = none
      ∧ (placeStart req t0 shown s).tick.start = some t0 := by
  have kept : restoreRetained req (armJob req s) = some (armJob req s) := by
    rw [restoreRetained, keptFor, fresh, if_neg Bool.false_ne_true]
  obtain ⟨phase, startReq⟩ := armJob_job req s
  have early := earlyRequests_touches { armJob req s with tick := { (armJob req s).tick with start := some t0 } }
  have answered := respond_touches req 0 (toLe 8 (toNs shown))
    (earlyRequests { armJob req s with tick := { (armJob req s).tick with start := some t0 } })
  unfold placeStart
  rw [kept]
  dsimp only
  generalize earlyRequests _ = u at early answered ⊢
  refine ⟨?_, ?_, ?_⟩
  · rw [answered.phase_eq, early.phase_eq, phase]
  · rw [answered.job_eq]
    exact (congrArg (·.startReq) (early.same .job (by decide))).trans startReq
  · rw [answered.tick_eq, early.tick_eq]

theorem applyStop_of_runsOn {s : State} (run : s.runsOn) (reason : GapReason) :
    (applyStop reason s).stopped ∧ (applyStop reason s).compute.runs = [] := by
  have stop : applyStop reason s = stopJob reason (reason == .preemption) s := by
    unfold applyStop requestStop
    obtain h | h := run <;> rw [h]
  obtain ⟨stopped, -, runs⟩ := stopJob_effect reason (reason == .preemption) s
  rw [stop]
  exact ⟨stopped, runs⟩

theorem takeRequest_start {s : State} {f req : Bytes} (op : le (flitPayload f) 0 2 = 0x0001) (other : s.link.position ≠ 0)
    (asked : s.job.startReq = some req) :
    takeRequest f s = if le (flitPayload f) 216 8 == noStart then refuseStart req 0x1805 s
      else placeStart req (ns (le (flitPayload f) 216 8)) (ns (le (flitPayload f) 216 8))
        { s with job := { s.job with startReq := none } } := by
  have head : (le (flitPayload f) 0 2 == 0x0001 && s.link.position != 0) = true := by
    rw [op, bne_iff_ne.mpr other]
    rfl
  refine (if_pos head).trans ?_
  rw [takeStart, asked]

theorem takeRequest_of_follows {s : State} {f : Bytes} (follows : s.followsRing = true) (op : le (flitPayload f) 0 2 ≠ 0x0001) :
    takeRequest f s = match le (flitPayload f) 0 2 with
      | 0x0002 => if s.job.phase == .running then noteEnd s else s
      | 0x0003 => applyStop .preemption s
      | 0x0004 => applyStop .aborted s
      | 0x0005 => noteKeys (byteAt (flitPayload f) 8) s
      | 0x0006 => noteSplit (byteAt (flitPayload f) 8 == 1) s
      | _ => s := by
  unfold takeRequest
  simp only [beq_eq_false_iff_ne.mpr op, Bool.false_and, Bool.false_eq_true, if_false, follows, Bool.not_true]
    <;> rfl

theorem takeRequest_effect {s : State} {f : Bytes} (follows : s.followsRing = true) :
    let b := flitPayload f
    let u := takeRequest f s
    (le b 0 2 = 0x0002 → s.job.phase = .running
      → u.job = { s.job with endPending := s.job.endPending.or (some s.now) })
    ∧ ((le b 0 2 = 0x0003 ∨ le b 0 2 = 0x0004) → (s.job.phase = .running ∨ s.job.phase = .draining)
      → u.stopped ∧ u.compute.runs = [])
    ∧ (le b 0 2 = 0x0005 → u.job = { s.job with keyMask := s.job.keyMask ||| byteAt b 8 % 16 })
    ∧ (le b 0 2 = 0x0006 → u.job = { s.job with splitWanted := byteAt b 8 == 1 }) := by
  intro b u
  have taken (op : le b 0 2 ≠ 0x0001) : u = _ := takeRequest_of_follows follows op
  refine ⟨fun op run => ?_, fun op run => ?_, fun op => ?_, fun op => ?_⟩
  · rw [taken (by rw [op]; decide), op]
    simp only [run, beq_self_eq_true, if_true, noteEnd]
  · obtain op | op := op
    all_goals
      rw [taken (by rw [op]; decide), op]
      exact applyStop_of_runsOn run _
  · rw [taken (by rw [op]; decide), op]
    rfl
  · rw [taken (by rw [op]; decide), op]
    rfl

/-! ### The obligation -/

/-- The state of an arrival after flits have moved. -/
def relayed (s : State) (t : Time) (ps : List Port) (ts : List (Nat × Nat × Nat)) : State :=
  { s.arrive t with link := { s.link with ports := ps, turns := ts } }

/-- Settles O52. -/
theorem flitsActWhereTheyAreMeant : Obligations.FlitsActWhereTheyAreMeant := by
  unfold Obligations.FlitsActWhereTheyAreMeant
  intro t port n f s b sender
  have acts {c : Instr} {a : Arrival} (arrival : arrivalOf c = some a) (accepts : s.accepts a) :
      ∃ ps ts, ((relayed s c.time ps ts).port port).delayNs = (s.port port).delayNs
        ∧ exec c s = .next (a.act (relayed s c.time ps ts)) := by
    obtain ⟨w, relays, run⟩ := exec_of_accepts arrival accepts
    have delay := relays.delay port
    obtain ⟨ps, ts, rfl, -⟩ := relays
    exact ⟨ps, ts, delay, run⟩
  have sent {Q : Bool × List (Nat × Bytes) × List (Nat × Bytes) × Bool → Prop} {u : State}
      (h : Holds (flitSrc f, flitIndex f, flitTick f) Q u) : ∃ x ∈ u.link.transfers, sender x ∧ Q x.got := by
    obtain ⟨⟨x, hx, key⟩, all⟩ := h
    have named := key
    simp only [Transfer.key, Prod.mk.injEq] at named
    exact ⟨x, hx, named, all x hx key⟩
  refine ⟨fun a ha ok coll => ?_, fun a ha ok coll => ?_, fun a ha ok coll => ?_, fun a ha ok concerns => ?_,
    fun a ha ok follows run next direct ring => ?_, fun a ha ok ring job now => ?_,
    fun a ha ok ring run fresh calm tick cause => ?_, fun a q ha ok follows phase squall open' c => ?_,
    fun a req ha ok op other asked fresh => ⟨fun start => ?_, fun refused => ?_⟩, fun a ha ok follows => ?_⟩
  all_goals
    obtain ⟨ps, ts, delay, run'⟩ := acts ha ok
    cases ha
    refine ⟨_, run', ?_⟩
    dsimp only [Instr.time] at delay ⊢
  · refine fun live => sent (takeColl_effect (s := relayed s t ps ts) (Q := fun g => flitPiece f ∈ g.2.2.1) coll ?_ ?_ live)
    · exact fun _ => rfl
    · exact fun _ => List.mem_append_right _ (List.mem_singleton_self _)
  · refine fun live => sent (takeColl_effect (s := relayed s t ps ts) (Q := fun g => flitPiece f ∈ g.2.1) coll ?_ ?_ live)
    · exact fun _ => rfl
    · exact fun _ => List.mem_append_right _ (List.mem_singleton_self _)
  · refine fun live => sent (takeColl_effect (s := relayed s t ps ts) (Q := fun g => g.2.2.2 = true) coll ?_ ?_ live)
    · exact fun _ => rfl
    · exact fun _ => rfl
  · exact fun live => sent (takeClear_effect (s := relayed s t ps ts) concerns live)
  · have placed := takeTick_effect (s := relayed s t ps ts) (n := port) follows run next direct ring
    rwa [delay] at placed
  · exact takeReady_effect (s := relayed s t ps ts) ring job now
  · exact takeAbortFlit_effect (s := relayed s t ps ts) ring run fresh calm tick cause
  · have resumed := takeResume_effect (s := relayed s t ps ts) follows phase squall open' c
    rw [resumed]
    exact ⟨rfl, rfl⟩
  · have taken := takeRequest_start (s := relayed s t ps ts) op other asked
    rw [if_neg (mt beq_iff_eq.mp start)] at taken
    rw [taken]
    exact placeStart_effect fresh ..
  · have taken := takeRequest_start (s := relayed s t ps ts) op other asked
    rw [if_pos (beq_iff_eq.mpr refused)] at taken
    rw [taken, refuseStart, (respond_touches ..).job_eq, (respond_touches ..).tick_eq]
    exact ⟨rfl, rfl⟩
  · exact takeRequest_effect (s := relayed s t ps ts) follows

end Sys2Proof.Machine
end

section
/-! PROOFS. Ports: credits and resending (R317 to R319), training, going down, and identity (R313, R315, R322). -/

namespace Sys2Proof.Machine

set_option Elab.async false

/-! ### Credits and resending -/

theorem pumpPort_of_empty {p : Port} (h : p.waiting = []) (fuel : Nat) (left : List Waiting) :
    pumpPort fuel p left = (p, left) := by
  cases fuel with
  | zero => rfl
  | succ fuel =>
    unfold pumpPort
    simp only [h, List.find?_nil, ite_self]

theorem pump_of_empty {s : State} {n : Nat} (lt : n < s.link.ports.length) {p : Port} (h : p.waiting = []) :
    pump n (s.setPort n p) = s.setPort n p := by
  unfold pump
  rw [State.port_setPort_same lt, pumpPort_of_empty h]
  unfold State.setPort
  simp only [List.foldl_nil, List.set_set]

theorem Port.decode_shape (p : Port) (errors : Nat) :
    ∃ beat bad words fixed, (p.decode errors).2
      = { p with beat := beat, bad := bad, codewords := words, corrected := fixed } := by
  unfold Port.decode
  dsimp only
  split
  · exact ⟨_, _, _, _, rfl⟩
  · exact ⟨_, p.bad, p.codewords, p.corrected, rfl⟩

theorem Port.acked_waiting (p : Port) (ack : Nat) (now : Time) : (p.acked ack now).waiting = p.waiting := by
  unfold Port.acked
  split <;> rfl

theorem Port.acked_credits (p : Port) (ack : Nat) (now : Time) :
    (p.acked ack now).dataCredits = p.dataCredits ∧ (p.acked ack now).ctrlCredits = p.ctrlCredits := by
  unfold Port.acked
  split <;> exact ⟨rfl, rfl⟩

theorem Port.acked_of_mem {p : Port} {pre post : List Bytes} {x : Bytes} {ack : Nat} (now : Time)
    (h : p.replay = pre ++ x :: post) (hx : flitSeq x = ack) (first : ∀ y ∈ pre, flitSeq y ≠ ack) :
    (p.acked ack now).replay = post ∧ (p.acked ack now).ackAt = some now := by
  have place : p.replay.findIdx? (fun f => flitSeq f == ack) = some pre.length := by
    rw [h, List.findIdx?_append, List.findIdx?_eq_none_iff.mpr (by simpa using first), List.findIdx?_cons,
      hx, beq_self_eq_true]
    simp
  unfold Port.acked
  rw [place]
  refine ⟨?_, rfl⟩
  rw [h]
  simp

theorem Port.acked_of_absent {p : Port} {ack : Nat} (h : ∀ y ∈ p.replay, flitSeq y ≠ ack) (now : Time) :
    p.acked ack now = p := by
  unfold Port.acked
  rw [List.findIdx?_eq_none_iff.mpr (by simpa using h)]

/-- A flit without NAK arrives where nothing waits: its acknowledgement and its credits are taken. -/
theorem takeHeader_of_empty {s : State} {n : Nat} {f : Bytes} (lt : n < s.link.ports.length)
    (empty : (s.port n).waiting = []) (few : ∀ r ∈ (s.port n).retrans, r < 8) (nak : flitNak f = false) :
    takeHeader n f s = s.setPort n ((s.port n).credited f s.now) := by
  rw [takeHeader_of_noNak nak few]
  exact pump_of_empty lt ((Port.acked_waiting ..).trans empty)

/-- A port that a NAK makes resend all that it holds. -/
def Port.resent (p : Port) (f : Bytes) : Port :=
  { p with dataCredits := min 224 (p.dataCredits + flitCredD f),
           ctrlCredits := min 32 (p.ctrlCredits + flitCredC f) }.resend

theorem takeHeader_of_nak {s : State} {n : Nat} {f : Bytes} (lt : n < s.link.ports.length)
    (empty : (s.port n).waiting = []) (few : ∀ r ∈ (s.port n).retrans, r < 7) (nak : flitNak f = true)
    (absent : ∀ y ∈ (s.port n).replay, flitSeq y ≠ flitAck f) :
    takeHeader n f s = s.setPort n ((s.port n).resent f) := by
  have stays : ((s.port n).resent f).retrans.any (8 ≤ ·) = false := by
    refine List.any_eq_false.mpr fun r hr => ?_
    obtain ⟨r, old, rfl⟩ := List.mem_map.mp hr
    have := few r old
    simp only [decide_eq_true_eq]
    omega
  unfold takeHeader
  rw [Port.acked_of_absent absent]
  simp only [nak, if_true]
  refine (if_neg (Bool.eq_false_iff.mp stays)).trans (pump_of_empty lt empty)

theorem hearPlain_of_good {s : State} {n errors : Nat} {f : Bytes} (up : portUp s n = true)
    (good : (hear n errors f s).1 = true) (act : State → State) :
    hearPlain n errors f true act s = act (hear n errors f s).2 := by
  unfold hearPlain
  rw [up, Bool.not_true, if_neg Bool.false_ne_true]
  dsimp only
  rw [good, Bool.and_self, if_pos rfl]

theorem portUp_of_up {s : State} {n : Nat} (lt : n < 4) (up : (s.port n).phase = .up) : portUp s n = true := by
  rw [portUp, decide_eq_true lt, up]
  rfl

theorem formationDue_ports (s : State) : (formationDue s).link.ports = s.link.ports := by
  have failed (code : Nat) (u : State) : (formFails code u).link.ports = u.link.ports :=
    congrArg (·.ports) (raiseAs_touches ..).link_eq
  unfold formationDue
  split
  · split
    · exact failed ..
    · rfl
  · rfl

theorem port_of_ports {s u : State} (h : u.link.ports = s.link.ports) (m : Nat) : u.port m = s.port m := by
  rw [State.port, h, State.port]

/-- R317: an idle flit that is heard. -/
theorem idleFlit_effect {s : State} {n e : Nat} {f : Bytes} (lt : n < s.link.ports.length) (four : n < 4)
    (up : (s.port n).phase = .up) (empty : (s.port n).waiting = []) (few : ∀ r ∈ (s.port n).retrans, r < 8)
    (good : (hear n e f s).1 = true) (kind : flitKind f = 0) (nak : flitNak f = false) :
    let u := formationDue (hearPlain n e f (flitKind f == 0 && !flitNak f) (takeHeader n f) s)
    (u.port n).dataCredits = min 224 ((s.port n).dataCredits + flitCredD f)
    ∧ (u.port n).ctrlCredits = min 32 ((s.port n).ctrlCredits + flitCredC f)
    ∧ (∀ pre x post, (s.port n).replay = pre ++ x :: post → flitSeq x = flitAck f → (∀ y ∈ pre, flitSeq y ≠ flitAck f)
        → (u.port n).replay = post ∧ (u.port n).ackAt = some s.now)
    ∧ ∀ m, m ≠ n → u.port m = s.port m := by
  intro u
  obtain ⟨beat, bad, words, fixed, decoded⟩ := Port.decode_shape (s.port n) e
  have wanted : (flitKind f == 0 && !flitNak f) = true := by rw [kind, nak]; rfl
  have lt' : n < (hear n e f s).2.link.ports.length := List.length_set.symm ▸ lt
  have heard : (hear n e f s).2.port n = ((s.port n).decode e).2 := hear_port lt e f
  have taken : takeHeader n f (hear n e f s).2
      = (hear n e f s).2.setPort n (((s.port n).decode e).2.credited f s.now) := by
    rw [takeHeader_of_empty lt' _ _ nak, heard]
    · rfl
    · rw [heard, decoded]
      exact empty
    · rw [heard, decoded]
      exact few
  have port (m : Nat) : u.port m = ((hear n e f s).2.setPort n (((s.port n).decode e).2.credited f s.now)).port m := by
    unfold u
    rw [wanted, hearPlain_of_good (portUp_of_up four up) good, taken]
    exact port_of_ports (formationDue_ports _) m
  have own : u.port n = ((s.port n).decode e).2.credited f s.now := (port n).trans (State.port_setPort_same lt' _)
  obtain ⟨data, ctrl⟩ := Port.acked_credits ((s.port n).decode e).2 (flitAck f) s.now
  refine ⟨?_, ?_, fun pre x post held hx first => ?_, fun m ne => ?_⟩
  · rw [own, Port.credited, data, decoded]
  · rw [own, Port.credited, ctrl, decoded]
  · rw [own, decoded]
    exact Port.acked_of_mem s.now held hx first
  · rw [port, State.port_setPort_ne ne]
    exact State.port_setPort_ne ne _

/-- R318: a NAK that is heard. -/
theorem nak_effect {s : State} {n e : Nat} {f : Bytes} (lt : n < s.link.ports.length) (four : n < 4)
    (up : (s.port n).phase = .up) (empty : (s.port n).waiting = []) (few : ∀ r ∈ (s.port n).retrans, r < 7)
    (good : (hear n e f s).1 = true) (kind : flitKind f ≠ 1) (nak : flitNak f = true)
    (absent : ∀ y ∈ (s.port n).replay, flitSeq y ≠ flitAck f) :
    let p := s.port n
    let u := hearPlain n e f (flitKind f != 1 && flitNak f) (takeHeader n f) s
    (u.port n).replay = p.replay ∧ (u.port n).out = (p.emit (p.replay.map p.again)).out
      ∧ (u.port n).retrans = p.retrans.map (· + 1) ∧ (u.port n).retried = p.retried + p.replay.length := by
  intro p u
  obtain ⟨beat, bad, words, fixed, decoded⟩ := Port.decode_shape p e
  have wanted : (flitKind f != 1 && flitNak f) = true := by rw [nak, bne_iff_ne.mpr kind]; rfl
  have lt' : n < (hear n e f s).2.link.ports.length := List.length_set.symm ▸ lt
  have heard : (hear n e f s).2.port n = (p.decode e).2 := hear_port lt e f
  have own : u.port n = (p.decode e).2.resent f := by
    unfold u
    rw [wanted, hearPlain_of_good (portUp_of_up four up) good, takeHeader_of_nak lt' _ _ nak, heard,
      State.port_setPort_same lt']
    all_goals rw [heard, decoded]
    · exact absent
    · exact empty
    · exact few
  rw [own, decoded]
  exact ⟨rfl, rfl, rfl, rfl⟩

/-! ### Ports that go down (R318) -/

theorem Touches.ports_length {ps : List Part} {s t : State} (h : Touches ps s t) (shaped : s.shaped) :
    t.link.ports.length = 4 := Machine.ports_length (h.shaped shaped)

theorem State.port_setPort_of_shaped {s : State} {n : Nat} (shaped : s.link.ports.length = 4) (four : n < 4) (p : Port) :
    (s.setPort n p).port n = p := State.port_setPort_same (shaped.symm ▸ four) p

/-- A port that has left service, with the code that says why. -/
def portFallen (n code : Nat) (phase : PortPhase) (s : State) : State :=
  notePort n code (s.setPort n ((s.port n).withPhase phase))

theorem portFallen_touches (n code : Nat) (phase : PortPhase) (s : State) :
    Touches [.link] s (portFallen n code phase s) :=
  .via (State.setPort_touches ..) (State.setPort_touches ..)

theorem portFallen_port {s : State} (ports : s.link.ports.length = 4) {n : Nat} (four : n < 4) (code : Nat)
    (phase : PortPhase) :
    (portFallen n code phase s).port n = { (s.port n).withPhase phase with lastCode := code } := by
  unfold portFallen notePort
  rw [State.port_setPort_of_shaped (List.length_set.trans ports) four, State.port_setPort_of_shaped ports four]

/-- The port is down with its code, and its event is raised, or counted for the lane that failed. -/
def portReported (n : Nat) (lane : Option Nat) (s : State) : State :=
  let s := portFallen n 0x3A03 .down s
  match lane with
  | some l => countError 0x3A03 .link false (unitOf 5 (4 * n + l)) noSite n s
  | none => raiseAs 0x3A03 false .link false n s

/-- What follows the report: the common abort, or the training of the port. -/
def portAborts (n : Nat) (s : State) : State :=
  if s.dawn.phase == .eclipse then s
  else
    let s := startAbort 0x3A03 true none none s
    if s.job.phase == .running || s.job.phase == .draining then s
    else s.setPort n ((s.port n).withPhase .training)

theorem portDown_eq (n : Nat) (lane : Option Nat) (s : State) : portDown n lane s = portAborts n (portReported n lane s) :=
  rfl

theorem Touches.inRing_eq {ps : List Part} {s t : State} (h : Touches ps s t) (hp : Part.job ∉ ps := by decide) :
    t.inRing = s.inRing := by
  have variant : t.job.variant = s.job.variant := congrArg (·.variant) (h.same .job hp)
  rw [State.inRing, State.hasJob, State.inJob, h.phase_eq hp, variant]
  rfl

theorem startAbort_of_noRing {s : State} (alone : s.inRing = false) (cause : Nat) (reported : Bool)
    (charged : Option (BitVec 32)) (die : Option Nat) : startAbort cause reported charged die s = s := by
  unfold startAbort State.abortable
  rw [alone, Bool.false_and, if_neg Bool.false_ne_true]

theorem portAborts_of_idle {s : State} (phase : s.dawn.phase ≠ .eclipse)
    (run : (startAbort 0x3A03 true none none s).job.phase ≠ .running)
    (drain : (startAbort 0x3A03 true none none s).job.phase ≠ .draining) (n : Nat) :
    portAborts n s = (startAbort 0x3A03 true none none s).setPort n
      (((startAbort 0x3A03 true none none s).port n).withPhase .training) := by
  unfold portAborts
  rw [if_neg (by simpa using phase)]
  refine if_neg ?_
  simp only [Bool.or_eq_true, beq_iff_eq, run, drain, or_self, not_false_eq_true]

/-- Outside a running ring job a port that has been reported goes on to train. -/
theorem portAborts_alone {s : State} (ports : s.link.ports.length = 4) {n : Nat} (four : n < 4)
    (phase : s.dawn.phase ≠ .eclipse) (alone : s.inRing = false) (run : s.job.phase ≠ .running)
    (drain : s.job.phase ≠ .draining) :
    ((portAborts n s).port n).phase = .training ∧ ((portAborts n s).port n).replay = []
      ∧ (portAborts n s).newest = s.newest ∧ (portAborts n s).integrity = s.integrity := by
  have quiet := startAbort_of_noRing alone 0x3A03 true none none
  have trains := portAborts_of_idle phase (quiet.symm ▸ run) (quiet.symm ▸ drain) n
  rw [quiet] at trains
  have own : (portAborts n s).port n = (s.port n).withPhase .training :=
    trains ▸ State.port_setPort_of_shaped ports four _
  exact ⟨own ▸ rfl, own ▸ rfl, trains ▸ rfl, trains ▸ rfl⟩

theorem portReported_none_touches (n : Nat) (s : State) :
    Touches [.code, .link, .host] s (portReported n none s) :=
  .via (raiseAs_touches ..) (portFallen_touches ..).mono

theorem portDown_alone {s : State} (shaped : s.shaped) {n : Nat} (four : n < 4) (phase : s.dawn.phase ≠ .eclipse)
    (alone : s.inRing = false) (run : s.job.phase ≠ .running) (drain : s.job.phase ≠ .draining) :
    ((portDown n none s).port n).phase = .training ∧ ((portDown n none s).port n).replay = []
      ∧ (portDown n none s).newest = some 0x3A03 := by
  have reported := portReported_none_touches n s
  have newest : (portReported n none s).newest = some 0x3A03 := raiseAs_newest ..
  rw [portDown_eq]
  obtain ⟨training, empty, same, -⟩ := portAborts_alone (reported.ports_length shaped) four
    (by rwa [reported.dawn_eq]) (reported.inRing_eq.trans alone) (by rwa [reported.phase_eq]) (by rwa [reported.phase_eq])
  exact ⟨training, empty, same.trans newest⟩

/-! ### A lane that fails is counted -/

theorem Touches.total_eq {ps : List Part} {s t : State} (h : Touches ps s t) (hp : Part.integrity ∉ ps := by decide) :
    t.integrity.total = s.integrity.total := congrArg (·.total) (h.same .integrity hp)

theorem causeDusk_total (code : Nat) (s : State) : (causeDusk code s).integrity.total = s.integrity.total := by
  have watch (u : State) : (applyWatchEnd u).integrity.total = u.integrity.total := by
    unfold applyWatchEnd
    split <;> rfl
  have sent (u : State) : (reportToHead 0 (toLe 2 code) u).integrity.total = u.integrity.total :=
    congrArg (·.total) (reportToHead_integrity ..)
  unfold causeDusk
  split
  · exact watch _
  iterate 3
    split
    · rfl
    · dsimp only
      split
      · exact sent _
      · rfl
  · rfl

theorem dueRecord_total (s : State) (r : OutRecord) : (dueRecord r s).integrity.total = s.integrity.total := by
  have late (u : State) : (markLate (drainRecords 82 u)).integrity.total = u.integrity.total :=
    (markLate_touches _).total_eq.trans (drainRecords_touches ..).total_eq
  unfold dueRecord pushRecord
  split
  · dsimp only
    split
    · rw [causeDusk_total, (raise_touches ..).total_eq]
      exact late _
    · exact late _
  · rfl

theorem closeFrames_total (reason : GapReason) (s : State) :
    (closeFrames reason s).integrity.total = s.integrity.total :=
  foldl_keeps (·.integrity.total) dueRecord_total _ s

theorem enterEclipse_total (unit : BitVec 32) (rule : Nat) (s : State) :
    (enterEclipse unit rule s).integrity.total = s.integrity.total := by
  have entered (u : State) : (eclipseState u).integrity.total = u.integrity.total := by
    have closed : (if (killMedia (killCompute u)).inJob then closeFrames .eclipse (killMedia (killCompute u))
        else killMedia (killCompute u)).integrity.total = u.integrity.total := by
      split
      · exact closeFrames_total ..
      · rfl
    exact closed
  exact (raiseAs_touches ..).total_eq.trans (entered _)

/-- R416, R418: the error is in the history, and either Eclipse follows or nothing else. -/
theorem countError_cases (code : Nat) (d : Source) (oob : Bool) (unit site : BitVec 32) (arg : Nat) (s : State) :
    let u := countError code d oob unit site arg s
    u.integrity.total = min 4294967295 (s.integrity.total + 1)
      ∧ (u.dawn.phase = .eclipse ∨ u = enterHistory code unit site (raiseAs code false d oob arg s)) := by
  intro u
  have raised := raiseAs_touches code false d oob arg s
  have total : (enterHistory code unit site (raiseAs code false d oob arg s)).integrity.total
      = min 4294967295 (s.integrity.total + 1) := congrArg (fun n => min 4294967295 (n + 1)) raised.total_eq
  have classified : u = if (enterHistory code unit site (raiseAs code false d oob arg s)).dawn.phase == .eclipse
      then enterHistory code unit site (raiseAs code false d oob arg s)
      else
        let r := permanentRule unit false (enterHistory code unit site (raiseAs code false d oob arg s)).integrity.entries
        if r == 0 then enterHistory code unit site (raiseAs code false d oob arg s)
        else enterEclipse unit r (enterHistory code unit site (raiseAs code false d oob arg s)) := rfl
  generalize enterHistory code unit site (raiseAs code false d oob arg s) = v at total classified
  clear_value u
  subst classified
  split
  · exact ⟨total, .inr rfl⟩
  · dsimp only
    split
    · exact ⟨total, .inr rfl⟩
    · exact ⟨(enterEclipse_total ..).trans total, .inl (enterEclipse_dawnPhase ..)⟩

theorem enterHistory_newest (code : Nat) (unit site : BitVec 32) (s : State) :
    (enterHistory code unit site s).newest = s.newest := by
  rw [State.newest, (enterHistory_touches ..).host_eq, State.newest]

/-- R318, R416: loss of lock of a lane, outside a running ring job. -/
theorem portDown_lane {s : State} (shaped : s.shaped) {n : Nat} (four : n < 4) (alone : s.inRing = false)
    (run : s.job.phase ≠ .running) (drain : s.job.phase ≠ .draining) (lane : Nat) :
    let u := portDown n (some lane) s
    u.integrity.total = min 4294967295 (s.integrity.total + 1)
      ∧ (u.dawn.phase ≠ .eclipse → (u.port n).phase = .training ∧ u.newest = some 0x3A03) := by
  intro u
  have fallen := portFallen_touches n 0x3A03 .down s
  have down : u = portAborts n (portReported n (some lane) s) := portDown_eq ..
  obtain ⟨total, cases⟩ := countError_cases 0x3A03 .link false (unitOf 5 (4 * n + lane)) noSite n
    (portFallen n 0x3A03 .down s)
  rw [fallen.total_eq] at total
  have reported : portReported n (some lane) s = countError 0x3A03 .link false (unitOf 5 (4 * n + lane)) noSite n
    (portFallen n 0x3A03 .down s) := rfl
  rw [← reported] at total cases
  by_cases eclipse : (portReported n (some lane) s).dawn.phase = .eclipse
  · have stays : u = portReported n (some lane) s := down.trans (if_pos (beq_iff_eq.mpr eclipse))
    exact ⟨stays ▸ total, fun h => absurd (stays ▸ eclipse) h⟩
  · have counted := cases.resolve_left eclipse
    have touched : Touches [.code, .link, .host, .faults, .integrity] s (portReported n (some lane) s) := by
      rw [counted]
      exact .via (enterHistory_touches ..) (.via (raiseAs_touches ..) fallen.mono)
    have newest : (portReported n (some lane) s).newest = some 0x3A03 := by
      rw [counted, enterHistory_newest]
      exact raiseAs_newest ..
    obtain ⟨training, -, same, integrity⟩ := portAborts_alone (touched.ports_length shaped) four eclipse
      (touched.inRing_eq.trans alone) (by rwa [touched.phase_eq]) (by rwa [touched.phase_eq])
    rw [down]
    exact ⟨integrity ▸ total, fun _ => ⟨training, same.trans newest⟩⟩

/-! ### The common abort of a port that goes down -/

/-- R334: in a ring job that runs, the abort of the tick begins. -/
theorem startAbort_effect {s : State} (ring : s.inRing = true) (run : s.runsOn) (calm : s.job.dusk = none)
    (fresh : s.aborted = false) {cause : Nat} (other : cause ≠ 0x3A08) (reported : Bool) :
    let u := startAbort cause reported none none s
    u.job.phase = .squall ∧ u.compute.runs = [] ∧ u.link.abortTick = some s.tick.index ∧ u.newest = some 0x3A01 := by
  have runs : (s.job.phase == .running || s.job.phase == .draining) = true := by
    obtain h | h := run <;> rw [h] <;> rfl
  have may : s.abortable cause = true := by
    rw [State.abortable, ring, runs, fresh]
    rfl
  intro u
  have sent : Touches [.code, .link, .host] s (if reported || cause == 0x3A08 then sendAbort cause s
      else raiseAs cause false .link true 0 (sendAbort cause s)) := by
    split
    · exact (sendAbort_touches ..).mono
    · exact .via (raiseAs_touches ..) (sendAbort_touches ..).mono
  have begun : u = takeAbort cause none none (if reported || cause == 0x3A08 then sendAbort cause s
      else raiseAs cause false .link true 0 (sendAbort cause s)) := if_pos may
  generalize (if reported || cause == 0x3A08 then sendAbort cause s
      else raiseAs cause false .link true 0 (sendAbort cause s)) = v at sent begun
  have run' : v.runsOn := by rwa [State.runsOn, sent.phase_eq]
  have calm' : v.job.dusk = none := (congrArg (·.dusk) (sent.same .job (by decide))).trans calm
  rw [begun, ← sent.tick_eq]
  exact takeAbort_effect run' calm' other none none

theorem portDown_ring {s : State} (shaped : s.shaped) {n : Nat} (four : n < 4) (phase : s.dawn.phase ≠ .eclipse)
    (ring : s.inRing = true) (run : s.runsOn) (calm : s.job.dusk = none) (fresh : s.aborted = false) :
    let u := portDown n none s
    u.job.phase = .squall ∧ u.compute.runs = [] ∧ (u.port n).phase = .training
      ∧ u.link.abortTick = some s.tick.index := by
  intro u
  have reported := portReported_none_touches n s
  have down : u = portAborts n (portReported n none s) := portDown_eq ..
  have abortTick : (portReported n none s).link.abortTick = s.link.abortTick :=
    congrArg (·.abortTick) (raiseAs_touches ..).link_eq
  generalize portReported n none s = v at reported down abortTick
  have run' : v.runsOn := by rwa [State.runsOn, reported.phase_eq]
  have calm' : v.job.dusk = none := (congrArg (·.dusk) (reported.same .job (by decide))).trans calm
  have fresh' : v.aborted = false := by rwa [State.aborted, abortTick, reported.tick_eq]
  obtain ⟨squall, runs, abort, -⟩ := startAbort_effect (reported.inRing_eq.trans ring) run' calm' fresh'
    (by decide : 0x3A03 ≠ 0x3A08) true
  have trains := portAborts_of_idle (reported.dawn_eq.symm ▸ phase) (by rw [squall]; decide) (by rw [squall]; decide) n
  have ports := (startAbort_touches 0x3A03 true none none v).ports_length (reported.shaped shaped)
  rw [down, trains]
  refine ⟨squall, runs, ?_, abort.trans (congrArg (some ·.index) reported.tick_eq)⟩
  rw [State.port_setPort_of_shaped ports four]
  rfl

/-! ### Training (R315, R322) -/

theorem byteAt_append_cons {p : Bytes} {i : Nat} (h : p.length = i) (x : Byte) (q : Bytes) :
    byteAt (p ++ x :: q) i = x.toNat := by
  subst h
  simp [byteAt]

theorem flitOp_flitOf {kind seq ack credD credC op : Nat} {control nak : Bool} (small : op < 256)
    (group src dst index offset len tick : Nat) (payload : Bytes) :
    flitOp (flitOf kind seq ack control nak credD credC (flitBody op group src dst index offset len tick payload)) = op := by
  obtain ⟨rest, body⟩ : ∃ rest, flitBody op group src dst index offset len tick payload = BitVec.ofNat 8 op :: rest := by
    unfold flitBody
    simp only [List.append_assoc]
    exact ⟨_, rfl⟩
  obtain ⟨more, cut⟩ : ∃ more, slice (BitVec.ofNat 8 op :: rest) 0 240 = BitVec.ofNat 8 op :: more := ⟨_, rfl⟩
  unfold flitOf flitOp
  rw [body, cut, List.append_assoc, List.append_assoc, List.cons_append]
  refine (byteAt_append_cons (length_toLe ..) _ _).trans ?_
  rw [BitVec.toNat_ofNat, Nat.mod_eq_of_lt small]

theorem bringUpPort_effect {s : State} (ports : s.link.ports.length = 4) {n : Nat} (four : n < 4)
    (phase : (s.port n).phase = .training ∨ (s.port n).phase = .down) :
    let u := bringUpPort n s
    ∃ o, (u.port n).phase = .up ∧ (u.port n).dataCredits = 224 ∧ (u.port n).ctrlCredits = 32
      ∧ (u.port n).out.getLast? = some o ∧ flitKind o = 2 ∧ flitOp o = 0x30
      ∧ (forming s = true → u.link.formed = false) := by
  have rises : (decide (n < 4) && ((s.port n).phase == .training || (s.port n).phase == .down)) = true := by
    rw [decide_eq_true four]
    obtain h | h := phase <;> rw [h] <;> rfl
  intro u
  let v := s.setPort n { (s.port n).withPhase .up with dataCredits := 224, ctrlCredits := 32, ackAt := some s.now }
  let w := sendPlain n 2 false 0 0 (identBody v n) v
  have up : u = if forming w then { w with link := { w.link with
      formed := false, ringSize := 0, probes := [], formBy := some (w.now + ms 500) } } else w := if_pos rises
  have length : v.link.ports.length = 4 := List.length_set.trans ports
  have vport : v.port n = { (s.port n).withPhase .up with dataCredits := 224, ctrlCredits := 32, ackAt := some s.now } :=
    State.port_setPort_of_shaped ports four _
  have wport : w.port n = (v.port n).emit [flitOf 2 0 (v.port n).lastSeq true false 0 0 (identBody v n)] :=
    State.port_setPort_of_shaped length four _
  have own : u.port n = w.port n := by
    rw [up]
    split <;> rfl
  have forms : forming w = forming s := rfl
  refine ⟨flitOf 2 0 (v.port n).lastSeq true false 0 0 (identBody v n), ?_, ?_, ?_, ?_, ?_, ?_, fun h => ?_⟩
  · rw [own, wport, vport]
    rfl
  · rw [own, wport, vport]
    rfl
  · rw [own, wport, vport]
    rfl
  · rw [own, wport, Port.getLast?_emit]
  · exact flitKind_flitOf _ _ _ _ _ (by decide) (by decide) (by decide)
  · exact flitOp_flitOf (by decide) ..
  · rw [up, forms, if_pos h]

theorem trainingTimeout_effect {s : State} (ports : s.link.ports.length = 4) {n : Nat} (four : n < 4) :
    let u := formationDue (raiseAs 0x3201 false .link false n (portFallen n 0x3201 .down s))
    (u.port n).phase = .down ∧ (u.port n).lastCode = 0x3201 ∧ (s.link.formBy = none → u.newest = some 0x3201) := by
  intro u
  have raised := raiseAs_touches 0x3201 false .link false n (portFallen n 0x3201 .down s)
  have newest : (raiseAs 0x3201 false .link false n (portFallen n 0x3201 .down s)).newest = some 0x3201 :=
    raiseAs_newest ..
  have same (m : Nat) : u.port m = (portFallen n 0x3201 .down s).port m :=
    (port_of_ports (formationDue_ports _) m).trans (port_of_ports (congrArg (·.ports) raised.link_eq) m)
  have fallen := portFallen_port ports four 0x3201 .down
  refine ⟨?_, ?_, fun unformed => ?_⟩
  · rw [same, fallen]
    rfl
  · rw [same, fallen]
  · have formBy : (raiseAs 0x3201 false .link false n (portFallen n 0x3201 .down s)).link.formBy = none :=
      (congrArg (·.formBy) raised.link_eq).trans unformed
    have stays : u = raiseAs 0x3201 false .link false n (portFallen n 0x3201 .down s) := by
      unfold u formationDue
      rw [formBy]
    rw [stays, newest]

/-! ### Identity (R322) -/

/-- What an IDENT tells of the port: the peer, and the delay of the hop. -/
def Port.told (p : Port) (f : Bytes) (delay : Nat) : Port :=
  { p with peerGa := byteAt (flitPayload f) 0 % 16, peerPort := byteAt (flitPayload f) 1 % 4, delayNs := delay % 65536 }

theorem takeIdent_wrong {s : State} (ports : s.link.ports.length = 4) {n : Nat} (four : n < 4) {f : Bytes}
    (wrong : byteAt (flitPayload f) 1 ≠ (n + 2) % 4) (delay : Nat) :
    ((takeIdent n f delay s).port n).phase = .disabled ∧ (takeIdent n f delay s).newest = some 0x3202 := by
  have taken : takeIdent n f delay s = raiseAs 0x3202 false .link false n
      (notePort n 0x3202 (s.setPort n (((s.port n).told f delay).withPhase .disabled))) :=
    if_pos (bne_iff_ne.mpr wrong)
  rw [taken]
  refine ⟨?_, raiseAs_newest ..⟩
  rw [port_of_ports (congrArg (·.ports) (raiseAs_touches ..).link_eq), notePort,
    State.port_setPort_of_shaped (List.length_set.trans ports) four, State.port_setPort_of_shaped ports four]
  rfl

theorem sendProbe_carries (l : List Nat) (s : State) : Carries s (sendProbe l s) := sendPlain_carries ..

theorem formFails_ports (code : Nat) (s : State) : (formFails code s).link.ports = s.link.ports :=
  congrArg (·.ports) (raiseAs_touches ..).link_eq

theorem takeIdent_right {s : State} (ports : s.link.ports.length = 4) {n : Nat} (four : n < 4) {f : Bytes}
    (right : byteAt (flitPayload f) 1 = (n + 2) % 4) (delay : Nat) :
    let u := takeIdent n f delay s
    (u.port n).identified = true ∧ (u.port n).peerGa = byteAt (flitPayload f) 0 % 16
      ∧ (u.port n).delayNs = delay % 65536 := by
  intro u
  let b := flitPayload f
  let same := slice b 52 48 == slice s.dawn.fwMeasure 0 48 && slice b 100 48 == slice (imgDigest s.dawn.planImage) 0 48
  let v := s.setPort n { (s.port n).told f delay with identified := true, sameImages := same }
  have named : u = if !same && forming v then formFails 0x3204 (notePort n 0x3204 v)
      else if mayProbe v && forming v then v.link.probes.foldl (fun s l => sendProbe l s) (sendProbe [] v) else v :=
    if_neg (by simpa using right)
  have length : v.link.ports.length = 4 := List.length_set.trans ports
  have own : v.port n = { (s.port n).told f delay with identified := true, sameImages := same } :=
    State.port_setPort_of_shaped ports four _
  have stands {w : State} (h : Carries v w) : (w.port n).stand
      = Port.stand { (s.port n).told f delay with identified := true, sameImages := same } := (h.port n).trans (congrArg _ own)
  have known {p : Port} (h : p.stand
      = Port.stand { (s.port n).told f delay with identified := true, sameImages := same }) :
      p.identified = true ∧ p.peerGa = byteAt (flitPayload f) 0 % 16 ∧ p.delayNs = delay % 65536 :=
    ⟨congrArg (·.identified) h, congrArg (·.peerGa) h, congrArg (·.delayNs) h⟩
  clear_value v same
  rw [named]
  split
  · rw [port_of_ports (formFails_ports ..), notePort, State.port_setPort_of_shaped length four, own]
    exact ⟨rfl, rfl, rfl⟩
  · split
    · exact known (stands (.foldl_from (sendProbe_carries ..) (fun u l => sendProbe_carries l u) _))
    · exact known (stands (.refl v))

theorem replayStall_runs {s : State} {n : Nat} (t : Nat) (four : n < 4) (up : (s.port n).phase = .up)
    (full : 512 ≤ (s.port n).replay.length) (stood : ∀ a, (s.port n).ackAt = some a → a + us 20 ≤ max s.now t) :
    exec (.replayStallTimeout t n) s = .next (portDown n none (s.arrive t)) := by
  refine congrArg Host.Outcome.next (if_pos ?_)
  have up' : portUp (s.arrive t) n = true := portUp_of_up four up
  have full' : decide (512 ≤ ((s.arrive t).port n).replay.length) = true := decide_eq_true full
  rw [up', full', Bool.true_and, Bool.true_and]
  split
  next a ha => exact decide_eq_true (stood a ha)
  next => rfl

theorem ident_runs {s : State} {n e : Nat} {f : Bytes} (t : Nat) (four : n < 4) (up : (s.port n).phase = .up)
    (good : (hear n e f s).1 = true) (kind : flitKind f = 2) (op : flitOp f = 0x30) (delay : Nat) :
    exec (.ident t n f e delay) s = .next (takeIdent n f delay (hear n e f (s.arrive t)).2) := by
  have wanted : (flitKind f == 2 && flitOp f == 0x30) = true := by rw [kind, op]; rfl
  have heard := hearPlain_of_good (s := s.arrive t) (portUp_of_up four up) good (takeIdent n f delay)
  rw [← wanted] at heard
  exact congrArg Host.Outcome.next heard

/-! ### The obligation -/

/-- Settles O53. -/
theorem portsCarryTrainAndIdentify : Obligations.PortsCarryTrainAndIdentify := by
  unfold Obligations.PortsCarryTrainAndIdentify
  intro t n e f s shaped four p
  have ports : (s.arrive t).link.ports.length = 4 := ports_length shaped
  have lt : n < (s.arrive t).link.ports.length := ports.symm ▸ four
  refine ⟨fun up empty few good kind nak => ?_, fun up empty few good kind nak absent => ?_,
    fun phase up alone run drain => ⟨fun full stood => ?_, fun lane small => ?_⟩,
    fun phase up ring run calm fresh full stood => ?_, fun passed phase => ?_, fun training => ?_,
    fun delay up good kind op => ⟨fun wrong => ?_, fun right => ?_⟩⟩
  · exact ⟨_, rfl, idleFlit_effect (s := s.arrive t) lt four up empty few good kind nak⟩
  · exact ⟨_, rfl, nak_effect (s := s.arrive t) lt four up empty few good kind nak absent⟩
  · exact ⟨_, replayStall_runs t four up full stood, portDown_alone (s := s.arrive t) shaped four phase alone run drain⟩
  · have runs : (portUp (s.arrive t) n && decide (lane < 4)) = true := by
      rw [decide_eq_true small, Bool.and_true]
      exact portUp_of_up four up
    exact ⟨_, congrArg Host.Outcome.next (if_pos runs), portDown_lane (s := s.arrive t) shaped four alone run drain lane⟩
  · exact ⟨_, replayStall_runs t four up full stood, portDown_ring (s := s.arrive t) shaped four phase ring run calm fresh⟩
  · obtain ⟨o, raised⟩ := bringUpPort_effect (s := s.arrive t) ports four phase
    exact ⟨_, o, congrArg Host.Outcome.next (if_pos (beq_iff_eq.mpr passed)), raised⟩
  · have due : (decide (n < 4) && ((s.arrive t).port n).phase == .training) = true := by
      rw [decide_eq_true four, Bool.true_and]
      exact beq_iff_eq.mpr training
    exact ⟨_, congrArg (Host.Outcome.next ∘ formationDue) (if_pos due), trainingTimeout_effect (s := s.arrive t) ports four⟩
  · exact ⟨_, ident_runs t four up good kind op delay, takeIdent_wrong (List.length_set.trans ports) four wrong delay⟩
  · exact ⟨_, ident_runs t four up good kind op delay, takeIdent_right (List.length_set.trans ports) four right delay⟩

end Sys2Proof.Machine
end

section
/-! PROOFS. The ring: how it forms from its PROBE flits (R322), aborts a tick (R332) and recovers (R333, R335, R336). -/

namespace Sys2Proof.Machine

set_option Elab.async false

/-! ### A ring that closes (R322, R323) -/

theorem rotate_perm (l : List Nat) (i : Nat) : (rotate l i).Perm l := by
  rw [rotate]
  exact List.perm_append_comm.trans (.of_eq (List.take_append_drop i l))

theorem head?_rotate {l : List Nat} {i : Nat} (h : i < l.length) : (rotate l i).head? = some l[i] := by
  rw [rotate, List.drop_eq_getElem_cons h]
  rfl

/-- The entry that came first is, after the turn, as far behind as the turn went ahead. -/
theorem getElem?_rotate {l : List Nat} {i : Nat} (h : i < l.length) :
    (rotate l i)[(l.length - i) % l.length]? = l.head? := by
  rw [rotate]
  cases i with
  | zero => rw [Nat.sub_zero, Nat.mod_self, List.drop_zero, List.take_zero, List.append_nil, List.head?_eq_getElem?]
  | succ i =>
    rw [Nat.mod_eq_of_lt (by omega), List.getElem?_append_right (Nat.le_of_eq (List.length_drop ..))]
    rw [List.length_drop, Nat.sub_self, List.getElem?_take_of_lt (Nat.succ_pos i), List.head?_eq_getElem?]

theorem foldl_min_le (l : List Nat) (a : Nat) : l.foldl min a ≤ a ∧ ∀ g ∈ l, l.foldl min a ≤ g := by
  induction l generalizing a with
  | nil => exact ⟨Nat.le_refl a, fun _ h => (nomatch h)⟩
  | cons x xs ih =>
    obtain ⟨start, rest⟩ := ih (min a x)
    refine ⟨Nat.le_trans start (Nat.min_le_left ..), fun g hg => ?_⟩
    obtain rfl | hg := List.mem_cons.mp hg
    · exact Nat.le_trans start (Nat.min_le_right ..)
    · exact rest g hg

theorem foldl_min_mem (l : List Nat) (a : Nat) : l.foldl min a = a ∨ l.foldl min a ∈ l := by
  induction l generalizing a with
  | nil => exact .inl rfl
  | cons x xs ih =>
    obtain h | h := ih (min a x)
    · have either : min a x = a ∨ min a x = x := by omega
      obtain h' | h' := either
      · exact .inl (h.trans h')
      · exact .inr (List.mem_cons.mpr (.inl (h.trans h')))
    · exact .inr (List.mem_cons_of_mem x h)

/-- Where the lowest GA stands in a list of GA values. -/
theorem lowest_place {l : List Nat} (ne : l ≠ []) (small : ∀ g ∈ l, g ≤ 15) :
    ∃ i, ∃ h : i < l.length, l.findIdx? (· == l.foldl min 15) = some i ∧ ∀ g ∈ l, l[i] ≤ g := by
  have there : l.foldl min 15 ∈ l := by
    obtain h | h := foldl_min_mem l 15
    · obtain ⟨x, xs, rfl⟩ := List.exists_cons_of_ne_nil ne
      have x15 := small x (List.mem_cons_self ..)
      have := (foldl_min_le (x :: xs) 15).2 x (List.mem_cons_self ..)
      rw [h] at this ⊢
      rw [show x = 15 by omega]
      exact List.mem_cons_self ..
    · exact h
  obtain ⟨i, found⟩ : ∃ i, l.findIdx? (· == l.foldl min 15) = some i := by
    cases found : l.findIdx? (· == l.foldl min 15) with
    | some i => exact ⟨i, rfl⟩
    | none => exact absurd (List.findIdx?_eq_none_iff.mp found _ there) (by simp)
  obtain ⟨h, at_i, -⟩ := List.findIdx?_eq_some_iff_getElem.mp found
  refine ⟨i, h, found, fun g hg => ?_⟩
  rw [beq_iff_eq.mp at_i]
  exact (foldl_min_le l 15).2 g hg

theorem closeRing_effect {s : State} {l : List Nat} {ga : Nat} (head : l.head? = some ga) (small : ∀ g ∈ l, g ≤ 15)
    (distinct : l.Nodup) (two : 2 ≤ l.length) (room : l.length ≤ 16)
    (agree : ∀ m ∈ s.link.probes, m = l.drop (l.length - m.length)) :
    let u := closeRing l s
    u.link.formed = true ∧ u.link.ringSize = l.length ∧ u.link.members.Perm l
      ∧ u.link.members[u.link.position]? = some ga ∧ ∀ g ∈ l, ∀ h, u.link.members.head? = some h → h ≤ g := by
  have ne : l ≠ [] := fun h => by simp [h] at two
  obtain ⟨i, lt, found, least⟩ := lowest_place ne small
  have opens : (decide (l.length < 2) || decide (16 < l.length)
      || !(s.link.probes.all fun m => m == l.drop (l.length - m.length))) = false := by
    have agree' : (s.link.probes.all fun m => m == l.drop (l.length - m.length)) = true :=
      List.all_eq_true.mpr fun m hm => beq_iff_eq.mpr (agree m hm)
    rw [agree', decide_eq_false (by omega), decide_eq_false (by omega)]
    rfl
  intro u
  have closed : u = { s with link := { s.link with
      formed := true, ringSize := l.length, members := rotate l i, probes := [], formBy := none,
      position := (l.length - i) % l.length } } := by
    unfold u closeRing
    simp only [opens, distinct, found, decide_true, Bool.not_true, Bool.false_eq_true, if_false, Option.getD_some]
  rw [closed]
  refine ⟨rfl, rfl, rotate_perm l i, (getElem?_rotate lt).trans head, fun g hg h hh => ?_⟩
  rw [Option.some.inj (hh.symm.trans (head?_rotate lt))]
  exact least g hg

/-! ### PROBE -/

/-- The GA values that a PROBE carries. -/
def probeList (f : Bytes) : List Nat :=
  (List.range (byteAt (flitPayload f) 16)).map fun i => byteAt (flitPayload f) i % 16

theorem probeList_le {f : Bytes} {g : Nat} (h : g ∈ probeList f) : g ≤ 15 := by
  obtain ⟨i, -, rfl⟩ := List.mem_map.mp h
  omega

theorem Carries.passesNeighbours {s u : State} (h : Carries s u) (l : List Nat) :
    passesNeighbours l u = passesNeighbours l s := by
  have peer (n : Nat) : (u.port n).peerGa = (s.port n).peerGa := congrArg (·.peerGa) (h.port n)
  rw [Machine.passesNeighbours, peer, peer, peer, peer, Machine.passesNeighbours]

theorem execProbe_runs {s : State} {n e : Nat} {f : Bytes} (t : Nat) (up : portUp s n = true)
    (good : (hear n e f s).1 = true) (kind : flitKind f = 2) (op : flitOp f = 0x31) (ahead : 2 ≤ n)
    (forms : forming s = true) (open' : s.link.formed = false) :
    exec (.probe t n f e) s = .next (takeProbe f (hear n e f (s.arrive t)).2) := by
  have wanted : (flitKind f == 2 && flitOp f == 0x31 && movesForward n && forming (s.arrive t) && !(s.arrive t).link.formed)
      = true := by
    rw [kind, op, show movesForward n = true from decide_eq_true ahead, show forming (s.arrive t) = true from forms,
      show (s.arrive t).link.formed = false from open']
    rfl
  have heard := hearPlain_of_good (s := s.arrive t) up good (takeProbe f)
  rw [← wanted] at heard
  exact congrArg Host.Outcome.next heard

theorem find?_probes {probes : List (List Nat)} {ga : Nat} (none' : ∀ m ∈ probes, m.head? ≠ some ga) (l : List Nat) :
    (probes ++ [l]).find? (·.head? == some ga) = if l.head? = some ga then some l else none := by
  rw [List.find?_append, List.find?_eq_none.mpr (by simpa using none'), Option.none_or, List.find?_singleton]
  simp only [beq_iff_eq]

/-- R322: a member's own PROBE has come back, with those of all the others. -/
theorem takeProbe_own {s : State} {f : Bytes} (others : ∀ m ∈ s.link.probes, m.head? ≠ some s.dawn.ga.toNat)
    (head : (probeList f).head? = some s.dawn.ga.toNat) (passes : passesNeighbours (probeList f) s = true)
    (distinct : (probeList f).Nodup) (two : 2 ≤ (probeList f).length) (room : (probeList f).length ≤ 16)
    (all : (probeList f).length ≤ s.link.probes.length + 1)
    (agree : ∀ m ∈ s.link.probes, m = (probeList f).drop ((probeList f).length - m.length)) :
    let u := takeProbe f s
    u.link.formed = true ∧ u.link.ringSize = (probeList f).length ∧ u.link.members.Perm (probeList f)
      ∧ u.link.members[u.link.position]? = some s.dawn.ga.toNat
      ∧ ∀ g ∈ probeList f, ∀ h, u.link.members.head? = some h → h ≤ g := by
  intro u
  let keep := { s with link := { s.link with probes := s.link.probes ++ [probeList f] } }
  have mine : (probeList f).contains s.dawn.ga.toNat = true := List.contains_iff_mem.mpr (List.mem_of_mem_head? head)
  have own : ((probeList f).head? == some s.dawn.ga.toNat && passesNeighbours (probeList f) s) = true := by
    rw [head, passes, beq_self_eq_true]
    rfl
  have kept : u = tryClose keep := (if_pos mine).trans (if_pos own)
  have here : keep.link.probes.find? (·.head? == some s.dawn.ga.toNat) = some (probeList f) :=
    (find?_probes others _).trans (if_pos head)
  have closed : u = closeRing (probeList f) keep := by
    rw [kept, tryClose, show keep.dawn = s.dawn from rfl, here]
    refine if_pos ?_
    rw [List.length_append]
    exact all
  rw [closed]
  refine closeRing_effect head (fun g => probeList_le) distinct two room fun m hm => ?_
  obtain old | same := List.mem_append.mp hm
  · exact agree m old
  · rw [List.mem_singleton.mp same, Nat.sub_self, List.drop_zero]

/-- R322: the PROBE of another member is kept. -/
theorem takeProbe_other {s : State} {f : Bytes} (others : ∀ m ∈ s.link.probes, m.head? ≠ some s.dawn.ga.toNat)
    (absent : s.dawn.ga.toNat ∉ probeList f) (room : (probeList f).length < 16) :
    (takeProbe f s).link.probes = s.link.probes ++ [probeList f] ∧ (takeProbe f s).link.formed = s.link.formed := by
  let keep := { s with link := { s.link with probes := s.link.probes ++ [probeList f] } }
  have notMine : ¬ (probeList f).contains s.dawn.ga.toNat = true := fun h => absent (List.contains_iff_mem.mp h)
  have kept : takeProbe f s = tryClose (if mayProbe s then sendProbe (probeList f) keep else keep) :=
    (if_neg notMine).trans (if_neg (Nat.not_le.mpr room))
  have headless : (probeList f).head? ≠ some s.dawn.ga.toNat := fun h => absent (List.mem_of_mem_head? h)
  have carries : Carries keep (if mayProbe s then sendProbe (probeList f) keep else keep) := by
    split
    · exact sendProbe_carries ..
    · exact .refl keep
  obtain ⟨ps, sent, -⟩ := carries
  rw [kept, sent]
  have open' : tryClose (keep.withPorts ps) = keep.withPorts ps := by
    have missing : (keep.withPorts ps).link.probes.find? (·.head? == some (keep.withPorts ps).dawn.ga.toNat) = none :=
      (find?_probes others _).trans (if_neg headless)
    rw [tryClose, missing]
  rw [open']
  exact ⟨rfl, rfl⟩

/-! ### RESUME and RING_RECOVERY_TIMEOUT (R335, R336) -/

theorem foldl_leastTick {c : Option Nat} {reports : List MemberReport} (same : ∀ r ∈ reports, tickOfCode r.tick = c) :
    reports.foldl (fun c r => leastTick c (tickOfCode r.tick)) c = c := by
  induction reports with
  | nil => rfl
  | cons r rs ih =>
    have least : leastTick c c = c := by
      cases c with
      | none => rfl
      | some x => exact congrArg some (Nat.min_self x)
    rw [List.foldl_cons, same r (List.mem_cons_self ..), least]
    exact ih fun r hr => same r (List.mem_cons_of_mem _ hr)

theorem adoptTick_of_same {s : State} {q : Squall} (squall : s.job.squall = some q) {c : Option Nat} (same : q.c = c) :
    adoptTick c s = s := by
  rw [adoptTick, squall]
  exact if_pos (beq_iff_eq.mpr same)

theorem sendBothWays_carries (op : Nat) (payload : Bytes) (s : State) : Carries s (sendBothWays op payload s) :=
  (sendControl_carries ..).trans (sendControl_carries ..)

theorem ceilDiv_mul_le (a : Nat) {b : Nat} (h : 0 < b) : a ≤ ceilDiv a b * b := by
  have rounds : a + b - 1 < ((a + b - 1) / b + 1) * b := by
    rw [Nat.mul_comm]
    exact Nat.lt_mul_div_succ _ h
  rw [ceilDiv]
  rw [Nat.add_mul] at rounds
  omega

/-- The first boundary at least 1.0 ms later (R335). -/
def resumeTick (s : State) : Nat :=
  s.tick.index + max 1 (ceilDiv (s.now + ms 1 - s.tick.boundary) (max 1 s.tick.tp))

theorem resumeTick_after (s : State) : s.tick.index < resumeTick s := by
  have : 1 ≤ max 1 (ceilDiv (s.now + ms 1 - s.tick.boundary) (max 1 s.tick.tp)) := Nat.le_max_left ..
  rw [resumeTick]
  omega

theorem resumeTick_late {s : State} (tp : 0 < s.tick.tp) :
    s.now + ms 1 ≤ s.tick.boundary + (resumeTick s - s.tick.index) * s.tick.tp := by
  have whole : max 1 s.tick.tp = s.tick.tp := Nat.max_eq_right tp
  have wait : ceilDiv (s.now + ms 1 - s.tick.boundary) s.tick.tp
      ≤ max 1 (ceilDiv (s.now + ms 1 - s.tick.boundary) s.tick.tp) := Nat.le_max_right ..
  have span := Nat.le_trans (ceilDiv_mul_le (s.now + ms 1 - s.tick.boundary) tp) (Nat.mul_le_mul_right s.tick.tp wait)
  rw [resumeTick, whole, Nat.add_sub_cancel_left]
  exact Nat.sub_le_iff_le_add'.mp span

theorem ringRestored_effect {s : State} {q : Squall} (phase : s.job.phase = .squall) (squall : s.job.squall = some q)
    (ring : q.ring = true) (open' : s.link.resumeAt = none) (complete : q.complete.isSome) (head : s.job.position = 0)
    (first : s.link.position = 0) (up : s.ringUp = true) (size : s.link.ringSize = s.job.variant)
    (others : othersRestored s = true) (same : ∀ r ∈ s.link.reports, tickOfCode r.tick = q.c) :
    (ringRestored s).link.resumeAt = some (tickCode q.c, resumeTick s) ∧ (ringRestored s).job = s.job := by
  have least : s.link.reports.foldl (fun c r => leastTick c (tickOfCode r.tick)) q.c = q.c := foldl_leastTick same
  obtain ⟨ps, sent, -⟩ := sendBothWays_carries 0x23 (toLe 8 (tickCode q.c) ++ toLe 8 (resumeTick s)) s
  have resumed : ringRestored s = adoptTick q.c { s.withPorts ps with
      link := { (s.withPorts ps).link with resumeAt := some (tickCode q.c, resumeTick s) } } := by
    rw [← sent]
    unfold ringRestored
    rw [phase, squall]
    dsimp only
    rw [ring, complete, head, open', up, size, first, others, least]
    simp only [beq_self_eq_true, Option.isNone_none, Bool.and_self, if_true, resumeTick]
  have stays := adoptTick_of_same (q := q) (s := { s.withPorts ps with
      link := { (s.withPorts ps).link with resumeAt := some (tickCode q.c, resumeTick s) } }) squall rfl
  rw [resumed.trans stays]
  exact ⟨rfl, rfl⟩

theorem duskStop_of_other {code : Nat} (h : code / 4096 ≠ 5) (s : State) : duskStop code s = stopJob .dusk true s := by
  rw [duskStop, if_neg (by simpa using h)]

/-! ### The obligation -/

/-- Settles O54. -/
theorem ringsFormAndRecoverTogether : Obligations.RingsFormAndRecoverTogether := by
  unfold Obligations.RingsFormAndRecoverTogether
  intro t s
  refine ⟨fun n e f up good kind op ahead forms open' => ?_, fun ring run calm late unheld uncommitted fresh => ?_,
    fun position ring head pos small => ⟨fun tick restored phase => ?_, fun code job none' => ?_⟩,
    fun q phase squall ring open' => ⟨fun complete head first up size others same => ?_, fun late => ?_⟩⟩
  · intro b l ga others
    obtain ⟨ps, heard, stand⟩ := hear_carries n e f (s.arrive t)
    have runs := execProbe_runs t up good kind op ahead forms open'
    refine ⟨fun h passes distinct two room all agree => ⟨_, runs, ?_⟩, fun absent room => ⟨_, runs, ?_⟩⟩
    · have passes' := ((hear_carries n e f (s.arrive t)).passesNeighbours l).trans passes
      rw [heard] at passes' ⊢
      exact takeProbe_own others h passes' distinct two room all agree
    · rw [heard]
      obtain ⟨probes, formed⟩ := takeProbe_other (s := (s.arrive t).withPorts ps) others absent room
      exact ⟨probes, formed.trans open'⟩
  · have ticks : (s.arrive t).ticking = true := by
      rw [State.ticking]
      obtain h | h := run <;> rw [State.arrive_job, h] <;> rfl
    have due : ((s.arrive t).inRing && (s.arrive t).ticking
        && decide ((s.arrive t).tick.boundary + (s.arrive t).tick.tp * 95 / 100 ≤ (s.arrive t).now)
        && !readyHeld (s.arrive t) && !(s.arrive t).tickCommitted) = true := by
      rw [ticks, show (s.arrive t).inRing = true from ring, show readyHeld (s.arrive t) = false from unheld,
        show (s.arrive t).tickCommitted = false from uncommitted,
        show decide ((s.arrive t).tick.boundary + (s.arrive t).tick.tp * 95 / 100 ≤ (s.arrive t).now) = true from
          decide_eq_true late]
      rfl
    exact ⟨_, congrArg Host.Outcome.next (if_pos due), startAbort_effect (s := s.arrive t) ring run calm fresh (by decide) false⟩
  · refine ⟨_, congrArg Host.Outcome.next (if_pos ?_), List.mem_append_right _ (List.mem_singleton_self _), rfl, ?_⟩
    · simp only [State.arrive_job, show (s.arrive t).inRing = true from ring, head, phase, pos, small, beq_self_eq_true,
        decide_true, Bool.and_self]
    · intro r hr same
      obtain old | new := List.mem_append.mp hr
      · obtain ⟨-, other⟩ := List.mem_filter.mp old
        exact absurd same (bne_iff_ne.mp other)
      · exact List.mem_singleton.mp new
  · refine ⟨_, congrArg Host.Outcome.next (if_pos ?_), rfl, rfl⟩
    simp only [State.arrive_job, State.arrive_link, show (s.arrive t).inRing = true from ring,
      show (s.arrive t).inJob = true from job, head, pos, small, none', beq_self_eq_true, decide_true, Option.isNone_none,
      Bool.and_self]
  · obtain ⟨resumeAt, job⟩ := ringRestored_effect (s := s.arrive t) phase squall ring open' complete head first up size
      others same
    exact ⟨_, resumeTick (s.arrive t), rfl, resumeAt, fun tp _ => resumeTick_late (s := s.arrive t) tp,
      resumeTick_after (s.arrive t), job⟩
  · obtain ⟨stopped, squall', runs⟩ := stopJob_effect .dusk true (raiseAs 0x3A06 false .link false 0 (s.arrive t))
    refine ⟨stopJob .dusk true (raiseAs 0x3A06 false .link false 0 (s.arrive t)), congrArg Host.Outcome.next ?_, stopped,
      squall', runs⟩
    have due : (q.ring && (s.arrive t).link.resumeAt.isNone && decide (q.detected + sec 3 ≤ (s.arrive t).now)) = true := by
      rw [ring, show (s.arrive t).link.resumeAt = none from open',
        show decide (q.detected + sec 3 ≤ (s.arrive t).now) = true from decide_eq_true late]
      rfl
    rw [State.arrive_job, phase, squall]
    dsimp only
    rw [if_pos due, duskStop_of_other (by decide)]

end Sys2Proof.Machine
end

section
/-! PROOFS. The host link (R343, R345, R347) and the input records (R27, R28, R357, R358). -/

namespace Sys2Proof.Machine

set_option Elab.async false

/-! ### What the writes to the host leave -/

/-- What comes in from the host: ring 0, the conditioning that waits, and the link itself. -/
def State.inward (s : State) : Ring × List Conditioning × Bool × Nat :=
  (s.ring 0, s.host.conds, s.host.linkUp, s.host.mbps)

theorem State.setRing_inward {n : Nat} (ne : n ≠ 0) (r : Ring) (s : State) : (s.setRing n r).inward = s.inward := by
  rw [State.inward, State.ring_setRing, if_neg fun h => ne h.1.symm]
  rfl

theorem State.produce_inward {n : Nat} (ne : n ≠ 0) (b : Bytes) (s : State) : (s.produce n b).inward = s.inward :=
  State.setRing_inward ne ..

theorem State.produceData_inward (b : Bytes) (s : State) : (s.produceData b).inward = s.inward :=
  State.setRing_inward (by decide) ..

theorem State.publish_inward (v : Option Nat) (s : State) : (s.publish v).inward = s.inward := by
  unfold State.publish
  generalize s.statusPage = page
  cases v <;> (split <;> rfl)

theorem drainEvents_inward (n : Nat) (s : State) : (drainEvents n s).inward = s.inward := by
  induction n generalizing s with
  | zero => rfl
  | succ n ih =>
    unfold drainEvents
    split
    · rfl
    · dsimp only
      split
      · rw [ih, State.publish_inward, State.produce_inward (by decide)]
        rfl
      · rfl

theorem emit_inward (code severity source arg : Nat) (oob : Bool) (s : State) :
    (emit code severity source arg oob s).inward = s.inward := by
  unfold emit
  rw [drainEvents_inward]
  rfl

theorem reportDropped_inward (s : State) : (reportDropped s).inward = s.inward := by
  unfold reportDropped
  split
  · rw [emit_inward]
    rfl
  · rfl

theorem raiseAs_inward (code : Nat) (alt : Bool) (d : Source) (oob : Bool) (arg : Nat) (s : State) :
    (raiseAs code alt d oob arg s).inward = s.inward := by
  unfold raiseAs State.free
  dsimp only
  rw [emit_inward]
  repeat' split
  all_goals exact reportDropped_inward s

theorem raise_inward (code arg : Nat) (s : State) : (raise code arg s).inward = s.inward := raiseAs_inward ..

theorem drainResponses_inward (n : Nat) (s : State) : (drainResponses n s).inward = s.inward := by
  induction n generalizing s with
  | zero => rfl
  | succ n ih =>
    unfold drainResponses
    split
    · rfl
    · dsimp only
      split
      · rw [ih, State.publish_inward, State.produce_inward (by decide)]
        rfl
      · rfl

theorem writeRecord_inward (r : OutRecord) (s : State) : (writeRecord r s).inward = s.inward := by
  have units : (r.units.foldl (fun s u => s.produceData (padUnit u.data)) s).inward = s.inward :=
    foldl_keeps State.inward (fun u x => State.produceData_inward _ u) _ s
  have written (b : Bytes) : (((r.units.foldl (fun s u => s.produceData (padUnit u.data)) s).produce 1 b).publish
      (some 1)).inward = s.inward := by
    rw [State.publish_inward, State.produce_inward (by decide), units]
  unfold writeRecord
  extract_lets start offs _ v bump c0 c1 c2 c _ _ _ x
  have hv : v.inward = s.inward := written _
  have hx : x.inward = v.inward := by
    clear_value v
    rfl
  split
  · rw [raise_inward, hx, hv]
  · rw [hx, hv]

theorem drainRecords_inward (n : Nat) (s : State) : (drainRecords n s).inward = s.inward := by
  induction n generalizing s with
  | zero => rfl
  | succ n ih =>
    unfold drainRecords
    split
    · rfl
    · split
      · rw [ih, writeRecord_inward]
        rfl
      · rfl

theorem afterRoom_inward (s : State) : (afterRoom s).inward = s.inward := by
  have drained : (drainAll s).inward = s.inward := by
    unfold drainAll
    dsimp only
    rw [drainResponses_inward, drainRecords_inward, drainEvents_inward, reportDropped_inward, drainEvents_inward]
  unfold afterRoom stopComplete
  split
  · dsimp only
    split
    · rw [raise_inward]
      exact drained
    · exact drained
  · exact drained

/-! ### The link -/

theorem packFields_two (a off size b low width : Nat) :
    packFields [(a, off, size), (b, low, width)] = a % 2 ^ size * 2 ^ off + b % 2 ^ width * 2 ^ low := by
  simp [packFields]

theorem configurationWord_ids (s : State) :
    (configurationWord 0 s).1 = toLe 4 (0xA7C0 * 65536 + Config.vendorId.toNat) := by
  have vendor : Config.vendorId.toNat % 2 ^ 16 = Config.vendorId.toNat := Nat.mod_eq_of_lt Config.vendorId.isLt
  have word : (configurationWord 0 s).1 = toLe 4 (packFields [(0xA7C0, 16, 16), (Config.vendorId.toNat, 0, 16)]) := rfl
  have high : 0xA7C0 % 2 ^ 16 * 2 ^ 16 = 0xA7C0 * 65536 := by decide
  rw [word, packFields_two, vendor, high, Nat.pow_zero, Nat.mul_one]

theorem configurationWord_class (s : State) :
    ∃ r, r < 256 ∧ (configurationWord 8 s).1 = toLe 4 (0x120000 * 256 + r) := by
  refine ⟨s.free.1.toNat % 256, Nat.mod_lt _ (by decide), ?_⟩
  have word : (configurationWord 8 s).1 = toLe 4 (packFields [(0x120000, 8, 24), (s.free.1.toNat, 0, 8)]) := rfl
  have high : 0x120000 % 2 ^ 24 * 2 ^ 8 = 0x120000 * 256 := by decide
  have low : s.free.1.toNat % 2 ^ 8 = s.free.1.toNat % 256 := rfl
  rw [word, packFields_two, high, low, Nat.pow_zero, Nat.mul_one]

theorem configurationWord_only (offset : Nat) (s : State) :
    (configurationWord offset s).2.job = s.job ∧ (configurationWord offset s).2.dawn = s.dawn
      ∧ (configurationWord offset s).2.mem = s.mem := by
  unfold configurationWord
  split <;> exact ⟨rfl, rfl, rfl⟩

theorem configurationRequest_open {s : State} (perst : s.host.perstN = true) (up : s.host.linkUp = true)
    (powered : s.dawn.phase ≠ .unpowered) (t offset : Nat) :
    exec (.configurationRequest ⟨t, offset⟩) s = .next (if !s.host.enumOpen || s.host.flr then complete .retry [] (s.arrive t)
      else complete .success (configurationWord offset (s.arrive t)).1 (configurationWord offset (s.arrive t)).2) := by
  refine congrArg Host.Outcome.next (if_neg ?_)
  rw [State.arrive_host, State.arrive_dawn, perst, up, beq_eq_false_iff_ne.mpr powered]
  exact Bool.false_ne_true

theorem configurationRequest_effect {s : State} (perst : s.host.perstN = true) (up : s.host.linkUp = true)
    (powered : s.dawn.phase ≠ .unpowered) (t offset : Nat) :
    ∃ u, exec (.configurationRequest ⟨t, offset⟩) s = .next u
      ∧ (u.host.completion = .retry ↔ (s.host.enumOpen = false ∨ s.host.flr = true))
      ∧ (u.host.completion = .success ↔ (s.host.enumOpen = true ∧ s.host.flr = false))
      ∧ (s.host.enumOpen = true → s.host.flr = false →
        (offset = 0 → u.host.readData = toLe 4 (0xA7C0 * 65536 + Config.vendorId.toNat))
        ∧ (offset = 8 → ∃ r, r < 256 ∧ u.host.readData = toLe 4 (0x120000 * 256 + r)))
      ∧ u.job = s.job ∧ u.dawn = s.dawn ∧ u.mem = s.mem := by
  have runs := configurationRequest_open perst up powered t offset
  by_cases retry : (!s.host.enumOpen || s.host.flr) = true
  · rw [if_pos retry] at runs
    have closed : s.host.enumOpen = false ∨ s.host.flr = true := by
      rwa [Bool.or_eq_true, Bool.not_eq_true'] at retry
    have shut : ¬ (s.host.enumOpen = true ∧ s.host.flr = false) := by
      rintro ⟨enum, flr⟩
      simp [enum, flr] at retry
    refine ⟨_, runs, ⟨fun _ => closed, fun _ => rfl⟩, ⟨fun h => (nomatch h), fun h => absurd h shut⟩,
      fun enum flr => absurd ⟨enum, flr⟩ shut, rfl, rfl, rfl⟩
  · rw [if_neg retry] at runs
    have opened : s.host.enumOpen = true ∧ s.host.flr = false := by
      rwa [Bool.or_eq_true, Bool.not_eq_true', not_or, Bool.not_eq_false, Bool.not_eq_true] at retry
    have notClosed : ¬ (s.host.enumOpen = false ∨ s.host.flr = true) := by
      rw [opened.1, opened.2]
      decide
    obtain ⟨job, dawn, mem⟩ := configurationWord_only offset (s.arrive t)
    refine ⟨_, runs, ⟨fun h => (nomatch h), fun h => absurd h notClosed⟩, ⟨fun _ => opened, fun _ => rfl⟩,
      fun _ _ => ⟨?_, ?_⟩, job, dawn, mem⟩
    · rintro rfl
      exact configurationWord_ids (s.arrive t)
    · rintro rfl
      exact configurationWord_class (s.arrive t)

theorem linkUp_of_inward {s u : State} (h : u.inward = s.inward) :
    u.host.linkUp = s.host.linkUp ∧ u.host.mbps = s.host.mbps :=
  ⟨congrArg (·.2.2.1) h, congrArg (·.2.2.2) h⟩

/-- Settles O27. -/
theorem theLinkComesAndGoes : Obligations.TheLinkComesAndGoes := by
  unfold Obligations.TheLinkComesAndGoes
  refine ⟨fun t offset s => ⟨fun perst up powered => configurationRequest_effect perst up powered t offset, fun reset => ?_⟩,
    fun t s => ⟨⟨_, rfl, rfl, rfl, rfl, rfl⟩, ⟨_, rfl, rfl, rfl, rfl⟩, fun mbps perst powered => ?_⟩⟩
  · have silent : exec (.configurationRequest ⟨t, offset⟩) s = .next (complete .none [] (s.arrive t)) := by
      refine congrArg Host.Outcome.next (if_pos ?_)
      rw [State.arrive_host, reset]
      rfl
    exact ⟨_, silent, rfl, rfl, rfl⟩
  · have runs : exec (.pcieLinkTrained t mbps) s
        = .next (afterRoom { s.arrive t with host := { s.host with linkUp := true, mbps := mbps } }) := by
      refine congrArg Host.Outcome.next (if_pos ?_)
      rw [State.arrive_host, State.arrive_dawn, perst, bne_iff_ne.mpr powered]
      rfl
    obtain ⟨up, rate⟩ := linkUp_of_inward
      (afterRoom_inward { s.arrive t with host := { s.host with linkUp := true, mbps := mbps } })
    exact ⟨_, runs, up, rate, (afterRoom_touches _).tick_eq⟩

/-! ### Input records -/

theorem takeRecord_effect {s : State} (served : s.served 0 = true) :
    ((takeRecord s).ring 0).mine = ptrAdd (s.ring 0).mine 1 ∧ (takeRecord s).host.conds = s.host.conds
      ∧ Touches [.host] s (takeRecord s) := by
  have enable : (s.ring 0).enable = true := by
    rw [State.served, Bool.and_eq_true, Bool.and_eq_true] at served
    exact served.1.1
  have lt := lt_length_of_enable enable
  let v := State.setRing { s with host := { s.host with arrivals := s.host.arrivals.drop 1 } } 0
    { s.ring 0 with mine := ptrAdd (s.ring 0).mine 1 }
  have taken : (takeRecord s).inward = v.inward := State.publish_inward ..
  have head : v.ring 0 = { s.ring 0 with mine := ptrAdd (s.ring 0).mine 1 } := State.ring_setRing_same lt _
  refine ⟨?_, congrArg (·.2.1) taken, takeRecord_touches s⟩
  have ring : (takeRecord s).ring 0 = v.ring 0 := congrArg (·.1) taken
  rw [ring, head]

theorem inputRecord_early {s : State} {r : Bytes} (takes : takesInput s = true)
    (far : 16 ≤ ptrDiff (recFrame r) s.job.nextFrame) (near : ptrDiff (recFrame r) s.job.nextFrame < 0x80000000)
    (ps : List (Option Bytes)) :
    inputRecord r ps s = { s with host := { s.host with heldFrame := some (recFrame r) } } := by
  have waits : (!decide (0x80000000 ≤ ptrDiff (recFrame r) s.job.nextFrame)
      && decide (16 ≤ ptrDiff (recFrame r) s.job.nextFrame)) = true := by
    rw [decide_eq_false (Nat.not_le.mpr near), decide_eq_true far]
    rfl
  unfold inputRecord
  rw [takes, Bool.not_true, if_neg Bool.false_ne_true]
  exact if_pos waits

theorem inputRecord_taken {s : State} {r : Bytes} (takes : takesInput s = true)
    (here : ptrDiff (recFrame r) s.job.nextFrame < 16 ∨ 0x80000000 ≤ ptrDiff (recFrame r) s.job.nextFrame)
    (ps : List (Option Bytes)) :
    inputRecord r ps s =
      if !(recordValid (takeRecord s).plan r && payloadsRead r ps) then raise 0x6902 (recFrame r) (takeRecord s)
      else if 0x80000000 ≤ ptrDiff (recFrame r) s.job.nextFrame then raise 0x6904 (recFrame r) (takeRecord s)
      else { takeRecord s with host := { (takeRecord s).host with
        conds := (takeRecord s).host.conds ++ [⟨recFrame r, s.host.arrivals.headD s.now, recordSegments r ps⟩] } } := by
  have goes : (!decide (0x80000000 ≤ ptrDiff (recFrame r) s.job.nextFrame)
      && decide (16 ≤ ptrDiff (recFrame r) s.job.nextFrame)) = false := by
    obtain h | h := here
    · rw [decide_eq_false (Nat.not_le.mpr h), Bool.and_false]
    · rw [decide_eq_true h]
      rfl
  unfold inputRecord
  rw [takes, Bool.not_true, if_neg Bool.false_ne_true]
  exact if_neg (Bool.eq_false_iff.mp goes)

theorem served_of_takesInput {s : State} (h : takesInput s = true) : s.served 0 = true := by
  simp only [takesInput, Bool.and_eq_true] at h
  exact h.1.1.1

theorem takeRecord_plan (s : State) : (takeRecord s).plan = s.plan :=
  plan_congr (takeRecord_touches s).job_eq (takeRecord_touches s).dawn_eq

/-- A record that is discarded frees its entry and is reported. -/
theorem takeRecord_reported {s : State} (served : s.served 0 = true) {code : Nat} (kind : (code / 256 == 0x19) = false)
    (arg : Nat) :
    let u := raise code arg (takeRecord s)
    (u.ring 0).mine = ptrAdd (s.ring 0).mine 1 ∧ u.job = s.job ∧ u.host.conds = s.host.conds ∧ u.newest = some code := by
  intro u
  obtain ⟨mine, conds, touched⟩ := takeRecord_effect served
  have inward : u.inward = (takeRecord s).inward := raise_inward ..
  have ring : u.ring 0 = (takeRecord s).ring 0 := congrArg (·.1) inward
  exact ⟨ring ▸ mine, (raise_job kind ..).trans touched.job_eq, (congrArg (·.2.1) inward).trans conds, raise_newest ..⟩

/-- Settles O29. -/
theorem inputRecordsArePairedWithFrames : Obligations.InputRecordsArePairedWithFrames := by
  unfold Obligations.InputRecordsArePairedWithFrames
  intro t r ps s takes
  have served := served_of_takesInput takes
  have valid : recordValid (takeRecord (s.arrive t)).plan r = recordValid s.plan r :=
    congrArg (recordValid · r) (takeRecord_plan (s.arrive t))
  refine ⟨fun near => ?_, fun far near => ?_, fun past => ?_⟩
  · have taken := inputRecord_taken (s := s.arrive t) takes (.inl near) ps
    rw [State.arrive_job] at taken
    by_cases ok : (recordValid s.plan r && payloadsRead r ps) = true
    · rw [valid, ok, Bool.not_true, if_neg Bool.false_ne_true, if_neg (by omega)] at taken
      obtain ⟨mine, conds, touched⟩ := takeRecord_effect (s := s.arrive t) served
      refine ⟨_, congrArg Host.Outcome.next taken, mine, touched.job_eq, fun _ => ?_, fun bad => ?_⟩
      · rw [conds]
        rfl
      · exact absurd (ok.symm.trans bad) (by decide)
    · rw [valid, Bool.eq_false_iff.mpr ok, Bool.not_false, if_pos rfl] at taken
      obtain ⟨mine, job, conds, newest⟩ := takeRecord_reported (s := s.arrive t) served (code := 0x6902) (by decide) (recFrame r)
      exact ⟨_, congrArg Host.Outcome.next taken, mine, job, fun good => absurd good ok, fun _ => ⟨conds, newest⟩⟩
  · exact ⟨_, congrArg Host.Outcome.next (inputRecord_early (s := s.arrive t) takes far near ps), rfl, rfl, rfl⟩
  · have taken := inputRecord_taken (s := s.arrive t) takes (.inr past) ps
    rw [State.arrive_job] at taken
    by_cases ok : (recordValid s.plan r && payloadsRead r ps) = true
    · rw [valid, ok, Bool.not_true, if_neg Bool.false_ne_true, if_pos past] at taken
      obtain ⟨mine, -, conds, newest⟩ := takeRecord_reported (s := s.arrive t) served (code := 0x6904) (by decide) (recFrame r)
      rw [ok]
      exact ⟨_, congrArg Host.Outcome.next taken, conds, mine, newest⟩
    · rw [valid, Bool.eq_false_iff.mpr ok, Bool.not_false, if_pos rfl] at taken
      obtain ⟨mine, -, conds, newest⟩ := takeRecord_reported (s := s.arrive t) served (code := 0x6902) (by decide) (recFrame r)
      rw [Bool.eq_false_iff.mpr ok]
      exact ⟨_, congrArg Host.Outcome.next taken, conds, mine, newest⟩

end Sys2Proof.Machine
end

section
/-! PROOFS. Power and trips (R370, R436 to R443, R459). -/

namespace Sys2Proof.Machine

set_option Elab.async false

/-! ### PWR_EN is evaluated -/

/-- SENSE_N has been closed for 100 ms, and nothing else keeps Dawn from its start. -/
def State.mayPower (s : State) : Prop :=
  s.stratus.supply = true ∧ s.stratus.pwrEn = true ∧ s.stratus.vinOk = true ∧ s.dawn.phase = .unpowered
    ∧ ∃ c, s.stratus.senseClosed = some c ∧ c + ms 100 ≤ s.now

theorem evaluatePower_of_standby {s : State} (may : s.mayPower) (phase : s.stratus.phase = .standby) :
    evaluatePower s = coldReset s := by
  obtain ⟨supply, pwrEn, vin, unpowered, c, closed, long⟩ := may
  unfold evaluatePower
  simp only [supply, pwrEn, vin, unpowered, closed, decide_eq_true long, beq_self_eq_true, Bool.and_self, if_true, phase]

theorem evaluatePower_of_safe {s : State} (may : s.mayPower) (phase : s.stratus.phase = .safe) :
    evaluatePower s = { s with stratus := { s.stratus with holdCode := 0x5D01 } } := by
  obtain ⟨supply, pwrEn, vin, unpowered, c, closed, long⟩ := may
  unfold evaluatePower
  simp only [supply, pwrEn, vin, unpowered, closed, decide_eq_true long, beq_self_eq_true, Bool.and_self, if_true, phase]

theorem evaluatePower_of_not {s : State} (h : ¬ s.mayPower) : evaluatePower s = s := by
  refine if_neg fun ok => h ?_
  simp only [Bool.and_eq_true, beq_iff_eq] at ok
  obtain ⟨⟨⟨⟨supply, pwrEn⟩, vin⟩, closed⟩, unpowered⟩ := ok
  split at closed
  next c since => exact ⟨supply, pwrEn, vin, unpowered, c, since, of_decide_eq_true closed⟩
  next => exact absurd closed Bool.false_ne_true

/-- From standby, Dawn starts or nothing happens. -/
theorem evaluatePower_cases {s : State} (phase : s.stratus.phase = .standby) :
    evaluatePower s = coldReset s ∨ evaluatePower s = s := by
  by_cases may : s.mayPower
  · exact .inl (evaluatePower_of_standby may phase)
  · exact .inr (evaluatePower_of_not may)

/-! ### Power removed -/

theorem removePower_offAt (s : State) : (removePower s).offAt s.now := ⟨rfl, rfl, rfl, rfl, rfl, rfl⟩

theorem trip_tripped (code : Nat) (opens : Bool) (s : State) : (trip code opens s).tripped code s.now :=
  ⟨rfl, ⟨_, rfl, rfl, rfl⟩, rfl, rfl, rfl, rfl, rfl, rfl, rfl, rfl, rfl⟩

theorem trip_keeps (code : Nat) (opens : Bool) (s : State) :
    (trip code opens s).flash = s.flash ∧ (trip code opens s).mem.store = s.mem.store
      ∧ (trip code opens s).stratus.switch = (s.stratus.switch && !opens) := ⟨rfl, rfl, rfl⟩

/-! ### The obligation -/

/-- What PWR_EN_ASSERT notes where PWR_EN was deasserted before. -/
def pwrAsserted (low : Time) (vinOk : Bool) (s : State) : State :=
  { s with
    stratus := { s.stratus with
      pwrEn := true, vinOk := vinOk, pwrLow := none, mpEnable := true, healthy := true, driveCut := false,
      cycled := s.stratus.cycled || low + sec 1 ≤ s.now },
    nimbus := { s.nimbus with valveLatch := false, plausLatch := false } }

theorem pwrAsserted_cycled (low : Time) (vinOk : Bool) (s : State) :
    (pwrAsserted low vinOk s).stratus.cycled = true ↔ s.stratus.cycled = true ∨ low + sec 1 ≤ s.now := by
  rw [pwrAsserted]
  simp only [Bool.or_eq_true, decide_eq_true_eq]

theorem pwrEnAssert_runs {s : State} {low : Time} (h : s.stratus.pwrLow = some low) (t : Nat) (vinOk : Bool) :
    exec (.pwrEnAssert ⟨t, vinOk⟩) s = .next (evaluatePower (pwrAsserted low vinOk (s.arrive t))) := by
  have here : (s.arrive t).stratus.pwrLow = some low := h
  refine congrArg Host.Outcome.next ?_
  dsimp only
  rw [here]
  rfl

/-- Stratus as its supply returns. -/
def supplyReturned (pwrEn sense vinOk : Bool) (s : State) : State :=
  { s with stratus := { s.stratus with
      supply := true, phase := .standby, pwrEn := pwrEn, vinOk := vinOk,
      pwrLow := if pwrEn then none else some s.now,
      senseClosed := if sense then some s.now else none, healthy := true, mpEnable := true } }

theorem supplyReturn_runs {s : State} (dead : s.stratus.supply = false) (t : Nat) (pwrEn sense vinOk : Bool) :
    exec (.stratusSupplyReturn t ⟨pwrEn, sense⟩ vinOk) s
      = .next (evaluatePower (supplyReturned pwrEn sense vinOk (s.arrive t))) :=
  congrArg Host.Outcome.next (if_neg (Bool.eq_false_iff.mp dead))

/-- SENSE_N has not been closed for 100 ms when the supply returns. -/
theorem not_mayPower_returned (pwrEn sense vinOk : Bool) (s : State) :
    ¬ (supplyReturned pwrEn sense vinOk s).mayPower := by
  rintro ⟨-, -, -, -, c, closed, long⟩
  have wait : 0 < ms 100 := by decide
  have since : (if sense then some s.now else none) = some c := closed
  have long' : c + ms 100 ≤ s.now := long
  split at since
  · rw [← Option.some.inj since] at long'
    exact absurd long' (Nat.not_le.mpr (Nat.lt_add_of_pos_right wait))
  · exact nomatch since

theorem safeStateExit_runs {s : State} {a : Time} {r : Readings} (t : Nat) (phase : s.stratus.phase = .safe)
    (since : s.stratus.tripAt = some a) (cycled : s.stratus.cycled = true) (pwrEn : s.stratus.pwrEn = true)
    (waited : a + sec 60 ≤ max s.now t) (calm : noTripHolds r = true) :
    exec (.safeStateExit ⟨t, r⟩) s = .next (evaluatePower { s.arrive t with
        nimbus := { s.nimbus with readings := r },
        stratus := { s.stratus with phase := .standby, holdCode := 0, switch := false },
        sideband := { s.sideband with faultN := false } }) := by
  have waited' : decide (a + sec 60 ≤ (s.arrive t).now) = true := decide_eq_true waited
  refine congrArg Host.Outcome.next (if_pos ?_)
  simp only [State.arrive_stratus, phase, since, cycled, pwrEn, waited', calm, beq_self_eq_true, Bool.and_self]

theorem safeStateExit_holds {s : State} {a : Time} {r : Readings} (t : Nat) (since : s.stratus.tripAt = some a)
    (h : s.stratus.cycled = false ∨ max s.now t < a + sec 60 ∨ noTripHolds r = false) :
    exec (.safeStateExit ⟨t, r⟩) s = .next (s.arrive t) := by
  refine congrArg Host.Outcome.next (if_neg fun ok => ?_)
  simp only [State.arrive_stratus, since, Bool.and_eq_true] at ok
  obtain ⟨⟨⟨⟨-, cycled⟩, -⟩, waited⟩, calm⟩ := ok
  obtain h | h | h := h
  · exact absurd (cycled.symm.trans h) (by decide)
  · exact absurd (of_decide_eq_true waited) (Nat.not_le.mpr h)
  · exact absurd (calm.symm.trans h) (by decide)

theorem stratusTrip_runs {s : State} {code : Nat} {opens : Bool} {r : Readings} (t : Nat) (supply : s.stratus.supply = true)
    (paths : tripPaths code = some opens) (other : code ≠ 0x5A01) (holds : code = 0x5A0B ∨ tripHolds r code = true) :
    exec (.stratusTrip t ⟨code, r⟩) s
      = .next (trip code opens { s.arrive t with nimbus := { s.nimbus with readings := r } }) := by
  have due : ((s.arrive t).stratus.supply && code != 0x5A01 && (code == 0x5A0B || tripHolds r code)) = true := by
    rw [State.arrive_stratus, supply, bne_iff_ne.mpr other]
    obtain rfl | h := holds
    · rfl
    · rw [h, Bool.or_true]
      rfl
  refine congrArg Host.Outcome.next ?_
  dsimp only
  rw [paths]
  exact if_pos due

theorem stratusTrip_ignored {s : State} {code : Nat} {r : Readings} (t : Nat) (other : code ≠ 0x5A0B)
    (calm : tripHolds r code = false) : exec (.stratusTrip t ⟨code, r⟩) s = .next (s.arrive t) := by
  have idle : ((s.arrive t).stratus.supply && code != 0x5A01 && (code == 0x5A0B || tripHolds r code)) = false := by
    rw [beq_eq_false_iff_ne.mpr other, calm, Bool.or_self, Bool.and_false]
  refine congrArg Host.Outcome.next ?_
  dsimp only
  split
  · exact if_neg (Bool.eq_false_iff.mp idle)
  · rfl

/-- Settles O55. -/
theorem powerAndTrips : Obligations.PowerAndTrips := by
  unfold Obligations.PowerAndTrips
  refine ⟨fun t s => ?_, fun t s => ?_⟩ <;> intro now
  · refine ⟨fun low c wasLow supply unpowered closed long => ⟨fun standby => ?_, fun safe => ?_⟩, fun low wasLow => ?_,
      fun powered => ⟨fun supply pwrEn => ?_, ?_⟩, fun supply pwrEn standby unpowered never old vin => ?_, ?_,
      fun pwrEn sense vin dead => ?_⟩
    · have may : (pwrAsserted low true (s.arrive t)).mayPower := ⟨supply, rfl, rfl, unpowered, c, closed, long⟩
      have runs := pwrEnAssert_runs wasLow t true
      rw [evaluatePower_of_standby may standby] at runs
      exact ⟨_, runs, rfl, rfl, rfl, rfl, rfl, rfl, rfl⟩
    · have may : (pwrAsserted low true (s.arrive t)).mayPower := ⟨supply, rfl, rfl, unpowered, c, closed, long⟩
      have runs := pwrEnAssert_runs wasLow t true
      rw [evaluatePower_of_safe may safe] at runs
      exact ⟨_, runs, rfl, unpowered, safe, pwrAsserted_cycled low true (s.arrive t)⟩
    · have runs := pwrEnAssert_runs wasLow t false
      rw [evaluatePower_of_not fun may => absurd may.2.2.1 Bool.false_ne_true] at runs
      exact ⟨_, runs, rfl, rfl, rfl⟩
    · have off : ((s.arrive t).dawn.phase == .unpowered) = false := beq_eq_false_iff_ne.mpr powered
      have runs : exec (.pwrEnDeassert t) s = .next { removePower (s.arrive t) with
          stratus := { (removePower (s.arrive t)).stratus with pwrEn := false, pwrLow := some now } } := by
        refine congrArg Host.Outcome.next ?_
        dsimp only
        rw [off, State.arrive_stratus, supply, pwrEn]
        rfl
      exact ⟨_, runs, removePower_offAt (s.arrive t), rfl, rfl, rfl, rfl, rfl⟩
    · have off : ((s.arrive t).dawn.phase == .unpowered) = false := beq_eq_false_iff_ne.mpr powered
      have runs : exec (.senseNOpen t) s = .next { removePower (s.arrive t) with
          stratus := { (removePower (s.arrive t)).stratus with senseClosed := none } } := by
        refine congrArg Host.Outcome.next ?_
        dsimp only
        rw [off]
        rfl
      exact ⟨_, runs, removePower_offAt (s.arrive t), rfl, rfl, rfl, rfl⟩
    · have may : State.mayPower { s.arrive t with stratus := { s.stratus with
          senseClosed := s.stratus.senseClosed.or (some (max s.now t - ms 100)) } } := by
        refine ⟨supply, pwrEn, vin, unpowered, max s.now t - ms 100, ?_, Nat.le_of_eq (Nat.sub_add_cancel old)⟩
        rw [never]
        rfl
      have runs : exec (.senseNClosed t) s = .next _ := congrArg Host.Outcome.next (evaluatePower_of_standby may standby)
      exact ⟨_, runs, rfl, rfl, rfl⟩
    · exact ⟨_, rfl, rfl, rfl, rfl, rfl, rfl, rfl⟩
    · have runs := supplyReturn_runs dead t pwrEn sense vin
      rw [evaluatePower_of_not (not_mayPower_returned pwrEn sense vin _)] at runs
      exact ⟨_, runs, rfl, rfl, rfl, rfl, rfl, rfl⟩
  · refine ⟨fun supply => ⟨fun code opens r paths other holds => ?_, fun code r other calm => ?_, ?_, fun stage switch => ?_⟩,
      fun a r safe since => ⟨fun cycled pwrEn waited calm => ?_, safeStateExit_holds t since⟩⟩
    · exact ⟨_, stratusTrip_runs t supply paths other holds, trip_tripped .., trip_keeps ..⟩
    · exact stratusTrip_ignored t other calm
    · have runs : exec (.hwOvercurrentTrip t) s = .next (trip 0x5A01 true (s.arrive t)) :=
        congrArg Host.Outcome.next (if_pos supply)
      obtain ⟨flash, store, switch⟩ := trip_keeps 0x5A01 true (s.arrive t)
      exact ⟨_, runs, trip_tripped .., flash, store, switch.trans (Bool.and_false _)⟩
    · have due : ((s.arrive t).stratus.supply && !(s.arrive t).stratus.stage && (s.arrive t).stratus.switch) = true := by
        rw [State.arrive_stratus, supply, stage, switch]
        rfl
      have runs : exec (.powerStageConducting t) s = .next (trip 0x5A0C true (s.arrive t)) :=
        congrArg Host.Outcome.next (if_pos due)
      obtain ⟨-, -, opened⟩ := trip_keeps 0x5A0C true (s.arrive t)
      exact ⟨_, runs, trip_tripped .., opened.trans (Bool.and_false _)⟩
    · have runs := safeStateExit_runs t safe since cycled pwrEn waited calm
      refine ⟨_, runs, ?_⟩
      generalize hv : ({ s.arrive t with
        nimbus := { s.nimbus with readings := r },
        stratus := { s.stratus with phase := .standby, holdCode := 0, switch := false },
        sideband := { s.sideband with faultN := false } } : State) = v
      have standby : v.stratus.phase = .standby := by rw [← hv]
      have stratus : (evaluatePower v).stratus = v.stratus := by
        obtain h | h := evaluatePower_cases standby <;> rw [h]
        rfl
      rw [stratus]
      refine ⟨standby, by rw [← hv], by rw [← hv], fun c supply closed long vin unpowered => ?_⟩
      have may : v.mayPower := by
        rw [← hv]
        exact ⟨supply, pwrEn, vin, unpowered, c, closed, long⟩
      rw [evaluatePower_of_standby may standby]
      rfl

end Sys2Proof.Machine
end

section
/-! PROOFS. The window watchdog (R439, R444) and the module reset that it forces (R370). -/

namespace Sys2Proof.Machine

set_option Elab.async false

/-! ### The module reset -/

/-- A module in service restarts: warm while a job runs, else from the reset values. -/
theorem forceModuleReset_of_passed {s : State} (passed : s.dawn.phase = .passed) :
    (forceModuleReset s).dawn.due = true ∧ (forceModuleReset s).stratus = s.stratus
      ∧ (s.job.phase = .idle → (forceModuleReset s).dawn.phase = .cold) := by
  unfold forceModuleReset
  extract_lets warm counted begun
  rw [if_neg (by rw [passed]; decide)]
  have kept : counted.stratus = s.stratus := rfl
  split
  next run =>
    refine ⟨rfl, ((beginSquall_touches ..).stratus_eq).trans kept, fun idle => absurd run ?_⟩
    unfold warm
    rw [idle, passed]
    decide
  next => exact ⟨rfl, kept, fun _ => rfl⟩

/-- A running job without a Dusk cause is recovered by the warm Dawn that follows. -/
theorem forceModuleReset_of_runsOn {s : State} (passed : s.dawn.phase = .passed) (run : s.runsOn)
    (calm : s.job.dusk = none) :
    (forceModuleReset s).dawn.phase = .warm ∧ (forceModuleReset s).job.phase = .squall
      ∧ (forceModuleReset s).compute.runs = [] ∧ (forceModuleReset s).host = s.host := by
  have warm : (s.dawn.phase == .passed
      && (s.job.phase == .running || s.job.phase == .draining || s.job.phase == .squall)) = true := by
    rw [passed]
    obtain run | run := run <;> rw [run] <;> decide
  obtain ⟨squall, -⟩ := beginSquall_of_runsOn (s := countKind 10 (assertFault s)) run calm 3 none none s.inRing
  obtain ⟨-, runs, -⟩ := beginSquall_dead 3 none none s.inRing (countKind 10 (assertFault s))
  unfold forceModuleReset
  dsimp only
  rw [if_neg (by rw [passed]; decide), if_pos warm]
  exact ⟨rfl, squall, runs, (beginSquall_touches ..).host_eq⟩

/-! ### The services of the watchdog -/

/-- A service that Stratus takes: its window, its order and its CRC decide what becomes of the misses. -/
def watchdogServed (seq : Nat) (good : Bool) (s : State) : State :=
  let s := { s with stratus := { s.stratus with
    wdogAt := some s.now, wdogSeq := some seq, wdogMisses := if good then 0 else s.stratus.wdogMisses + 1 } }
  { s with host := { s.host with saf := safMirror s } }

theorem execWatchdogService_of_on {t a q : Nat} {s : State} (supply : s.stratus.supply = true)
    (on : s.stratus.phase = .on) (last : s.stratus.wdogAt = some a) (order : s.stratus.wdogSeq = some q)
    (seq : Nat) (crcOk : Bool) :
    exec (.watchdogService t seq crcOk) s = .next (watchdogServed seq
      ((decide (a + ms 5 ≤ max s.now t) && decide (max s.now t ≤ a + ms 15)) && (seq == q + 1) && crcOk) (s.arrive t)) := by
  have taken : ((s.arrive t).stratus.supply && (s.arrive t).stratus.phase == .on) = true := by
    rw [State.arrive_stratus, supply, on]
    rfl
  refine (congrArg Host.Outcome.next (if_pos taken)).trans ?_
  simp only [State.arrive_stratus, last, order]
  rfl

theorem watchdogServed_good {s : State} (seq : Nat) :
    (watchdogServed seq true s).stratus.wdogMisses = 0 := rfl

theorem watchdogServed_bad {s : State} (seq : Nat) :
    (watchdogServed seq false s).stratus.wdogMisses = s.stratus.wdogMisses + 1 := rfl

/-! ### A miss -/

/-- The state that a watchdog miss resets: reported, with valve drive cut and the watchdog stopped. -/
def watchdogCut (s : State) : State :=
  let s := raiseAs 0x5C01 false .stratus true 0 s
  { s with stratus := { s.stratus with driveCut := true, wdogMisses := 0, wdogAt := none, wdogSeq := none } }

theorem watchdogCut_job (s : State) : (watchdogCut s).job = s.job := raiseAs_job ..

theorem watchdogCut_dawn (s : State) : (watchdogCut s).dawn = s.dawn := raiseAs_dawn ..

theorem execWatchdogMiss_of_due {t : Nat} {s : State} (supply : s.stratus.supply = true) (on : s.stratus.phase = .on)
    (due : 2 ≤ missesNow (s.arrive t)) :
    exec (.watchdogMiss t) s = .next (forceModuleReset (watchdogCut (s.arrive t))) := by
  have taken : ((s.arrive t).stratus.supply && (s.arrive t).stratus.phase == .on
      && decide (2 ≤ missesNow (s.arrive t))) = true := by
    rw [State.arrive_stratus, supply, on, decide_eq_true due]
    rfl
  exact congrArg Host.Outcome.next (if_pos taken)

/-- Without a service the misses counted so far are all. -/
theorem missesNow_of_none {s : State} (none' : s.stratus.wdogAt = none) : missesNow s = s.stratus.wdogMisses := by
  unfold missesNow
  rw [none']

/-! ### The obligation -/

/-- Settles O56. -/
theorem watchdogGuardsBothSides : Obligations.WatchdogGuardsBothSides := by
  unfold Obligations.WatchdogGuardsBothSides
  intro t s now
  refine ⟨fun a q seq crcOk supply on last order => ?_, fun supply on due passed => ?_, fun none' few => ?_,
    fun passed healthy => ?_⟩
  · refine ⟨_, execWatchdogService_of_on supply on last order seq crcOk, rfl, rfl, rfl, rfl, fun good => ?_, fun bad => ?_⟩
    · obtain ⟨early, late, next, ok⟩ := good
      rw [decide_eq_true early, decide_eq_true late, next, ok, beq_self_eq_true]
      exact watchdogServed_good _
    · have unserved : ((decide (a + ms 5 ≤ now) && decide (now ≤ a + ms 15)) && (seq == q + 1) && crcOk) = false :=
        Bool.eq_false_iff.mpr fun good =>
          bad (by simpa only [Bool.and_eq_true, decide_eq_true_eq, beq_iff_eq, and_assoc] using good)
      rw [unserved]
      exact watchdogServed_bad _
  · obtain ⟨restarted, kept, cold⟩ := forceModuleReset_of_passed (s := watchdogCut (s.arrive t))
      ((congrArg (·.phase) (watchdogCut_dawn (s.arrive t))).trans passed)
    refine ⟨_, execWatchdogMiss_of_due supply on due, congrArg (·.driveCut) kept, restarted, fun idle => cold ?_,
      fun run calm => ?_⟩
    · rw [watchdogCut_job]
      exact idle
    · obtain ⟨warm, squall, runs, host⟩ := forceModuleReset_of_runsOn (s := watchdogCut (s.arrive t))
        ((congrArg (·.phase) (watchdogCut_dawn (s.arrive t))).trans passed)
        (by rw [State.runsOn, watchdogCut_job]; exact run) (by rw [watchdogCut_job]; exact calm)
      exact ⟨warm, squall, runs, by rw [State.newest, host]; exact raiseAs_newest ..⟩
  · refine congrArg Host.Outcome.next (if_neg ?_)
    rw [missesNow_of_none (s := s.arrive t) none', State.arrive_stratus, decide_eq_false (Nat.not_le.mpr few),
      Bool.and_false]
    decide
  · have stands : ((s.arrive t).dawn.phase == .passed && (s.arrive t).stratus.healthy) = true := by
      rw [State.arrive_dawn, State.arrive_stratus, passed, healthy]
      rfl
    exact ⟨_, congrArg Host.Outcome.next (if_pos stands), rfl, rfl, rfl, rfl, rfl, rfl⟩

end Sys2Proof.Machine
end

section
/-! PROOFS. Nimbus: what it samples, the valve command and the causes of Dusk that it raises (R426, R431, R433, R436). -/

namespace Sys2Proof.Machine

set_option Elab.async false

/-! ### Sampling -/

/-- A sample enters what Nimbus read and computed; of the rest it draws hardware choices alone. -/
theorem sample_keeps (r : Readings) (s : State) :
    (sample r s).job = s.job ∧ (sample r s).tick = s.tick ∧ (sample r s).mem = s.mem := ⟨rfl, rfl, rfl⟩

theorem sample_readings (r : Readings) (s : State) :
    (sample r s).nimbus.readings = r ∧ (sample r s).nimbus.inputW = wattsOf r
      ∧ (sample r s).nimbus.sampled = some s.now := ⟨rfl, rfl, rfl⟩

/-- The store takes what the inputs gave beyond the load since the last sample, up to its capacity. -/
theorem sample_store {r : Readings} {s : State} {a : Time} (last : s.nimbus.sampled = some a) :
    (sample r s).nimbus.store
      = min 10000 (s.nimbus.store + ((wattsOf r : Int) - r.loadW) * ((s.now - a) / us 1 : Nat) / 1000) := by
  unfold sample
  dsimp only
  rw [last]
  dsimp only [State.free]
  split <;> omega

theorem map_fst_of_named {f : Nat → Nat × Time} (named : ∀ c, (f c).1 = c) (cs : List Nat) :
    (cs.map f).map (·.1) = cs := by
  rw [List.map_map]
  exact (List.map_congr_left fun c _ => named c).trans (List.map_id cs)

/-- The conditions that hold are those of the readings now, each with the instant from which it holds. -/
theorem sample_holding (r : Readings) (s : State) :
    (sample r s).nimbus.holding.map (·.1) = conditionsNow (sample r s) := by
  unfold sample
  refine map_fst_of_named (fun c => ?_) _
  dsimp only
  split
  next p found => exact beq_iff_eq.mp (List.find?_some (p := fun q : Nat × Time => q.1 == c) found)
  next => rfl

/-! ### The valve -/

theorem clampInt_bounds {lo hi : Int} (h : lo ≤ hi) (i : Int) : lo ≤ clampInt lo hi i ∧ clampInt lo hi i ≤ hi := by
  unfold clampInt
  split
  · omega
  · split <;> omega

theorem updateValve_bounds (s : State) : 30 ≤ (updateValve s).nimbus.command ∧ (updateValve s).nimbus.command ≤ 100 := by
  have bounds (c : Int) : 30 ≤ (clampInt 30 100 c).toNat ∧ (clampInt 30 100 c).toNat ≤ 100 := by
    have := clampInt_bounds (show (30 : Int) ≤ 100 by decide) c
    omega
  exact bounds _

/-! ### Causes of Dusk -/

/-- A job that runs, drains or recovers ends with its first cause. -/
theorem causeDusk_of_live {s : State} (live : s.job.phase = .running ∨ s.job.phase = .draining ∨ s.job.phase = .squall)
    (code : Nat) :
    (causeDusk code s).job.dusk = s.job.dusk.or (some ⟨.dusk, code, s.tick.index⟩)
      ∧ (causeDusk code s).job.phase = s.job.phase := by
  have reported (u : State) (b : Bool) : (if b then reportToHead 0 (toLe 2 code) u else u).job = u.job := by
    split
    · exact (reportToHead_touches ..).job_eq
    · rfl
  have dusk (u : State) (b : Bool) : (if b then reportToHead 0 (toLe 2 code) u else u).job.dusk = u.job.dusk := by
    rw [reported]
  have phase (u : State) (b : Bool) : (if b then reportToHead 0 (toLe 2 code) u else u).job.phase = u.job.phase := by
    rw [reported]
  unfold causeDusk
  obtain run | run | run := live <;> rw [run] <;> dsimp only
  all_goals
    split
    next caused => exact ⟨by rw [caused]; rfl, run⟩
    next calm =>
      refine ⟨(dusk ..).trans ?_, (phase ..).trans run⟩
      rw [calm]
      rfl

/-- A safety code is in force and reported, and the job that runs takes it as a cause of its end. -/
theorem safetyDusk_effect (code : Nat) (s : State) :
    (safetyDusk code s).nimbus.duskCode = code ∧ code ∈ (safetyDusk code s).nimbus.inForce
      ∧ (safetyDusk code s).nimbus.plausLatch = (s.nimbus.plausLatch || code == 0x5909)
      ∧ (safetyDusk code s).newest = some code
      ∧ ((s.job.phase = .running ∨ s.job.phase = .draining ∨ s.job.phase = .squall) →
        (safetyDusk code s).job.dusk = s.job.dusk.or (some ⟨.dusk, code, s.tick.index⟩)
          ∧ (safetyDusk code s).job.phase = s.job.phase) := by
  have member (l : List Nat) : code ∈ (if l.contains code then l else l ++ [code]) := by
    split
    next h => exact List.contains_iff_mem.mp h
    next => exact List.mem_append_right _ (List.mem_singleton_self _)
  unfold safetyDusk
  extract_lets _ entered _ cut
  have job : cut.job = s.job := by
    unfold cut
    split <;> rfl
  have tick : cut.tick = s.tick := by
    unfold cut
    split <;> rfl
  have nimbus : cut.nimbus = entered.nimbus := by
    unfold cut
    split <;> rfl
  have raised := raiseAs_touches code (!cut.hasJob) .management false 0 cut
  have caused := causeDusk_touches code (raiseAs code (!cut.hasJob) .management false 0 cut)
  have entered' := caused.nimbus_eq.trans (raised.nimbus_eq.trans nimbus)
  have phase : (raiseAs code (!cut.hasJob) .management false 0 cut).job.phase = s.job.phase :=
    (raiseAs_phase ..).trans (congrArg (·.phase) job)
  have dusk : (raiseAs code (!cut.hasJob) .management false 0 cut).job.dusk = s.job.dusk := by
    rw [raiseAs_job, job]
    split <;> rfl
  refine ⟨congrArg (·.duskCode) entered', ?_, congrArg (·.plausLatch) entered', ?_, fun live => ?_⟩
  · rw [entered']
    exact member _
  · rw [State.newest, caused.host_eq]
    exact raiseAs_newest ..
  · obtain ⟨ends, stays⟩ := causeDusk_of_live (phase ▸ live) code
    rw [raised.tick_eq, tick, dusk] at ends
    exact ⟨ends, stays.trans phase⟩

/-! ### The obligation -/

/-- Settles O57. -/
theorem nimbusMeasuresAndWarns : Obligations.NimbusMeasuresAndWarns := by
  unfold Obligations.NimbusMeasuresAndWarns
  intro t s
  refine ⟨fun r a powered last => ?_, fun powered => ?_, fun code since held confirmed fresh passed => ?_,
    fun pair on fresh apart => ?_⟩
  · have taken : ¬ ((s.arrive t).dawn.phase == .unpowered) = true := by simpa using powered
    obtain ⟨readings, inputW, sampled⟩ := sample_readings r (s.arrive t)
    have named := sample_holding r (s.arrive t)
    obtain ⟨job, tick, mem⟩ := sample_keeps r (s.arrive t)
    refine ⟨_, congrArg Host.Outcome.next (if_neg taken), readings, inputW, sample_store (s := s.arrive t) last, sampled,
      fun c hc => ?_, fun c hc => ?_, job, tick, mem⟩
    · rw [← named]
      exact List.mem_map_of_mem hc
    · rw [← named] at hc
      obtain ⟨h, hh, rfl⟩ := List.mem_map.mp hc
      exact ⟨h, hh, rfl⟩
  · have taken : ¬ ((s.arrive t).dawn.phase == .unpowered) = true := by simpa using powered
    obtain ⟨low, high⟩ := updateValve_bounds (s.arrive t)
    exact ⟨_, congrArg Host.Outcome.next (if_neg taken), low, high, rfl, rfl⟩
  · obtain ⟨duskCode, inForce, -, newest, live⟩ := safetyDusk_effect code (s.arrive t)
    refine ⟨_, congrArg Host.Outcome.next ?_, duskCode, inForce, newest, live⟩
    have due : (decide (since + confirmTime code ≤ (s.arrive t).now) && !(s.arrive t).nimbus.inForce.contains code
        && (s.arrive t).dawn.phase == .passed) = true := by
      rw [State.arrive_nimbus, State.arrive_dawn, fresh, passed, State.arrive_now, decide_eq_true confirmed]
      rfl
    rw [State.arrive_nimbus, held]
    exact if_pos due
  · obtain ⟨-, -, latch, newest, live⟩ := safetyDusk_effect 0x5909 (s.arrive t)
    have due : (decide ((pairDiff (s.arrive t).nimbus.readings pair).2 < (pairDiff (s.arrive t).nimbus.readings pair).1)
        && (s.arrive t).stratus.phase == .on && !(s.arrive t).nimbus.inForce.contains 0x5909) = true := by
      rw [State.arrive_nimbus, State.arrive_stratus, fresh, on, decide_eq_true apart]
      rfl
    exact ⟨_, congrArg Host.Outcome.next (if_pos due), latch.trans (Bool.or_true _), newest, fun run => (live run).1⟩

end Sys2Proof.Machine
end

section
/-! PROOFS. The I3C targets of the sideband (R454 to R456). -/

namespace Sys2Proof.Machine

set_option Elab.async false

/-! ### What a target answers -/

theorem answer_of_answers {s : State} {target : Target} (h : targetAnswers s target = true) (b : Bytes) :
    (answer target b s).host.readData = b := if_pos h

theorem answer_of_silent {s : State} {target : Target} (h : targetAnswers s target = false) (b : Bytes) :
    (answer target b s).host.readData = [] := if_neg (by rw [h]; decide)

@[simp] theorem targetAnswers_arrive (s : State) (t : Time) (target : Target) :
    targetAnswers (s.arrive t) target = targetAnswers s target := by
  cases target <;> rfl

@[simp] theorem targetAnswers_dropRecord (s : State) (target : Target) :
    targetAnswers (dropRecord s) target = targetAnswers s target := by
  cases target <;> rfl

theorem setDynamic_management {s : State} (h : targetAnswers s .management = true) (address : BitVec 7) :
    (setDynamic .management address s).sideband = { s.sideband with dynManagement := some address } := by
  unfold setDynamic
  rw [if_pos h]

theorem setDynamic_stratus {s : State} (h : targetAnswers s .stratus = true) (address : BitVec 7) :
    (setDynamic .stratus address s).sideband = { s.sideband with dynStratus := some address } := by
  unfold setDynamic
  rw [if_pos h]

theorem setDynamic_named {s : State} {target : Target} (h : targetAnswers s target = true) (address : BitVec 7) :
    (target = .management
        → (setDynamic target address s).sideband = { s.sideband with dynManagement := some address })
      ∧ (target = .stratus → (setDynamic target address s).sideband = { s.sideband with dynStratus := some address }) :=
  ⟨fun e => by subst e; exact setDynamic_management h address, fun e => by subst e; exact setDynamic_stratus h address⟩

/-! ### Event records and in-band interrupts -/

/-- An event record has 32 bytes (Table 13.14). -/
theorem EventRec.length_bytes (e : EventRec) : e.bytes.length = 32 := by
  unfold EventRec.bytes
  simp only [List.length_append, length_toLe]

/-- An interrupt carries its record whole where the maximum read length admits it or is not set. -/
theorem interruptBytes_of_room {s : State} (e : EventRec) (room : s.sideband.maxRead = 0 ∨ 33 ≤ s.sideband.maxRead) :
    interruptBytes s e = 0xA7 :: e.bytes := by
  unfold interruptBytes
  obtain unset | room := room
  · rw [unset]
    rfl
  · refine (if_neg (by simp; omega)).trans (List.take_of_length_le ?_)
    rw [List.length_cons, e.length_bytes]
    exact room

theorem dropRecord_queue {s : State} {e : EventRec} {rest : List EventRec} (h : s.sideband.queue = e :: rest) :
    (dropRecord s).sideband.queue = rest := congrArg (List.drop 1) h

theorem execInBandInterruptRetry_of_due {t : Time} {s : State} {e : EventRec} {rest : List EventRec}
    (answers : targetAnswers s .management = true) (queue : s.sideband.queue = e :: rest)
    (late : ∀ a, s.sideband.refusedAt = some a → a + ms 10 ≤ max s.now t) (accepted : Bool) :
    exec (.inBandInterruptRetry t accepted) s = .next (if accepted then
        answer .management (interruptBytes (s.arrive t) e) (dropRecord (s.arrive t))
      else { s.arrive t with sideband := { s.sideband with refusedAt := some (max s.now t) } }) := by
  refine (congrArg Host.Outcome.next ?_ : _ = Host.Outcome.next _)
  dsimp only
  rw [State.arrive_sideband, queue]
  refine if_pos ?_
  rw [Bool.and_eq_true]
  refine ⟨answers, ?_⟩
  split
  next a refused => exact decide_eq_true (late a refused)
  next => rfl

theorem execI3cEvent_of_some {t : Time} {s : State} {e : EventRec} {rest : List EventRec}
    (answers : targetAnswers s .management = true) (queue : s.sideband.queue = e :: rest) :
    exec (.i3cEvent t) s = .next (answer .management e.bytes (dropRecord (s.arrive t))) := by
  refine (congrArg Host.Outcome.next ?_ : _ = Host.Outcome.next _)
  rw [State.arrive_sideband, queue]
  exact if_pos answers

/-! ### The trip memory -/

/-- The trip memory is read by index: a trip that it holds, else an empty entry. -/
theorem execI3cTrip_of_lt {t n : Nat} (h : n < 16) (s : State) :
    exec (.i3cTrip t n) s = .next (answer .stratus (match s.stratus.trips[n]? with
      | some e => tripBytes (s.arrive t) e | none => emptyTrip) (s.arrive t)) := by
  refine (congrArg (fun b => Host.Outcome.next (answer .stratus b (s.arrive t))) (if_neg (Nat.not_lt.mpr (Nat.le_of_lt_succ h))) :
    _ = Host.Outcome.next _)

/-! ### The obligation -/

/-- Settles O59. -/
theorem sidebandTargetsAnswer : Obligations.SidebandTargetsAnswer := by
  unfold Obligations.SidebandTargetsAnswer
  intro t s
  refine ⟨fun target address answers c hc => ?_, fun answers => ⟨⟨_, rfl, answer_of_answers ((targetAnswers_arrive ..).trans answers) _, rfl⟩,
    ⟨_, rfl, answer_of_answers ((targetAnswers_arrive ..).trans answers) _⟩, fun empty => ?_, fun e rest queue => ?_, fun v => ?_,
    fun e rest queue late => ⟨?_, ?_⟩⟩, fun answers => ⟨⟨_, rfl, answer_of_answers ((targetAnswers_arrive ..).trans answers) _⟩,
    fun n e few held => ?_, fun n few empty => ?_⟩, fun target => ⟨_, rfl, fun answers => ?_, fun silent => ?_, rfl⟩⟩
  · refine ⟨setDynamic target address (s.arrive t), ?_, setDynamic_named ((targetAnswers_arrive ..).trans answers) address⟩
    simp only [List.mem_cons, List.not_mem_nil, or_false] at hc
    obtain rfl | rfl := hc <;> rfl
  · refine ⟨answer .management (zeros 32) (s.arrive t), congrArg Host.Outcome.next ?_,
      answer_of_answers ((targetAnswers_arrive ..).trans answers) _, rfl⟩
    rw [State.arrive_sideband, empty]
  · exact ⟨_, execI3cEvent_of_some answers queue, answer_of_answers ((targetAnswers_dropRecord ..).trans ((targetAnswers_arrive ..).trans answers)) _,
      dropRecord_queue (s := s.arrive t) queue⟩
  · exact ⟨_, congrArg Host.Outcome.next (if_pos (c := targetAnswers (s.arrive t) .management = true) answers), rfl, rfl⟩
  · exact ⟨_, execInBandInterruptRetry_of_due answers queue late true, dropRecord_queue (s := s.arrive t) queue,
      fun room => (answer_of_answers ((targetAnswers_dropRecord ..).trans ((targetAnswers_arrive ..).trans answers)) _).trans
        (interruptBytes_of_room (s := s.arrive t) e room)⟩
  · exact ⟨_, execInBandInterruptRetry_of_due answers queue late false, rfl, rfl⟩
  · refine ⟨_, execI3cTrip_of_lt few s, (answer_of_answers ((targetAnswers_arrive ..).trans answers) _).trans ?_⟩
    rw [held]
  · refine ⟨_, execI3cTrip_of_lt few s, (answer_of_answers ((targetAnswers_arrive ..).trans answers) _).trans ?_⟩
    rw [empty]
    rfl
  · exact answer_of_answers ((targetAnswers_arrive ..).trans answers) _
  · exact answer_of_silent ((targetAnswers_arrive ..).trans silent) _

end Sys2Proof.Machine
end
